-- ==== Sys2Proof/Word.lean ====
section
/-! DEFINITION. The byte and word types, and the byte orders of R3, R4 and R5. -/

namespace Sys2Proof

/-- One byte of memory or of a message. -/
abbrev Byte := BitVec 8
/-- A 32-bit word. -/
abbrev Word32 := BitVec 32
/-- A 64-bit word: the scalar registers and CSRs of a stall. -/
abbrev Word64 := BitVec 64

/-- A sparse map: keys strictly rising, and no entry equal to what an unlisted key reads as
(Machine/Ops.lean keeps that form). -/
abbrev SMap (α : Type) := List (Nat × α)

/-- Little-endian bytes of a number (R5): `n` bytes, least significant first. -/
def bytesLE : Nat → Nat → List Byte
  | 0, _ => []
  | n + 1, v => BitVec.ofNat 8 v :: bytesLE n (v / 256)

/-- Big-endian bytes of a number (R4). -/
def bytesBE (n v : Nat) : List Byte := (bytesLE n v).reverse

/-- The number little-endian bytes stand for (R5). -/
def natOfLE : List Byte → Nat
  | [] => 0
  | b :: bs => b.toNat + 256 * natOfLE bs

/-- The number big-endian bytes stand for (R4). -/
def natOfBE (bs : List Byte) : Nat := natOfLE bs.reverse

/-- The field `[hi:lo]` of a number, both ends included (R3). -/
def field (v hi lo : Nat) : Nat := (v / 2 ^ lo) % 2 ^ (hi + 1 - lo)

/-- Bit `k` of a number (R3). -/
def bitOf (v k : Nat) : Bool := v / 2 ^ k % 2 == 1

/-- `v` with bit `k` set. -/
def setBit (v k : Nat) : Nat := if bitOf v k then v else v + 2 ^ k

/-- `v` with bit `k` clear. -/
def clrBit (v k : Nat) : Nat := if bitOf v k then v - 2 ^ k else v

/-- `v` with bit `k` set to `b`. -/
def putBit (v k : Nat) (b : Bool) : Nat := if b then setBit v k else clrBit v k

/-- A Boolean as the number its BOOL object reads. -/
def ofBool (b : Bool) : Nat := if b then 1 else 0

/-- The two's complement value of a `w`-bit number. -/
def toSigned (w v : Nat) : Int := if v % 2 ^ w < 2 ^ (w - 1) then (v % 2 ^ w : Nat) else (v % 2 ^ w : Nat) - (2 ^ w : Nat)

/-- The `w`-bit two's complement encoding of an integer. -/
def ofSigned (w : Nat) (i : Int) : Nat := (i % (2 ^ w : Nat)).toNat

/-- The bits set in the low `n` bits of `v`, in rising order. -/
def bitsSet (n v : Nat) : List Nat := (List.range n).filter (bitOf v)

end Sys2Proof
end

