-- ==== Sys2Proof/Syntax.lean ====
section
/-! DEFINITION. The commands of the block: one constructor of `Instr` for each row of
spec/opcode_table.json, with the structures its operands are made of. -/

namespace Sys2Proof

/-! ### The Rovik Object Protocol -/

/-- One item of a ROP request (Table 2.7): IFLAGS as two Booleans, the value as the bytes of the message in the byte order of its source. -/
structure RopItem where
  index : Nat
  sub : Nat
  type : Nat
  length : Nat
  offset : Bool
  last : Bool
  value : List Byte
  deriving DecidableEq, Repr

/-- One ROP request as it reaches the gateway (Table 2.6): the session it came on, the UDP port its datagram
came to on the management port (R48), the header's fields, the message's length in bytes and its items. -/
structure RopReq where
  sess : Nat
  port : Nat
  version : Nat
  requestId : Nat
  shadow : Bool
  itemCount : Nat
  bodyLength : Nat
  msgLen : Nat
  items : List RopItem
  deriving DecidableEq, Repr

/-- The write of one object by a session: what a command that IS the write of one object carries. -/
structure ObjWrite where
  sess : Nat
  value : Nat
  deriving DecidableEq, Repr

/-- The write of one STR or BLOB object, whole, by a session. -/
structure BlobWrite where
  sess : Nat
  bytes : List Byte
  deriving DecidableEq, Repr

/-- What a DTLS 1.3 handshake offered and how it ended, and the UDP port it came to (R46 to R48): `anchor` is 0 for a chain to the
ADMIN anchor, 1 for the OBSERVER anchor and 2 for neither; `suite` is the TLS code point. -/
structure Handshake where
  srcAddr : Nat
  dstPort : Nat
  mutualEcdsaP384Sha384 : Bool
  ecdheP384 : Bool
  suite : Nat
  psk : Bool
  earlyData : Bool
  connectionId : Bool
  verified : Bool
  anchor : Nat
  deriving DecidableEq, Repr

/-! ### Segments and collective messages -/

/-- A segment with its header fields (Table 11.11) and its data. -/
structure Segment where
  kind : Nat
  blind : Bool
  last : Bool
  resend : Bool
  sc : Nat
  job : Nat
  src : Nat
  dst : Nat
  group : Nat
  epoch : Nat
  seq : Nat
  op : Nat
  dir : Nat
  hop : Nat
  chunk : Nat
  offset : Nat
  chunkLen : Nat
  sealV : Nat
  data : List Byte
  deriving DecidableEq, Repr

/-- The header of a collective control message (Table 3.7) after MTYPE and VERSION. -/
structure CtlHdr where
  group : Nat
  epoch : Nat
  src : Nat
  dst : Nat
  seq : Nat
  deriving DecidableEq, Repr

/-- The body of a HELLO (Table 3.8). -/
structure HelloBody where
  descDigest : Nat
  rangeDigest : Nat
  reply : Bool
  deriving DecidableEq, Repr

/-- The body of a CONFIRM (Table 3.8). -/
structure ConfirmBody where
  op : Nat
  taint : Bool
  k : Nat
  sealDigest : Nat
  paramDigest : Nat
  deriving DecidableEq, Repr

/-- The body of an EPOCH_ADV (Table 3.8): the new epoch, the kind of change, the site and the line-port
mask concerned. -/
structure EpochChange where
  newEpoch : Nat
  kind : Nat
  site : Nat
  ports : Nat
  deriving DecidableEq, Repr

/-- A collective control message by type (Table 3.7). -/
inductive CtlMsg where
  | hello (h : CtlHdr) (b : HelloBody)
  | confirm (h : CtlHdr) (b : ConfirmBody)
  | chunkReq (h : CtlHdr) (chunk attempt : Nat)
  | cancel (h : CtlHdr)
  | endStatus (h : CtlHdr) (status cause : Nat)
  | epochAdv (h : CtlHdr) (c : EpochChange)
  | epochAck (h : CtlHdr) (newEpoch : Nat) (entries : List (Nat × Nat))
  | credit (h : CtlHdr) (postedSeq postedLimit blindLimit : Nat)
  deriving DecidableEq, Repr

/-- Where a posting came from: the PCIe function (0xFF PF, else the VF) and its ring, or the collective
sequencer on behalf of a stall program or the step engine. -/
structure JobSrc where
  fn : Nat
  ring : Nat
  entry : Nat
  deriving DecidableEq, Repr

/-- A posting record (Table 3.2); `raw` holds its 64 bytes. -/
structure Posting where
  group : Nat
  pflags : Nat
  seq : Nat
  length : Nat
  inList : Nat
  outList : Nat
  program : Nat
  redop : Nat
  elem : Nat
  coding : Nat
  tallyBase : Nat
  deriving DecidableEq, Repr

/-! ### Doors and the outer step -/

/-- A door as it reaches the gateway (R126): the queue pair it arrives on and bits [27:0] of its immediate value; the
KIND is the command's. -/
structure Door where
  qp : Nat
  imm : BitVec 28
  deriving DecidableEq, Repr

/-- What a source of a refill answers (R140): its committed step, fingerprints and hyperparameter pairs. -/
structure SourceAnswer where
  committed : Nat
  anchorFp : Nat
  momFp : Nat
  hp : List Nat
  deriving DecidableEq, Repr

/-- A page as a refill delivers it: its number, its anchor and its momentum. -/
structure RefillPage where
  page : Nat
  anchor : List Byte
  mom : List Byte
  deriving DecidableEq, Repr

/-- What an uncorrectable HBM error hits (R141, R236): a 64-bit word of a crate, an anchor, momentum or record page, or
a page of a residual bank, or a word of a free-handle ring (Table 8.5). -/
inductive HbmHit where
  | word (addr : Nat)
  | ring (cls : Fin 7) (addr : Nat)
  | page (n : Nat)
  | record (n : Nat)
  | residual (bank : Fin 2) (n : Nat)
  deriving DecidableEq, Repr

/-! ### Stall instructions (Table 5.5) -/

/-- The fields of a scalar instruction. -/
structure ScalarOp where
  sd : Fin 32
  sa : Fin 32
  sb : Fin 32
  i : Bool
  cond : BitVec 8
  imm : BitVec 32
  deriving DecidableEq, Repr

/-- The fields of a vector instruction. -/
structure VectorOp where
  vd : Fin 32
  va : Fin 32
  vb : Fin 32
  vc : Fin 32
  mask : Fin 8
  fmt : Fin 16
  rm : Fin 8
  sa : Fin 32
  imm : BitVec 21
  deriving DecidableEq, Repr

/-- The fields of a matrix instruction; `reserved` is bits [26:0]. -/
structure MatrixOp where
  acc : Fin 8
  sa : Fin 32
  sb : Fin 32
  sk : Fin 32
  fmt : Fin 16
  xsel : Fin 4
  srcb : Bool
  srca : Bool
  zero : Bool
  hslot : Fin 4
  reserved : BitVec 27
  deriving DecidableEq, Repr

/-- The fields of a form T movement instruction; `reserved` is bits [39:32]. -/
structure MoveTOp where
  sd : Fin 32
  sa : Fin 32
  sb : Fin 32
  i : Bool
  reserved : BitVec 8
  toff : BitVec 16
  imm16 : BitVec 16
  deriving DecidableEq, Repr

/-- The fields of a form X movement instruction; `reserved` joins bits [55:51], [35:32] and [15:0]. -/
structure MoveXOp where
  sa : Fin 32
  sb : Fin 32
  sc : Fin 32
  sub : BitVec 16
  reserved : BitVec 25
  deriving DecidableEq, Repr

/-- What the error correction of a stall store finds at an instruction's read (R145): the 64-bit words with a single-bit error and those
with an uncorrectable one, by word number in the store. Words the instruction does not read do not count. -/
structure StoreErrs where
  single : List Nat
  double : List Nat
  deriving DecidableEq, Repr

/-- The fields of an instruction that reads the stall store, and what error correction finds at its read. -/
structure WithErrs (α : Type) where
  op : α
  errs : StoreErrs
  deriving DecidableEq, Repr

/-! ### Porter instructions (Table 9.2) -/

/-- The fields of a porter instruction; `hostOk` tells that its fetch from host memory met no PCIe completion error and no refused
address (Table 9.6). -/
structure Fetched (α : Type) where
  op : α
  hostOk : Bool
  deriving DecidableEq, Repr

/-- The fields of a porter MOVE; the reserved bits are joined in `reserved`. -/
structure MoveOp where
  srel : Bool
  drel : Bool
  fence : Bool
  srcKind : Fin 16
  dstKind : Fin 16
  length : Nat
  src : Nat
  dst : Nat
  fmt : Fin 16
  table : Fin 16
  blockElems64 : Nat
  loc : Fin 4
  prio : Fin 4
  spill : Bool
  nowait : Bool
  reserved : Nat
  deriving DecidableEq, Repr

/-- The fields of a porter LOOP. -/
structure LoopOp where
  count : Nat
  body : Nat
  sstride : Int
  dstride : Int
  vstride : Int
  reserved : Nat
  deriving DecidableEq, Repr

/-- The fields of a porter WAIT or SIGNAL. -/
structure TallyOp where
  vrel : Bool
  tally : Nat
  value : Nat
  reserved : Nat
  deriving DecidableEq, Repr

/-- A crate request (R227): location 0 LOCAL, 1 ON_CHIP, 2 HBM, 3 ANY; priority 0 NORMAL, 1 CONTROL,
2 RESEND; the line die of the requester; the owner code of Table 8.8 and the tenant. -/
structure CrateReq where
  size : Nat
  loc : Fin 4
  prio : Fin 3
  spill : Bool
  nowait : Bool
  die : Fin 2
  owner : Nat
  tenant : Fin 64
  deriving DecidableEq, Repr

/-- A crate operation and the owner code of the source it comes from (Table 8.8). -/
structure CrateOp where
  handle : Nat
  source : Nat
  tenant : Fin 64
  deriving DecidableEq, Repr

/-! ### Island FIFOs -/

/-- What passes at an island FIFO between two commands (R240, R241): a word is written, a held word is upset (the masks give the data,
parity and sideband bits that flip), both pointers become visible to the other side, or the reader takes the next visible word. -/
inductive FifoEvent where
  | write (data : Nat) (endMark : Bool) (validBytes : Nat) (poison : Bool)
  | upset (k data parity : Nat) (side : Bool)
  | cross
  | read
  deriving DecidableEq, Repr

/-- A DROP_REST: the FIFO, of which 0x100 to 0x107 are those of the board links, and what passed at it before the command. -/
structure FifoDrop where
  fifo : Nat
  traffic : List FifoEvent
  deriving DecidableEq, Repr

/-- Bytes that come through an island FIFO, and their words that come poisoned (R236), by number. -/
structure FifoBytes where
  bytes : List Byte
  poisoned : List Nat
  deriving DecidableEq, Repr

/-! ### FEC blocks -/

/-- What the FEC decoder makes of a block: the symbols of its inner codewords, and a flag for each outer codeword that is uncorrectable. -/
structure FecDecoded where
  inner : List (List Nat)
  uncorr : List Bool
  deriving DecidableEq, Repr

/-! ### Messages of the control lane -/

/-- A MARGIN body (Table 14.7); SNR and QMARGIN in units of 0.01 dB. -/
structure MarginMsg where
  mgType : Nat
  round : Nat
  mode : Nat
  modes : Nat
  snr : Int
  qmargin : Int
  target : Nat
  pass : Bool
  verify : Bool
  deriving DecidableEq, Repr

/-- What an IDENT gives (Table 11.9). -/
structure IdentInfo where
  site : Nat
  group : Nat
  place : Nat
  port : Nat
  carriers : Nat
  deriving DecidableEq, Repr

/-- A LOSS_REPORT (Table 12.3). -/
structure LossReport where
  carrier : Nat
  range : Bool
  base : Nat
  map : Nat
  deriving DecidableEq, Repr

/-- A KEY_CHANGE body (Table 13.6). -/
structure KeyMsg where
  kcType : Nat
  slot : Nat
  keyId : Nat
  t : Nat
  status : Nat
  deriving DecidableEq, Repr

/-- A CRIER control-lane body (Table 16.5). -/
structure CrierMsg where
  clType : Nat
  site : Nat
  group : Nat
  place : Nat
  gen : Nat
  deriving DecidableEq, Repr

/-! ### The laser module -/

/-- One laser's registers as read (Table 14.3), with the power at the engine's input; powers in units of 0.01 dBm, currents of
0.1 mA, frequencies of 10 MHz. -/
structure LaserRead where
  pos : Nat
  stat : Nat
  power : Int
  bias : Nat
  biasEol : Nat
  fmon : Int
  deriving DecidableEq, Repr

/-- The module's registers as read (Table 14.3). -/
structure ModuleRead where
  id : Nat
  ver : Nat
  count : Nat
  int : Nat
  status : Nat
  lasers : List LaserRead
  deriving DecidableEq, Repr

/-- What a cipher job reads at the I/O virtual addresses of its record (Table 13.8) when it uses the address form, and whether
every translation and completion succeeded. -/
structure CipherData where
  key : List Byte
  aad : List Byte
  text : List Byte
  tag : List Byte
  ok : Bool
  /-- Which of the record's addresses failed, when not `ok`: 0 key, 1 AAD, 2 input, 3 output, 4 tag. -/
  bad : Fin 5 := 0
  deriving DecidableEq, Repr

/-! ### Time -/

/-- A PTP message as its port takes it, times in units of 2⁻¹⁶ ns (R415): an Announce with the rank its data set has among
masters (lower is better) and its clockClass; a Sync with its origin time, exact in one step; and the others. -/
inductive PtpBody where
  | announce (rank clockClass : Nat)
  | sync (origin : Nat) (twoStep : Bool)
  | followUp (origin : Nat)
  | delayReq (requester : Nat)
  | delayResp (requester receive : Nat)
  deriving DecidableEq, Repr

/-! ### Fabric ports and packets -/

/-- A lane of a fabric port that is lost, and the uncorrectable FEC codewords the port has counted since it last went DOWN. -/
structure LaneLost where
  lane : Fin 8
  uncorr : Nat
  deriving DecidableEq, Repr

/-- The queue pair an RDMA message is for, and whether a packet of it is marked congestion experienced (R457). -/
structure QpArrival where
  qp : Nat
  ce : Bool
  deriving DecidableEq, Repr

/-! ### Fabric connections -/

/-- The buffers a CM REQ for the door queue pair names (R459): the return buffer and the outcome buffer, each a virtual
address and an rkey. -/
structure DoorBufs where
  retVa : Nat
  retRkey : Nat
  outVa : Nat
  outRkey : Nat
  deriving DecidableEq, Repr

/-! ### Job ring entries (Table 17.8) -/

/-- What an XFER entry says: HOST form, delivery in coded form, FMT, XC table, transfer number, LENGTH, source or destination, peer
site, BLOCK_ELEMS / 64, the group whose relay map routes the transfer, and whether every reserved bit is zero. -/
structure XferEntry where
  host : Bool
  coded : Bool
  fmt : Nat
  table : Nat
  number : Nat
  length : Nat
  addr : Nat
  site : Nat
  block64 : Nat
  group : Nat
  reservedZero : Bool
  deriving DecidableEq, Repr

/-- What host memory answers a read of a HOST-form entry with: whether the addresses were good, and the bytes. -/
structure HostRead where
  ok : Bool
  bytes : List Byte
  deriving DecidableEq, Repr

/-- What the far end says of a transfer this gateway sends, by its site and number: it confirms its seal or gives it up, or it asks for a
byte range of it again, by offset and length (R21, R218, R469). -/
structure XferEnd where
  site : Nat
  number : Nat
  confirmed : Bool
  again : Option (Nat × Nat)
  deriving DecidableEq, Repr

/-- A PLACE entry: HOST form, PROG_ID, TALLY_BASE, the address of the USER bytes and of the crate list. -/
structure PlaceEntry where
  host : Bool
  prog : Nat
  tallyBase : Nat
  user : Nat
  list : Nat
  reservedZero : Bool
  deriving DecidableEq, Repr

/-! ### The device, its supply and its tests -/

/-- What the factory puts into the module's fuses and flash (Table 19.2, R563): serial number, MAC addresses, the hashes of the firmware
and vendor debug keys, the slack of each island, DEV_CERT, and the stage-1 images with the slot the directory names. -/
structure FactoryData where
  serial : List Byte
  mgmtMac : Nat
  portMacs : Nat
  fwKeys : List Byte
  vendorDbg : List Byte
  slackT0 : List Int
  devCert : List Byte
  slotA : List Byte
  slotB : List Byte
  recovery : List Byte
  dirSlot : Nat
  deriving DecidableEq, Repr

/-- An item that failed a start-up test: its island, and the stall position or cipher core when that item alone failed. -/
structure BistFail where
  island : Nat
  item : Option Nat
  deriving DecidableEq, Repr

/-- How the rail sequence of R519 failed: the inrush did not complete (the input in mV), or a rail missed its value (mV). -/
inductive RailFault where
  | inrush (mv : Nat)
  | rail (rail mv : Nat)
  deriving DecidableEq, Repr

/-- What a self-test slice tests of an island (Table 21.1): one of the 40 slices of the row's spare stall, a part of the
island, or a cipher core of a carrier's pool. -/
inductive BistItem where
  | stall (k : Nat)
  | part (k : Nat)
  | core (k : Nat)
  deriving DecidableEq, Repr

/-- What a re-plan has measured (R544, R546): the rails with an island short of slack, the loss projected for each carrier in service
in units of 0.01 dB, and the photodiode corrections. -/
structure ReplanData where
  short : List Nat
  losses : List (Nat × Int)
  pd : List Int
  deriving DecidableEq, Repr

/-- The commands the gateway takes from outside, one constructor for each row of the table. -/
inductive Instr where
  /-- R46. -/
  | dtlsHandshake (h : Handshake)
  /-- R48. -/
  | dtlsClose (sess : Fin 8)
  /-- R48. -/
  | ropIdleExpiry (sess : Fin 8)
  /-- R56. -/
  | read (r : RopReq)
  /-- R57. -/
  | write (r : RopReq)
  /-- R64. -/
  | commit (r : RopReq)
  /-- R67. -/
  | abort (r : RopReq)
  /-- R59. -/
  | subscribe (r : RopReq)
  /-- R50. -/
  | ropResponseIn (r : RopReq)
  /-- R60. -/
  | notify (sess : Fin 73)
  /-- R59: the period or minimum interval of subscription number `k` of the session ends. -/
  | subscriptionTimer (sess : Fin 73) (k : Nat)
  /-- R62. -/
  | cgLeaseExpiry (id : Fin 255)
  /-- R64: the boundary of the group comes. `part` is the carrier that began a frame, for boundary FRAME. -/
  | cgApply (id : Fin 255) (part : Fin 8)
  /-- R40. -/
  | unlockExpiry (sess : Fin 73)
  /-- R41. -/
  | cfgSave (sess : Fin 73)
  /-- R41. -/
  | cfgErase (sess : Fin 73)
  /-- R41. -/
  | cfgWriteDone
  /-- R50: a message whose OP, with bit 7 clear, is NOTIFY or not known. -/
  | ropOpNotKnown (op : Nat) (r : RopReq)

  /-- R79: OPEN of the applied descriptor. -/
  | groupOpen
  /-- R82. -/
  | groupModify
  /-- R83. -/
  | groupClose
  /-- R80. -/
  | hello (h : CtlHdr) (b : HelloBody)
  /-- R79: 10 ms passed since the last HELLO of the group. -/
  | helloRetry (group : Fin 1024)
  /-- R84. -/
  | postReduceScatter (p : Posting) (src : JobSrc)
  /-- R84. -/
  | postAllGather (p : Posting) (src : JobSrc)
  /-- R85. -/
  | postAllReduce (p : Posting) (src : JobSrc)
  /-- R84. -/
  | postCancel (p : Posting) (src : JobSrc)
  /-- R106. -/
  | collActivate (group : Fin 1024) (seq : Nat)
  /-- R99. -/
  | chunkReq (h : CtlHdr) (chunk attempt : Nat)
  /-- R101. -/
  | chunkWaitExpiry (group : Fin 1024) (seq chunk : Nat)
  /-- R106. -/
  | collTimeout (group : Fin 1024) (seq : Nat)
  /-- R106. -/
  | confirm (h : CtlHdr) (b : ConfirmBody)
  /-- R106. -/
  | confirmResend (group : Fin 1024) (seq : Nat)
  /-- R106. -/
  | cancel (h : CtlHdr)
  /-- R106. -/
  | endStatus (h : CtlHdr) (status cause : Nat)
  /-- R111. -/
  | epochAdv (h : CtlHdr) (c : EpochChange)
  /-- R111. -/
  | epochAck (h : CtlHdr) (newEpoch : Nat) (entries : List (Nat × Nat))
  /-- R111. -/
  | epochResolveTimeout (group : Fin 1024)
  /-- R104. -/
  | unexpWaitExpiry (group : Fin 1024) (seq : Nat)

  /-- R126, R130: KIND 0x1. -/
  | weightsDone (d : Door)
  /-- R137: KIND 0x2. -/
  | loadAnchor (d : Door)
  /-- R137: KIND 0x3. -/
  | loadMomentum (d : Door)
  /-- R135: KIND 0x4. -/
  | outcomeQuery (d : Door)
  /-- R138: KIND 0x5. -/
  | anchorRead (d : Door)
  /-- R138: KIND 0x6. -/
  | momentumRead (d : Door)
  /-- R136: the write of OS_CMD with 1. -/
  | abandon (sess : Fin 73)
  /-- R137: the write of OS_CMD with 2. -/
  | loadCommit (sess : Fin 73)
  /-- R133. -/
  | sweepPage
  /-- R134: the entry's Q̄ is complete. -/
  | nextAnchorReturn (t : Fin 4096)
  /-- R135. -/
  | outcomeRecord
  /-- R140: a spare at a site asks this gateway as source `i` of `k`. -/
  | refillServe (site : Fin 32) (k i : Nat)
  /-- R140: the sources have answered; `expired` tells that GD_TIMEOUT_MS has passed since the first request. -/
  | refillRetry (answers : List SourceAnswer) (expired : Bool)
  /-- R140: every page has landed, with the committed record and what source 0 stated. -/
  | refillComplete (pages : List RefillPage) (record : List Byte) (src0 : SourceAnswer)
  /-- R141. -/
  | hbmUncorrectable (h : HbmHit)
  /-- R126: a door with another KIND, or one whose fields break the layout. -/
  | doorKindRejected (kind : Fin 16) (d : Door)

  /-- R155. -/
  | nop (st : Fin 128) (o : ScalarOp)
  /-- R155. -/
  | add (st : Fin 128) (o : ScalarOp)
  /-- R155. -/
  | sub (st : Fin 128) (o : ScalarOp)
  /-- R155. -/
  | and (st : Fin 128) (o : ScalarOp)
  /-- R155. -/
  | or (st : Fin 128) (o : ScalarOp)
  /-- R155. -/
  | xor (st : Fin 128) (o : ScalarOp)
  /-- R155. -/
  | shl (st : Fin 128) (o : ScalarOp)
  /-- R155. -/
  | shr (st : Fin 128) (o : ScalarOp)
  /-- R155. -/
  | sra (st : Fin 128) (o : ScalarOp)
  /-- R155. -/
  | mul (st : Fin 128) (o : ScalarOp)
  /-- R155. -/
  | slt (st : Fin 128) (o : ScalarOp)
  /-- R155. -/
  | sltu (st : Fin 128) (o : ScalarOp)
  /-- R155. -/
  | ldi (st : Fin 128) (o : ScalarOp)
  /-- R155. -/
  | ld (st : Fin 128) (o : WithErrs ScalarOp)
  /-- R155. -/
  | st (st : Fin 128) (o : ScalarOp)
  /-- R155. -/
  | br (st : Fin 128) (o : ScalarOp)
  /-- R155. -/
  | jal (st : Fin 128) (o : ScalarOp)
  /-- R155. -/
  | jr (st : Fin 128) (o : ScalarOp)
  /-- R158. -/
  | csrr (st : Fin 128) (o : ScalarOp)
  /-- R182. -/
  | csrw (st : Fin 128) (o : ScalarOp)
  /-- R155. -/
  | vadd (st : Fin 128) (o : VectorOp)
  /-- R155. -/
  | vsub (st : Fin 128) (o : VectorOp)
  /-- R155. -/
  | vmul (st : Fin 128) (o : VectorOp)
  /-- R155. -/
  | vfma (st : Fin 128) (o : VectorOp)
  /-- R155. -/
  | vmax (st : Fin 128) (o : VectorOp)
  /-- R155. -/
  | vmin (st : Fin 128) (o : VectorOp)
  /-- R155. -/
  | vdiv (st : Fin 128) (o : VectorOp)
  /-- R155. -/
  | vsqrt (st : Fin 128) (o : VectorOp)
  /-- R190. -/
  | vcvt (st : Fin 128) (o : VectorOp)
  /-- R155. -/
  | vsplat (st : Fin 128) (o : VectorOp)
  /-- R153. -/
  | vredsum (st : Fin 128) (o : VectorOp)
  /-- R188. -/
  | vld (st : Fin 128) (o : WithErrs VectorOp)
  /-- R188. -/
  | vst (st : Fin 128) (o : VectorOp)
  /-- R155. -/
  | vcmp (st : Fin 128) (o : VectorOp)
  /-- R155. -/
  | vsel (st : Fin 128) (o : VectorOp)
  /-- R192. -/
  | mopa (st : Fin 128) (o : WithErrs MatrixOp)
  /-- R196. -/
  | mst (st : Fin 128) (o : MatrixOp)
  /-- R155. -/
  | mld (st : Fin 128) (o : WithErrs MatrixOp)
  /-- R155. -/
  | mzero (st : Fin 128) (o : MatrixOp)
  /-- R211. -/
  | xcfg (st : Fin 128) (o : WithErrs MatrixOp)
  /-- R159. -/
  | tallyAdd (st : Fin 128) (o : MoveTOp)
  /-- R159. -/
  | tallyWaitGe (st : Fin 128) (o : MoveTOp)
  /-- R159: the wake-up of a waiting stall. -/
  | tallyWaitSatisfied (st : Fin 128)
  /-- R159. -/
  | tallyReset (st : Fin 128) (o : MoveTOp)
  /-- R147. -/
  | xld (st : Fin 128) (o : MoveXOp)
  /-- R147. -/
  | xst (st : Fin 128) (o : WithErrs MoveXOp)
  /-- R149. -/
  | rtree (st : Fin 128) (o : WithErrs MoveXOp)
  /-- R148. -/
  | rtreeComplete (placement : Nat) (row : Fin 16) (tag : Fin 4)
  /-- R155. -/
  | pkick (st : Fin 128) (o : MoveTOp)
  /-- R157. -/
  | sync (st : Fin 128) (o : MoveTOp)
  /-- R172. -/
  | stallStop (st : Fin 128) (o : MoveTOp)
  /-- R172. -/
  | trap (st : Fin 128) (o : MoveTOp)
  /-- R172. -/
  | stallWatchdog (st : Fin 128)
  /-- R170: the sequencers take the placement at the head of their queue. -/
  | placementStart
  /-- R175. -/
  | migrationDrained (row : Fin 16)
  /-- R176. -/
  | migDrainExpiry (row : Fin 16)
  /-- R143. -/
  | rowFreqMhz (row : Fin 16) (w : ObjWrite)
  /-- R168. -/
  | progImage (w : BlobWrite)
  /-- R179. -/
  | progUnload (w : ObjWrite)
  /-- R205. -/
  | xcTable (table : Fin 16) (w : BlobWrite)

  /-- R135: the door queue pair, and whether the acknowledgement covers the last WRITE sent. -/
  | rcAcknowledgement (qp : Nat) (last : Bool)
  /-- R471. -/
  | statusWord
  /-- R471: the input in mV; none when it is not measured in this state. -/
  | readVin (mv : Option Nat)
  /-- R471: in mA. -/
  | readIin (ma : Option Nat)
  /-- R471: CD0, CD1, LD0 and LD1 in units of 0.01 °C; empty when not measured. -/
  | readTemperature1 (cc : List Int)
  /-- R471: HBM0 to HBM5. -/
  | readTemperature2 (cc : List Int)
  /-- R471: PE0 to PE7. -/
  | readTemperature3 (cc : List Int)
  /-- R471: in units of 0.1 W. -/
  | readPin (dw : Option Nat)
  /-- R471. -/
  | pmbusRevision
  /-- R471. -/
  | mfrId
  /-- R471. -/
  | mfrModel
  /-- R471. -/
  | mfrDevState
  /-- R471: the command byte. -/
  | pmbusWrite (cmd : Fin 256)
  /-- R470: the IPv4 address asked for. -/
  | mgmtArp (target : Nat)
  /-- R470: the IPv6 address asked for. -/
  | mgmtNeighbourDiscovery (target : Nat)
  /-- R470: the address the echo request came to, and its identifier, sequence number and data. -/
  | mgmtIcmpEcho (v6 : Bool) (dst : Nat) (data : List Byte)
  /-- R470: the message type (RFC 2132), and the address and prefix length it gives. -/
  | dhcpv4Message (kind addr plen : Nat)
  /-- R470: a prefix, its length and its autonomous flag. -/
  | routerAdvertisement (prefix6 plen : Nat) (autonomous : Bool)

  /-- R227. -/
  | crateAlloc (q : CrateReq)
  /-- R229: the waiting request at place `k` of the queue. -/
  | crateWaitServed (k : Nat)
  /-- R229. -/
  | allocWaitExpiry (k : Nat)
  /-- R224; `cls` 4, 5 or 6. -/
  | handleCacheRefill (cls : Fin 7)
  /-- R224. -/
  | handleCacheSpill (cls : Fin 7)
  /-- R231. -/
  | ref (o : CrateOp) (n : Nat)
  /-- R232. -/
  | deref (o : CrateOp)
  /-- R231. -/
  | give (o : CrateOp) (newOwner : Nat)
  /-- R233. -/
  | free (o : CrateOp)
  /-- R234. -/
  | crateStrict (w : ObjWrite)
  /-- R235. -/
  | tenantTeardown (tenant : Fin 64)
  /-- R245: the pin BL_FC_IN[n] as sampled. -/
  | blFcIn (link : Fin 8) (high : Bool)
  /-- R244. -/
  | dropRest (d : FifoDrop)
  /-- R245. -/
  | blRxWm (link : Fin 8) (w : ObjWrite)

  /-- R259. -/
  | copy (ch : Fin 512) (o : Fetched MoveOp)
  /-- R260. -/
  | xcEncode (ch : Fin 512) (o : Fetched MoveOp)
  /-- R262. -/
  | xcCheck (ch : Fin 512) (o : Fetched MoveOp)
  /-- R262. -/
  | xcDecode (ch : Fin 512) (o : Fetched MoveOp)
  /-- R259. -/
  | zero (ch : Fin 512) (o : Fetched MoveOp)
  /-- R256. -/
  | loop (ch : Fin 512) (o : Fetched LoopOp)
  /-- R258. -/
  | wait (ch : Fin 512) (o : Fetched TallyOp)
  /-- R258. -/
  | porterWaitSatisfied (ch : Fin 512)
  /-- R267. -/
  | porterWaitWatchdog (ch : Fin 512)
  /-- R258. -/
  | signal (ch : Fin 512) (o : Fetched TallyOp)
  /-- R258. -/
  | porterStop (ch : Fin 512) (code : Fetched (Fin 65536)) (reserved : Nat)
  /-- R265: the read engines of a line die take the next ready burst. `hostData` is what a read of host
  memory returns; `hostOk` tells that the PCIe completion and the translation succeeded. -/
  | porterBurst (die : Fin 2) (hostData : List Byte) (hostOk : Bool)
  /-- R264: the oldest burst in flight of the channel is acknowledged; `hostOk` as above for a write to the host. -/
  | burstDone (ch : Fin 512) (hostOk : Bool)
  /-- R267: the channel's fault is entered once no burst is in flight. -/
  | channelFault (ch : Fin 512)
  /-- R268. -/
  | channelStop (ch : Fin 512)
  /-- R270. -/
  | porterChCfg (ch : Fin 512) (w : ObjWrite)


  /-- R278. -/
  | schedSelect (port : Fin 4)
  /-- R276: the waiting enqueue at place `k`. -/
  | enqueueRoom (k : Nat)
  /-- R295. -/
  | schedSample
  /-- R289: to a sender of the group. -/
  | creditSend (group : Fin 1024) (site : Fin 32)
  /-- R290. -/
  | credit (h : CtlHdr) (postedSeq postedLimit blindLimit : Nat)
  /-- R456: the frame from destination address to FCS. -/
  | tenantEthRx (frame : List Byte)

  /-- R279: a carrier begins a frame. -/
  | frameStart (c : Fin 8)
  /-- R312: the aligner of a carrier tests the window at a bit offset. -/
  | alignerWindow (c : Fin 8) (offset : Nat) (window : List Byte)
  /-- R314: the body of a frame position as the FEC decoder delivers it, with the 64-byte words of its payload that come poisoned,
  and whether some bit of it is uncorrectable. -/
  | frameReceived (c : Fin 8) (body : FifoBytes) (uncorr : Bool)
  /-- R17: an IDENT taken on a carrier. -/
  | ident (c : Fin 8) (i : IdentInfo)
  /-- R310. -/
  | identSend (c : Fin 8)
  /-- R319. -/
  | losDeclare (c : Fin 8)
  /-- R319. -/
  | losClear (c : Fin 8)
  /-- R319. -/
  | lockLost (c : Fin 8)
  /-- R319. -/
  | lockClear (c : Fin 8)
  /-- R329. -/
  | degInterval (c : Fin 8)
  /-- R329: the decoded block, the corrected bits and the line bits of those that decoded. -/
  | fecBlock (c : Fin 8) (b : FecDecoded) (corr bits : Nat)
  /-- R339. -/
  | lossReportRepeat (port : Fin 4)
  /-- R340. -/
  | openRangeRepeat (c : Fin 8)
  /-- R341: taken on a carrier. -/
  | lossReport (c : Fin 8) (r : LossReport)
  /-- R335. -/
  | resendHoldExpiry (port : Fin 4)


  /-- R358. -/
  | keyLoad (w : BlobWrite)
  /-- R362. -/
  | changeNow (sess : Fin 73) (port : Fin 4)
  /-- R356. -/
  | eraseNext (sess : Fin 73) (port : Fin 4)
  /-- R366. -/
  | keyChangeDue (port : Fin 4)
  /-- R362. -/
  | announceRetry (port : Fin 4)
  /-- R362. -/
  | announceTimeout (port : Fin 4)
  /-- R362. -/
  | keyChangeRetry (port : Fin 4)
  /-- R362: taken on a carrier. -/
  | announce (c : Fin 8) (m : KeyMsg)
  /-- R362. -/
  | ack (c : Fin 8) (m : KeyMsg)
  /-- R362. -/
  | nack (c : Fin 8) (m : KeyMsg)
  /-- R363. -/
  | boundary (c : Fin 8) (m : KeyMsg)
  /-- R362. -/
  | keySwitchT (port : Fin 4)
  /-- R363. -/
  | keyOverlapExpiry (port : Fin 4)
  /-- R368: the 64-byte record of the entry, and what the host answers its reads with. -/
  | encrypt (src : JobSrc) (rec : List Byte) (d : CipherData)
  /-- R370. -/
  | decrypt (src : JobSrc) (rec : List Byte) (d : CipherData)
  /-- R370. -/
  | tagCheck (src : JobSrc) (rec : List Byte) (d : CipherData)


  /-- R25: the module's registers as read. -/
  | laserInt (m : ModuleRead)
  /-- R379. -/
  | laserModuleSilent
  /-- R379: what the retried transfer read, and nothing when it is not acknowledged either. -/
  | i2cRetry (m : Option ModuleRead)
  /-- R382, R394. -/
  | lmTuneExpiry (c : Fin 8)
  /-- R380, R381: the error in units of 10 MHz, whether ring B matches the expected order, and LF_FMON minus the locker's
  estimate in units of 10 MHz. -/
  | lockerSample (c : Fin 8) (err : Int) (orderOk : Bool) (fmonDiff : Int)
  /-- R380. -/
  | lfFineSteer (c : Fin 8)
  /-- R382. -/
  | lockTimeout (c : Fin 8)
  /-- R382. -/
  | acquireTimeout (c : Fin 8)
  /-- R382. -/
  | downRetry (c : Fin 8)
  /-- R384. -/
  | marginSend (c : Fin 8)
  /-- R386: the message as taken on the carrier. -/
  | offer (c : Fin 8) (m : MarginMsg)
  /-- R386. -/
  | marginReport (c : Fin 8) (m : MarginMsg)
  /-- R386. -/
  | set (c : Fin 8) (m : MarginMsg)
  /-- R386. -/
  | setAck (c : Fin 8) (m : MarginMsg)
  /-- R386. -/
  | join (c : Fin 8) (m : MarginMsg)
  /-- R386: the receive SNR in units of 0.01 dB, the far end's frequency offset in units of 10 MHz, and whether the skew
  calibration's result was in range. -/
  | mgMeasEnd (c : Fin 8) (snr farOffset : Int) (skewOk : Bool)
  /-- R387. -/
  | mgAcqTimeout (c : Fin 8)
  /-- R389. -/
  | mgVerifyEnd (c : Fin 8) (snr : Int)
  /-- R390. -/
  | qmarginUpdate (c : Fin 8) (snr : Int)
  /-- R392. -/
  | drainWaitExpiry (c : Fin 8)
  /-- R393: the samples of the lasers. -/
  | laserTrendSample (samples : List LaserRead)
  /-- R394: the laser the carrier moves to has held its frequency. -/
  | spareSettle (c : Fin 8)
  /-- R396: the power at the engine's input in units of 0.01 dBm. -/
  | laserFail (pos : Fin 10) (power : Int)
  /-- R390. -/
  | retest (sess : Fin 73) (c : Fin 8)
  /-- R395. -/
  | laserSpare (sess : Fin 73) (c : Fin 8)
  /-- R395. -/
  | laserReturn (sess : Fin 73) (c : Fin 8)
  /-- R398: the bias error in per mille of Vπ. -/
  | biasDither (c : Fin 8) (err : Int)
  /-- R398: the launch power in units of 0.01 dBm. -/
  | launchPowerLoop (c : Fin 8) (power : Int)
  /-- R398: locker minus LF_FMON averaged over 10 s, in units of 10 MHz. -/
  | lockerCalCheck (c : Fin 8) (diff : Int)


  /-- R407. -/
  | servoUpdate
  /-- R402. -/
  | secondTick
  /-- R407. -/
  | tsSet (w : ObjWrite)
  /-- R405. -/
  | ref10mPresent
  /-- R405. -/
  | ref10mLost
  /-- R405. -/
  | ppsPulse
  /-- R410. -/
  | ttWindow
  /-- R414. -/
  | delaySettleExpiry (c : Fin 8)
  /-- R412: a carrier, or every carrier of a port. -/
  | calibrate (sess : Fin 73) (portWide : Bool) (target : Fin 8)
  /-- R412. -/
  | calibrationEnd (c : Fin 8)
  /-- R412. -/
  | asymClear (sess : Fin 73) (portWide : Bool) (target : Fin 8)
  /-- R414. -/
  | accept (sess : Fin 73) (portWide : Bool) (target : Fin 8)
  /-- R412. -/
  | ttAsymPs (c : Fin 8) (w : ObjWrite)
  /-- R415: on a local-fabric port, in a domain. -/
  | ptpMessage (port : Fin 16) (domain : Nat) (m : PtpBody)

  /-- R418. -/
  | heartbeatSend
  /-- R419: a control symbol on a board link. -/
  | heartbeat (link : Fin 8) (sym : BitVec 64)
  /-- R419. -/
  | heartbeatMissExpiry (place : Fin 9)
  /-- R419: a crier message's bytes (Tables 16.2 and 16.3). -/
  | suspect (link : Fin 8) (msg : List Byte)
  /-- R419. -/
  | clear (link : Fin 8) (msg : List Byte)
  /-- R422. -/
  | promote (link : Fin 8) (msg : List Byte)
  /-- R426. -/
  | fenced (link : Fin 8) (msg : List Byte)
  /-- R434. -/
  | withdraw (link : Fin 8) (msg : List Byte)
  /-- R427. -/
  | crierReport (link : Fin 8) (msg : List Byte)
  /-- R427. -/
  | reportSend
  /-- R421. -/
  | voteConfirmExpiry (place : Fin 8)
  /-- R431. -/
  | shufAck
  /-- R30. -/
  | shufAckTimeout
  /-- R428. -/
  | promotedSend (c : Fin 8)
  /-- R432: taken on a carrier. -/
  | promoted (c : Fin 8) (m : CrierMsg)
  /-- R428. -/
  | promotedAck (c : Fin 8) (m : CrierMsg)
  /-- R422: the places from which valid heartbeats have come in the last CR_FENCE_US. -/
  | isolationFence (heard : Nat)
  /-- R438. -/
  | promotionRelease
  /-- R429. -/
  | placeProfile (place : Fin 8) (w : BlobWrite)
  /-- R441. -/
  | wtrExpiry (c : Fin 8)
  /-- R442. -/
  | portWithdrawExpiry (port : Fin 4)
  /-- R440: a mask of carriers. -/
  | forceOut (sess : Fin 73) (mask : Fin 256)
  /-- R440. -/
  | clearForce (sess : Fin 73) (mask : Fin 256)
  /-- R444: the working port. -/
  | lockout (sess : Fin 73) (port : Fin 4)
  /-- R444. -/
  | clearLockout (sess : Fin 73) (port : Fin 4)

  /-- R452. -/
  | portUp (port : Fin 16)
  /-- R452: the lane that has not come up. -/
  | portBringupTimeout (port : Fin 16) (lane : Fin 8)
  /-- R453. -/
  | portDown (port : Fin 16) (lost : LaneLost)
  /-- R454. -/
  | failback (port : Fin 16)
  /-- R458: the service ID and the requester's queue pair. -/
  | cmReq (port : Fin 16) (service remote : Nat) (bufs : DoorBufs)
  /-- R460. -/
  | rdmaWrite (q : QpArrival) (va : Nat) (bytes : List Byte)
  /-- R457. -/
  | rdmaRead (q : QpArrival) (va len : Nat)
  /-- R457. -/
  | rdmaSend (q : QpArrival) (bytes : List Byte)
  /-- R457. -/
  | cnp (qp : Nat)
  /-- R455: class 0 data, 1 control; `on` is false when the pause ends. -/
  | pfcPause (port : Fin 16) (cls : Fin 2) (on : Bool)
  /-- R463. -/
  | blMsgTx (w : BlobWrite)
  /-- R463; `flow`: what passes at the receive FIFO after each word (R240). -/
  | blMsg (link : Fin 8) (body : FifoBytes) (flow : List (List FifoEvent))
  /-- R462: the board group and place the far end gives. -/
  | boardLinkUp (link : Fin 8) (group place : Nat)
  /-- R462. -/
  | boardLinkDown (link : Fin 8)
  /-- R420. -/
  | blLaneFail (link : Fin 8)
  /-- R466: the function (0xFF the PF, else the VF) and the request's length. -/
  | mbDoorbell (fn : Fin 256) (length : Nat)
  /-- R466. -/
  | respAck (fn : Fin 256) (value : Nat)
  /-- R466. -/
  | noteAck (fn : Fin 256) (value : Nat)
  /-- R467. -/
  | subTail (fn : Fin 256) (ring : Fin 32) (value : Nat)
  /-- R467. -/
  | compHead (fn : Fin 256) (ring : Fin 32) (value : Nat)
  /-- R467. -/
  | ringCtrl (fn : Fin 256) (ring : Fin 32) (value : Nat)
  /-- R467: an offset in BAR0 and the value written. -/
  | registerWrite (fn : Fin 256) (offset : Nat) (value : Nat)
  /-- R469: the next completion of a ring; it may be of a transfer whose end the far end has told. -/
  | jobCompletion (fn : Fin 256) (ring : Fin 32) (xend : Option XferEnd)
  /-- R468: HOST form and the program address. -/
  | porterJobStart (src : JobSrc) (host : Bool) (addr : Nat) (reservedZero : Bool)
  /-- R163: j of the block. -/
  | tallyJobAlloc (src : JobSrc) (j : Nat) (reservedZero : Bool)
  /-- R164: the block base. -/
  | tallyJobFree (src : JobSrc) (base : Nat) (reservedZero : Bool)
  /-- R468: the tally and the value. -/
  | tallyJobAdd (src : JobSrc) (tally value : Nat) (reservedZero : Bool)
  /-- R468. -/
  | tallyJobReset (src : JobSrc) (tally : Nat) (reservedZero : Bool)
  /-- R468: what host memory gives for the USER bytes in HOST form. -/
  | placeJobStart (src : JobSrc) (e : PlaceEntry) (d : HostRead)
  /-- R469: what host memory gives for the source in HOST form. -/
  | xferSend (src : JobSrc) (e : XferEntry) (d : HostRead)
  /-- R469. -/
  | xferReceive (src : JobSrc) (e : XferEntry) (d : HostRead)
  /-- R472. -/
  | functionLevelReset (fn : Fin 256)
  /-- R472. -/
  | pcieLinkLoss
  /-- R464: the functions that are enabled from now on, 0 to 64 of them. -/
  | sriovVfEnable (count : Fin 65)
  /-- R464: the PCIe generation and the width. -/
  | pcieLinkUp (gen width : Fin 256)

  /-- R474: the strap pins, and what the factory put into fuses and flash. -/
  | auxApplied (place : Fin 16) (factory : FactoryData)
  /-- R474. -/
  | auxLost
  /-- R474, R519, R524: whether a junction is still above its limit − 15 K after a trip, and how the rail sequence failed. -/
  | bootStart (hot : Bool) (rails : Option RailFault)
  /-- R481: whether the fuse blocks agree with their checks. -/
  | stage1Start (fusesOk : Bool)
  /-- R474. -/
  | pcieFundamentalReset
  /-- R474. -/
  | devCmdService (sess : Fin 73)
  /-- R476. -/
  | devCmdLineHold (sess : Fin 73)
  /-- R474. -/
  | devCmdReady (sess : Fin 73)
  /-- R475: whether the zeroised keys read back as zeros (R509). -/
  | devCmdRestart (sess : Fin 73) (zeroOk : Bool)
  /-- R477. -/
  | devCmdSafe (sess : Fin 73)
  /-- R476: a rail that failed, and what failed the start-up test of the compute dies. -/
  | computeDiesReady (rails : Option RailFault) (failed : List BistFail)
  /-- R484. -/
  | dlCmdFetch (sess : Fin 73)
  /-- R484: the bytes read from the host; none for a PCIe error. -/
  | fetchComplete (image : Option (List Byte))
  /-- R484. -/
  | dlCmdDone (sess : Fin 73)
  /-- R564. -/
  | dlCmdAbort (sess : Fin 73)
  /-- R491. -/
  | dlCmdActivate (sess : Fin 73)
  /-- R493. -/
  | activationStart
  /-- R493. -/
  | activationWaitExpiry
  /-- R491. -/
  | activationSoakExpiry
  /-- R494: the bytes the command reads from DL_ADDR; none for a PCIe error. -/
  | dlCmdFlash (sess : Fin 73) (image : Option (List Byte))
  /-- R494: the slot as it reads back. -/
  | flashDone (readBack : List Byte)
  /-- R485: the step of Table 18.8; the items that failed their start-up test (step 1); the HBM stacks that failed (step 2). -/
  | initStepComplete (step : Fin 8) (failed : List BistFail) (hbm : List (Fin 6))
  /-- R485: the items failed or not done (step 1). -/
  | initStepLimit (step : Fin 8) (failed : List BistFail)
  /-- R486: whether the copy from the image store passes its hash check. -/
  | procWatchdog (p : Fin 8) (copyOk : Bool)
  /-- R486. -/
  | procTrap (p : Fin 8) (copyOk : Bool)
  /-- R487. -/
  | procCmdRestart (sess : Fin 73) (p : Fin 8) (copyOk : Bool)
  /-- R489: the subindex less one. -/
  | featDriver (half : Fin 2) (w : ObjWrite)
  /-- R486. -/
  | procRestartComplete (p : Fin 8)
  /-- R505. -/
  | debuggerHalt (p : Fin 8)
  /-- R505. -/
  | debuggerResume (p : Fin 8)

  /-- R502. -/
  | secChalReq (w : ObjWrite)
  /-- R502. -/
  | secResponse (w : BlobWrite)
  /-- R503. -/
  | challengeLockoutExpiry (purpose : Fin 5)
  /-- R501: whether SEC finds that DEV_CERT certifies the ATTK key to be (log entry 75), and whether the zeroised keys read back as zeros
  (R509). -/
  | lcCmdProvision (sess : Fin 73) (chainOk zeroOk : Bool)
  /-- R501. -/
  | lcCmdField (sess : Fin 73) (zeroOk : Bool)
  /-- R501. -/
  | lcCmdReturn (sess : Fin 73) (zeroOk : Bool)
  /-- R504. -/
  | authenticate (sess : Fin 73)
  /-- R504. -/
  | dbgOpen (sess : Fin 73)
  /-- R504. -/
  | dbgClose (sess : Fin 73)
  /-- R500. -/
  | fuseRevoke (sess : Fin 73) (slot : Fin 4)
  /-- R500. -/
  | fuseSvn (sess : Fin 73) (kind svn : Fin 256)
  /-- R499. -/
  | lkekPeer (w : BlobWrite)
  /-- R512. -/
  | attNonce (w : BlobWrite)

  /-- R507. -/
  | pwrCmdIdle (sess : Fin 73)
  /-- R508. -/
  | pwrCmdActive (sess : Fin 73)
  /-- R522: the sensor (Table 20.15) and its reading in units of 0.01 °C. -/
  | otWarn (sensor : Fin 19) (cc : Int)
  /-- R522. -/
  | otThrottle (sensor : Fin 19) (cc : Int)
  /-- R522. -/
  | otCrit (sensor : Fin 19) (cc : Int)
  /-- R521: the 10 ms mean in units of 0.1 W. -/
  | powerCap (pinDw : Nat)
  /-- R522: the input in mV. -/
  | vinLow (mv : Nat)
  /-- R523. -/
  | vinHard (mv : Nat)
  /-- R522. -/
  | vinHigh (mv : Nat)
  /-- R523. -/
  | vinAbove46v (mv : Nat)
  /-- R522: the input current in mA. -/
  | oc (ma : Nat)
  /-- R522: the inlet and outlet temperatures. -/
  | coolant (inCc outCc : Int)
  /-- R522: the rail and its reading in mV. -/
  | rail (k : Fin 29) (mv : Nat)
  /-- R527. -/
  | refclk
  /-- R527. -/
  | refclkHoldExpiry
  /-- R522: 3.3 V_AUX in mV. -/
  | auxLow (mv : Nat)
  /-- R522. -/
  | emergFlagClear (flag : Fin 12)
  /-- R522: the 10 ms mean input power in units of 0.1 W, and the input current in mA. -/
  | throttleStep (pinDw iinMa : Nat)
  /-- R524. -/
  | thermalTrip (sensor : Fin 19) (cc : Int)
  /-- R523: whether the zeroised keys read back as zeros (R509). -/
  | hotswapAuxEntry (zeroOk : Bool)
  /-- R508: a rail that failed, and what failed the start-up test of the compute dies. -/
  | p0Reached (rails : Option RailFault) (failed : List BistFail)

  /-- R535: the headroom measured, in W. -/
  | bistSliceStart (slot : Fin 2) (island : Fin 112) (item : BistItem) (headroom : Int)
  /-- R540. -/
  | bistSliceEnd (slot : Fin 2) (pass : Bool)
  /-- R536: the seconds slices were suspended. -/
  | bistCycleOverdue (suspended : Nat)
  /-- R541: the slack of each island in ps. -/
  | ageSlackSample (slacks : List Int)
  /-- R541: the eye margin of each lane in mUI. -/
  | ageEyeSample (eyes : List Nat)
  /-- R542: the hottest die in units of 0.01 °C. -/
  | ageTempSample (cc : Int)
  /-- R543. -/
  | replanDue (r : ReplanData)
  /-- R543. -/
  | replanCmdNow (sess : Fin 73) (r : ReplanData)
  /-- R544: a rail, and its least slack after the step in ps; for a row rail at its maximum, at the ceiling after the step. -/
  | voltageStep (k : Fin 29) (slack : Int)
  deriving DecidableEq, Repr

end Sys2Proof
end

