-- ==== Sys2Proof/Decode.lean ====
section
/-! DEFINITION. The command a word spells by the bits of the opcode table; the stall and porter instructions that program words spell
(Tables 5.5, 5.6, 9.2 and 9.5). -/

namespace Sys2Proof

/-- No row of the table gives its command bits, so no word spells one (log entry 61). -/
def decodeTableWord (_nbits _w : Nat) : Option Instr := none

/-! ### Stall instructions (R154, R155) -/

/-- The scalar fields of a word. -/
def scalarFields (w : Nat) : ScalarOp :=
  { sd := Fin.ofNat 32 (field w 55 51), sa := Fin.ofNat 32 (field w 50 46), sb := Fin.ofNat 32 (field w 45 41), i := bitOf w 40,
    cond := BitVec.ofNat 8 (field w 39 32), imm := BitVec.ofNat 32 w }

/-- The vector fields. -/
def vectorFields (w : Nat) : VectorOp :=
  { vd := Fin.ofNat 32 (field w 55 51), va := Fin.ofNat 32 (field w 50 46), vb := Fin.ofNat 32 (field w 45 41),
    vc := Fin.ofNat 32 (field w 40 36), mask := Fin.ofNat 8 (field w 35 33), fmt := Fin.ofNat 16 (field w 32 29),
    rm := Fin.ofNat 8 (field w 28 26), sa := Fin.ofNat 32 (field w 25 21), imm := BitVec.ofNat 21 w }

/-- The matrix fields. -/
def matrixFields (w : Nat) : MatrixOp :=
  { acc := Fin.ofNat 8 (field w 55 53), sa := Fin.ofNat 32 (field w 52 48), sb := Fin.ofNat 32 (field w 47 43),
    sk := Fin.ofNat 32 (field w 42 38), fmt := Fin.ofNat 16 (field w 37 34), xsel := Fin.ofNat 4 (field w 33 32), srcb := bitOf w 31,
    srca := bitOf w 30, zero := bitOf w 29, hslot := Fin.ofNat 4 (field w 28 27), reserved := BitVec.ofNat 27 w }

/-- The fields of movement form T. -/
def moveTFields (w : Nat) : MoveTOp :=
  { sd := Fin.ofNat 32 (field w 55 51), sa := Fin.ofNat 32 (field w 50 46), sb := Fin.ofNat 32 (field w 45 41), i := bitOf w 40,
    reserved := BitVec.ofNat 8 (field w 39 32), toff := BitVec.ofNat 16 (field w 31 16), imm16 := BitVec.ofNat 16 w }

/-- The fields of movement form X. -/
def moveXFields (w : Nat) : MoveXOp :=
  { sa := Fin.ofNat 32 (field w 50 46), sb := Fin.ofNat 32 (field w 45 41), sc := Fin.ofNat 32 (field w 40 36),
    sub := BitVec.ofNat 16 (field w 31 16),
    reserved := BitVec.ofNat 25 (field w 55 51 * 2 ^ 20 + field w 35 32 * 2 ^ 16 + field w 15 0) }

/-- No error of the stall store. -/
def StoreErrs.none : StoreErrs := ⟨[], []⟩

/-- The instruction a word of the instruction store spells on a stall: bits [63:62] hold the class and bits [61:56] the operation of
Table 5.6; a code that is not listed spells none. -/
def stallInstr (st : Fin 128) (w : Nat) : Option Instr :=
  let s := scalarFields w
  let v := vectorFields w
  let m := matrixFields w
  let t := moveTFields w
  let x := moveXFields w
  match field w 63 62, field w 61 56 with
  | 0, 0x00 => some (.nop st s)
  | 0, 0x01 => some (.add st s)
  | 0, 0x02 => some (.sub st s)
  | 0, 0x03 => some (.and st s)
  | 0, 0x04 => some (.or st s)
  | 0, 0x05 => some (.xor st s)
  | 0, 0x06 => some (.shl st s)
  | 0, 0x07 => some (.shr st s)
  | 0, 0x08 => some (.sra st s)
  | 0, 0x09 => some (.mul st s)
  | 0, 0x0A => some (.slt st s)
  | 0, 0x0B => some (.sltu st s)
  | 0, 0x0C => some (.ldi st s)
  | 0, 0x10 => some (.ld st ⟨s, .none⟩)
  | 0, 0x11 => some (.st st s)
  | 0, 0x18 => some (.br st s)
  | 0, 0x19 => some (.jal st s)
  | 0, 0x1A => some (.jr st s)
  | 0, 0x1C => some (.csrr st s)
  | 0, 0x1D => some (.csrw st s)
  | 1, 0x00 => some (.vadd st v)
  | 1, 0x01 => some (.vsub st v)
  | 1, 0x02 => some (.vmul st v)
  | 1, 0x03 => some (.vfma st v)
  | 1, 0x04 => some (.vmax st v)
  | 1, 0x05 => some (.vmin st v)
  | 1, 0x06 => some (.vdiv st v)
  | 1, 0x07 => some (.vsqrt st v)
  | 1, 0x09 => some (.vcvt st v)
  | 1, 0x0A => some (.vsplat st v)
  | 1, 0x0B => some (.vredsum st v)
  | 1, 0x10 => some (.vld st ⟨v, .none⟩)
  | 1, 0x11 => some (.vst st v)
  | 1, 0x14 => some (.vcmp st v)
  | 1, 0x15 => some (.vsel st v)
  | 2, 0x00 => some (.mopa st ⟨m, .none⟩)
  | 2, 0x01 => some (.mst st m)
  | 2, 0x02 => some (.mld st ⟨m, .none⟩)
  | 2, 0x03 => some (.mzero st m)
  | 2, 0x08 => some (.xcfg st ⟨m, .none⟩)
  | 3, 0x00 => some (.tallyAdd st t)
  | 3, 0x01 => some (.tallyWaitGe st t)
  | 3, 0x02 => some (.tallyReset st t)
  | 3, 0x04 => some (.xld st x)
  | 3, 0x05 => some (.xst st ⟨x, .none⟩)
  | 3, 0x06 => some (.rtree st ⟨x, .none⟩)
  | 3, 0x08 => some (.pkick st t)
  | 3, 0x0C => some (.sync st t)
  | 3, 0x0E => some (.stallStop st t)
  | 3, 0x0F => some (.trap st t)
  | _, _ => none

/-! ### Porter instructions (R253, R259) -/

/-- A little-endian field of bytes. -/
def leAt (bs : List Byte) (o n : Nat) : Nat := natOfLE ((bs.drop o).take n)

/-- The fields of a MOVE; its reserved bits are those of MFLAGS, XCP and ALLOC. -/
def moveFields (bs : List Byte) : MoveOp :=
  let f := leAt bs 1 1
  let k := leAt bs 2 1
  let xcp := leAt bs 24 4
  let al := leAt bs 28 4
  { srel := bitOf f 0, drel := bitOf f 1, fence := bitOf f 2, srcKind := Fin.ofNat 16 k, dstKind := Fin.ofNat 16 (k / 16),
    length := leAt bs 4 4, src := leAt bs 8 8, dst := leAt bs 16 8, fmt := Fin.ofNat 16 xcp, table := Fin.ofNat 16 (xcp / 16),
    blockElems64 := field xcp 13 8, loc := Fin.ofNat 4 al, prio := Fin.ofNat 4 (al / 4), spill := bitOf al 4, nowait := bitOf al 5,
    reserved := (f / 8 * 2 ^ 18 + xcp / 2 ^ 14) * 2 ^ 26 + al / 2 ^ 6 }

/-- The fields of a LOOP; its reserved bits are those of bytes 1 to 3 and 28 to 31. -/
def loopFields (bs : List Byte) : LoopOp :=
  { count := leAt bs 4 2, body := leAt bs 6 2, sstride := toSigned 64 (leAt bs 8 8), dstride := toSigned 64 (leAt bs 16 8),
    vstride := toSigned 32 (leAt bs 24 4), reserved := leAt bs 1 3 * 2 ^ 32 + leAt bs 28 4 }

/-- The fields of a WAIT or SIGNAL. -/
def tallyFields (bs : List Byte) : TallyOp :=
  let f := leAt bs 1 3
  { vrel := bitOf f 0, tally := leAt bs 4 4, value := leAt bs 8 4, reserved := f / 2 * 2 ^ 160 + leAt bs 12 20 }

/-- The instruction that 32 bytes of a porter program spell on a channel; an operation code, or a CODE of a MOVE, that is not listed
spells none. -/
def porterInstr (ch : Fin 512) (bs : List Byte) : Option Instr :=
  match leAt bs 0 1, leAt bs 3 1 with
  | 1, 0 => some (.copy ch ⟨moveFields bs, true⟩)
  | 1, 1 => some (.xcEncode ch ⟨moveFields bs, true⟩)
  | 1, 2 => some (.xcCheck ch ⟨moveFields bs, true⟩)
  | 1, 3 => some (.xcDecode ch ⟨moveFields bs, true⟩)
  | 1, 4 => some (.zero ch ⟨moveFields bs, true⟩)
  | 2, _ => some (.loop ch ⟨loopFields bs, true⟩)
  | 3, _ => some (.wait ch ⟨tallyFields bs, true⟩)
  | 4, _ => some (.signal ch ⟨tallyFields bs, true⟩)
  | 5, _ => some (.porterStop ch ⟨Fin.ofNat 65536 (leAt bs 4 2), true⟩ (leAt bs 1 3 * 2 ^ 208 + leAt bs 6 26))
  | _, _ => none

end Sys2Proof
end

