-- ==== Sys2Proof/Machine/Aes.lean ====
section
/-! DEFINITION. AES-256 (FIPS 197), GCM (NIST SP 800-38D) and AES Key Wrap (NIST SP 800-38F), which R348,
R357 and R368 name. A block is a number of 128 bits whose top byte is the block's first byte. -/

namespace Sys2Proof.Machine

/-- Cut a list into pieces of `n`; `fuel` bounds their number. -/
def piecesOf (n : Nat) : Nat → List Byte → List (List Byte)
  | 0, _ => []
  | fuel + 1, bs => if bs.isEmpty then [] else bs.take n :: piecesOf n fuel (bs.drop n)

/-- Byte-wise exclusive or. -/
def xorBytes (a b : List Byte) : List Byte := List.zipWith (· ^^^ ·) a b

/-- A table of 256 bytes as one number, of its rows of 16 bytes each; an entry stands at eight times its index. -/
def byteTable (rows : List Nat) : Nat := rows.foldr (fun r a => r + a * 2 ^ 128) 0

/-- The substitution table. -/
def aesSbox : Nat := byteTable
  [0x76abd7fe2b670130c56f6bf27b777c63, 0xc072a49cafa2d4adf04759fa7dc982ca,
   0x1531d871f1e5a534ccf73f362693fdb7, 0x75b227ebe28012079a059618c323c704,
   0x842fe329b3d63b52a05a6e1b1a2c8309, 0xcf584c4a39becb6a5bb1fc20ed00d153,
   0xa89f3c507f02f94585334d43fbaaefd0, 0xd2f3ff1021dab6bcf5389d928f40a351,
   0x73195d643d7ea7c41744975fec130ccd, 0xdb0b5ede14b8ee4688902a22dc4f8160,
   0x79e4959162acd3c25c2406490a3a32e0, 0x08ae7a65eaf4566ca94ed58d6d37c8e7,
   0x8a8bbd4b1f74dde8c6b4a61c2e2578ba, 0x9e1dc186b95735610ef6034866b53e70,
   0xdf2855cee9871e9b948ed9691198f8e1, 0x16bb54b00f2d99416842e6bf0d89a18c]

/-- Its inverse. -/
def aesInvSbox : Nat := byteTable
  [0xfbd7f3819ea340bf38a53630d56a0952, 0xcbe9dec444438e3487ff2f9b8239e37c,
   0x4ec3fa420b954cee3d23c2a632947b54, 0x25d18b6d49a25b76b224d92866a12e08,
   0x92b6655dcc5ca4d41698688664f6f872, 0x849d8da75746155edab9edfd5048706c,
   0x0645b3b80558e4f70ad3bc8c00abd890, 0x6b8a130103bdafc1020f3fca8f1e2cd0,
   0x73e6b4f0cecff297eadc674f4111913a, 0x6edf751ce837f9e28535ade72274ac96,
   0x1bbe18aa0e62b76f89c5291d711af147, 0xf45acd78fec0db9a2079d2c64b3e56fc,
   0x5fec8027591012b131c7078833a8dd1f, 0xef9cc9939f7ae52d0d4ab519a97f5160,
   0x619953833cbbebc8b0f52aae4d3be0a0, 0x7d0c2155631469e126d677ba7e042b17]

/-- One byte substituted. -/
def subByte (table b : Nat) : Nat := table / 2 ^ (8 * b) % 256

/-- Byte `i` of a block. -/
def blockByte (x i : Nat) : Nat := x / 2 ^ (120 - 8 * i) % 256

/-- SubBytes and ShiftRows: byte `i` of the result is the substituted byte `place i`. -/
def subShift (table : Nat) (place : Nat → Nat) (x : Nat) : Nat :=
  (List.range 16).foldl (fun a i => a * 256 + subByte table (blockByte x (place i))) 0

/-- ShiftRows: byte r + 4c comes from column c + r; its inverse from column c − r. -/
def rowPlace (i : Nat) : Nat := (i + 4 * (i % 4)) % 16
def rowPlaceInv (i : Nat) : Nat := (i + 12 * (i % 4)) % 16

/-- Every byte of a block times x in the field of AES. -/
def xtimes (x : Nat) : Nat :=
  Nat.xor (Nat.land x 0x7f7f7f7f7f7f7f7f7f7f7f7f7f7f7f7f * 2) (Nat.land (x / 128) 0x01010101010101010101010101010101 * 0x1b)

/-- Every column turned up by one byte. -/
def turnCols (x : Nat) : Nat :=
  Nat.land x 0x00ffffff00ffffff00ffffff00ffffff * 256 + Nat.land (x / 2 ^ 24) 0x000000ff000000ff000000ff000000ff

/-- MixColumns: a byte is 2 and 3 times itself and the next, and the two after. -/
def mixColumns (x : Nat) : Nat :=
  let y := turnCols x
  Nat.xor (Nat.xor (xtimes (Nat.xor x y)) y) (Nat.xor (turnCols y) (turnCols (turnCols y)))

/-- Its inverse, whose coefficients 14, 11, 13 and 9 are those of MixColumns after 5, 0, 4 and 0. -/
def invMixColumns (x : Nat) : Nat := mixColumns (Nat.xor x (xtimes (xtimes (Nat.xor x (turnCols (turnCols x))))))

/-! ### The key schedule -/

/-- The four bytes of a word substituted. -/
def subWord (w : Nat) : Nat := (List.range 4).foldl (fun a i => a * 256 + subByte aesSbox (w / 2 ^ (24 - 8 * i) % 256)) 0

/-- Extend a key schedule held newest word first: each word is the eighth last with the last, which each eighth time is turned, substituted and
joined with the round constant, and each time between substituted. -/
def expandWords : Nat → Nat → Nat → List Nat → List Nat
  | 0, _, _, ws => ws
  | n + 1, i, rcon, ws =>
    let prev := ws.headD 0
    let x :=
      if i % 8 = 0 then Nat.xor (subWord (prev % 2 ^ 24 * 256 + prev / 2 ^ 24)) (rcon * 2 ^ 24)
      else if i % 8 = 4 then subWord prev
      else prev
    expandWords n (i + 1) (if i % 8 = 0 then xtimes rcon else rcon) (Nat.xor x (ws.getD 7 0) :: ws)

/-- Words joined four at a time. -/
def joinWords : List Nat → List Nat
  | a :: b :: c :: d :: r => (((a * 2 ^ 32 + b) * 2 ^ 32 + c) * 2 ^ 32 + d) :: joinWords r
  | _ => []

/-- The fifteen round keys of a 32-byte key. -/
def roundKeys (key : List Byte) : List Nat :=
  joinWords (expandWords 52 8 1 ((piecesOf 4 8 key).map natOfBE).reverse).reverse

/-! ### The cipher -/

/-- The rounds after the first key; the last one mixes no columns. -/
def aesRounds : List Nat → Nat → Nat
  | [], x => x
  | [k], x => Nat.xor (subShift aesSbox rowPlace x) k
  | k :: l :: ks, x => aesRounds (l :: ks) (Nat.xor (mixColumns (subShift aesSbox rowPlace x)) k)

/-- One block enciphered. -/
def aesBlock (ks : List Nat) (x : Nat) : Nat :=
  match ks with
  | [] => x
  | k :: r => aesRounds r (Nat.xor x k)

/-- The rounds of the inverse cipher, round keys last first. -/
def aesInvRounds : List Nat → Nat → Nat
  | [], x => x
  | [k], x => Nat.xor (subShift aesInvSbox rowPlaceInv x) k
  | k :: l :: ks, x => aesInvRounds (l :: ks) (invMixColumns (Nat.xor (subShift aesInvSbox rowPlaceInv x) k))

/-- One block deciphered. -/
def aesInvBlock (ks : List Nat) (x : Nat) : Nat :=
  match ks.reverse with
  | [] => x
  | k :: r => aesInvRounds r (Nat.xor x k)

/-! ### GCM -/

/-- The product in the field of GHASH: bit 127 of the number is the first bit of the block. -/
def ghashMul (x : Nat) : Nat → Nat → Nat → Nat
  | 0, _, z => z
  | n + 1, v, z =>
    let z' := if x / 2 ^ n % 2 = 1 then z ^^^ v else z
    let v' := if v % 2 = 1 then (v / 2) ^^^ (0xE1 * 2 ^ 120) else v / 2
    ghashMul x n v' z'

/-- GHASH over whole blocks. -/
def ghash (h : Nat) (blocks : List Nat) : Nat :=
  blocks.foldl (fun y b => ghashMul (y ^^^ b) 128 h 0) 0

/-- Bytes padded with zeros to whole 16-byte blocks, as numbers. -/
def ghashBlocks (bs : List Byte) : List Nat :=
  (piecesOf 16 (bs.length + 1) bs).map fun p => natOfBE (p ++ List.replicate (16 - p.length) 0#8)

/-- The key stream from a counter block on: `n` blocks under counters 1 above `c` and up. -/
def ctrStream (ks : List Nat) (iv : List Byte) : Nat → Nat → List Byte
  | 0, _ => []
  | n + 1, c => bytesBE 16 (aesBlock ks (natOfBE (iv ++ bytesBE 4 (c + 1)))) ++ ctrStream ks iv n (c + 1)

/-- The text under the key stream of a 96-bit IV. -/
def gcmCrypt (key iv text : List Byte) : List Byte :=
  xorBytes text (ctrStream (roundKeys key) iv ((text.length + 15) / 16) 1)

/-- The tag over AAD and ciphertext. -/
def gcmTag (key iv aad cipher : List Byte) : List Byte :=
  let ks := roundKeys key
  let h := aesBlock ks 0
  let lens := 8 * aad.length * 2 ^ 64 + 8 * cipher.length
  let s := ghash h (ghashBlocks aad ++ ghashBlocks cipher ++ [lens])
  bytesBE 16 (Nat.xor s (aesBlock ks (natOfBE (iv ++ bytesBE 4 1))))

/-! ### AES Key Wrap -/

/-- The steps of the unwrapping, the step number counting down: the check register and the semiblocks in
order. -/
def unwrapSteps (ks : List Nat) (n : Nat) : Nat → Nat → List Nat → Nat × List Nat
  | 0, a, rs => (a, rs)
  | t + 1, a, rs =>
    let i := t % n
    let b := aesInvBlock ks (Nat.xor a (t + 1) * 2 ^ 64 + rs.getD i 0)
    unwrapSteps ks n t (b / 2 ^ 64) (rs.set i (b % 2 ^ 64))

/-- Unwrap: the plaintext, or nothing when the integrity check fails. -/
def aesUnwrap (key wrapped : List Byte) : Option (List Byte) :=
  match (piecesOf 8 (wrapped.length + 1) wrapped).map natOfBE with
  | [] => none
  | a :: rs =>
    let (c, ps) := unwrapSteps (roundKeys key) rs.length (6 * rs.length) a rs
    if c = 0xA6A6A6A6A6A6A6A6 then some (ps.flatMap (bytesBE 8)) else none

end Sys2Proof.Machine
end

