-- ==== Sys2Proof/Config.lean ====
section
/-! DEFINITION. What one module fixes and the free values: constants without a body, so that no
proof can rest on a value the spec leaves open. -/

namespace Sys2Proof.Config

/-- A value the spec leaves undefined or does not state, by a label of the place that reads it and a
fresh number each time (`State.freeCtr`). Log entry 2. -/
opaque freeValue : Nat → Nat → Nat

/-- Which processor raises an event (Table 2.12, SOURCE): the spec lists the codes and does not say
which raises which event. Log entry 12. -/
opaque evSource : Nat → Nat

/-- The object an event record names (Table 2.12, INDEX and SUB), by code and argument: the spec says
only "object concerned, or 0x0000". Log entry 12. -/
opaque evObject : Nat → Nat → Nat × Nat

/-- Whether an index and subindex of 0x8000–0x87FF is one of the event-log objects of R71; the spec
names their area and not their indices. Log entry 13. -/
opaque isEventLogObj : Nat → Nat → Bool

/-- The comparison that VC[2:0] of VCMP names (Table 5.6 gives no codes): by the code, the relation of
the two values (0 below, 1 equal, 2 above, 3 unordered) and whether one is a signalling NaN, the result and
whether invalid is raised. Log entry 29. -/
opaque vcmpRel : Nat → Nat → Bool → Bool × Bool

/-- The FP32 dot product of two columns in the lane and tree order of the vendor library program OS_ORTHO
(R122), which the spec names and does not give. Log entry 41. -/
opaque orthoDot : List Nat → List Nat → Nat

/-- The device secret the random bit generator drew, by draw (R497): 32 bytes no rule gives. Log entry 55. -/
opaque deviceSecret : Nat → List Byte

/-- The LINEAR11 word a PMBus answer carries, by command and reading in thousandths (Table 17.10): several words stand for one
value, and the spec names neither the exponent nor the rounding. Log entry 73. -/
opaque linear11 : Nat → Int → Nat

/-- The interface identifier SLAAC forms of a MAC address (R470 names no method). Log entry 74. -/
opaque interfaceId : Nat → Nat

/-- Whether a certificate chain certifies a public key under the vendor's root (R501). Log entry 75. -/
opaque certifies : List Byte → List Byte → Bool

/-- What an event-log object of R71 reads as, by index, subindex and count: the spec lays these objects out nowhere. Log entry 13. -/
opaque eventLogValue : Nat → Nat → Nat → List Byte

/-- What a read of host memory by DMA brings, by count, address and length; none where it fails. Log entry 82. -/
opaque hostImage : Nat → Nat → Nat → Option (List Byte)

/-- The HBM stack an HBM address lies in, which the spec gives nowhere (Table 20.10 needs it). Log entry 172. -/
opaque hbmStack : Nat → Nat

/-- The place of the shard window in BAR0 of the physical function, by offset: whether a write there fills the momentum or the anchor, and
the byte of the window it writes. R137 lets host software write the window through the host interface and says nowhere where it lies. Log
entry 146. -/
opaque hostWindow : Nat → Option (Bool × Nat)

end Sys2Proof.Config
end

