-- ==== Sys2Proof/Machine/ObjTable.lean ====
section
/-! DEFINITION. The object directory (R33 to R38, R44, R73): one row per object of the spec's object
tables, the key of each object by its name, and the severity of each event. -/

namespace Sys2Proof.Machine

/-- The value types of Table 2.2. -/
inductive ObjType where
  | u8 | u16 | u32 | u64 | i32 | i64 | f32 | bool | str | blob | time80
  deriving DecidableEq, Repr

/-- The access codes of Table 2.3. -/
inductive Access where
  | ro | rw | wo | rws | rwk | w1c
  deriving DecidableEq, Repr

/-- One row of the object tables: the indices and subindices it spans, its name, type, access code, defaults (in index and subindex order,
the last one repeated), the value intervals it states (none: every value of its type), its commit group (0x21 standing for 0x21 + c at the
carriers), its persist and tenant-visible flags and the feature bit that gates it. -/
structure ObjDesc where
  idxLo : Nat
  idxHi : Nat
  subLo : Nat
  subHi : Nat
  name : String
  ty : ObjType
  acc : Access
  dflt : List Nat
  ranges : List (Int × Int)
  group : Nat
  persist : Bool
  tvis : Bool
  feature : Option Nat
  deriving DecidableEq, Repr

/-- The type code of Table 2.2. -/
def ObjType.code : ObjType → Nat
  | .u8 => 1 | .u16 => 2 | .u32 => 3 | .u64 => 4 | .i32 => 5 | .i64 => 6 | .f32 => 7 | .bool => 8
  | .str => 9 | .blob => 10 | .time80 => 11

/-- The size in bytes of a value of a fixed-size type (Table 2.2); `none` for STR and BLOB. -/
def ObjType.size : ObjType → Option Nat
  | .u8 | .bool => some 1 | .u16 => some 2 | .u32 | .i32 | .f32 => some 4 | .u64 | .i64 => some 8
  | .time80 => some 10 | .str | .blob => none

/-- The access code value of Table 2.3. -/
def Access.code : Access → Nat
  | .ro => 1 | .rw => 2 | .wo => 3 | .rws => 4 | .rwk => 5 | .w1c => 6

def objTable0 : List ObjDesc := [
  ⟨0x1000, 0x1000, 0x1, 0x1, "VENDOR_ID", .u16, .ro, [20044], [], 0x0, false, false, none⟩,
  ⟨0x1000, 0x1000, 0x2, 0x2, "DEVICE_ID", .u16, .ro, [29696], [], 0x0, false, false, none⟩,
  ⟨0x1000, 0x1000, 0x3, 0x3, "STEPPING", .u8, .ro, [161], [], 0x0, false, false, none⟩,
  ⟨0x1000, 0x1000, 0x4, 0x4, "SERIAL", .str, .ro, [], [], 0x0, false, false, none⟩,
  ⟨0x1000, 0x1000, 0x5, 0x5, "DICT_VERSION", .u16, .ro, [256], [], 0x0, false, false, none⟩,
  ⟨0x1000, 0x1000, 0x6, 0x6, "KL_PRESENT", .u32, .ro, [1023], [], 0x0, false, false, none⟩,
  ⟨0x1010, 0x1010, 0x1, 0x2, "FEAT_DEVICE", .u64, .ro, [131071, 0], [], 0x0, false, false, none⟩,
  ⟨0x1011, 0x1011, 0x1, 0x2, "FEAT_DRIVER", .u64, .rws, [0], [], 0x0, false, false, none⟩,
  ⟨0x1012, 0x1012, 0x1, 0x2, "FEAT_ACTIVE", .u64, .ro, [0], [], 0x0, false, false, none⟩,
  ⟨0x1020, 0x1020, 0x1, 0x1, "BG_PLACE", .u8, .ro, [0], [], 0x0, false, false, none⟩,
  ⟨0x1020, 0x1020, 0x2, 0x2, "BG_GROUP_ID", .u16, .rws, [0], [], 0x1, true, false, none⟩,
  ⟨0x1020, 0x1020, 0x3, 0x3, "SITE_ID", .u8, .rws, [0], [(0, 31)], 0x1, true, false, none⟩,
  ⟨0x1020, 0x1020, 0x4, 0x4, "BG_MEMBER_MASK", .u16, .rws, [511], [], 0x1, true, false, none⟩,
  ⟨0x1020, 0x1020, 0x5, 0x5, "BL_PEER_FAULT", .u16, .ro, [0], [], 0x0, false, false, none⟩,
  ⟨0x1030, 0x1030, 0x1, 0x1, "DEV_STATE", .u8, .ro, [0], [], 0x0, false, false, none⟩,
  ⟨0x1030, 0x1030, 0x2, 0x2, "DEV_FLAGS", .u8, .ro, [0], [], 0x0, false, false, none⟩,
  ⟨0x1030, 0x1030, 0x3, 0x3, "DEV_CMD", .u8, .wo, [0], [], 0x0, false, false, none⟩,
  ⟨0x1030, 0x1030, 0x4, 0x4, "DEV_LAST_CAUSE", .u8, .ro, [0], [], 0x0, false, false, none⟩,
  ⟨0x1030, 0x1030, 0x5, 0x5, "BOOT_SOURCE", .u8, .ro, [0], [], 0x0, false, false, none⟩,
  ⟨0x1030, 0x1030, 0x6, 0x6, "INIT_PROGRESS", .u16, .ro, [0], [], 0x0, false, false, none⟩,
  ⟨0x1030, 0x1030, 0x7, 0x7, "BOOT_COUNT", .u32, .ro, [0], [], 0x0, false, false, none⟩,
  ⟨0x1031, 0x1031, 0x1, 0x1, "INIT_OPTICS_MS", .u16, .rw, [5000], [(500, 60000)], 0x0, true, false, none⟩,
  ⟨0x1031, 0x1031, 0x2, 0x2, "INIT_TIME_WAIT_S", .u16, .rw, [60], [(0, 3600)], 0x0, true, false, none⟩,
  ⟨0x1040, 0x1040, 0x1, 0x1, "ROP_UDP_PORT", .u16, .rws, [4797], [], 0x0, true, false, none⟩,
  ⟨0x1040, 0x1040, 0x2, 0x2, "ROP_IDLE_S", .u16, .rw, [60], [(10, 3600)], 0x0, false, false, none⟩,
  ⟨0x1040, 0x1040, 0x3, 0x3, "CG_LEASE_MS", .u32, .rw, [10000], [(100, 600000)], 0x0, false, false, none⟩,
  ⟨0x1040, 0x1040, 0x4, 0x4, "SESSIONS", .u16, .ro, [0], [], 0x0, false, false, none⟩,
  ⟨0x1040, 0x1040, 0x5, 0x5, "NOTIFY_LOST", .u32, .ro, [0], [], 0x0, false, false, none⟩,
  ⟨0x1040, 0x1040, 0x6, 0x6, "UNLOCK_TIMEOUT_S", .u16, .rwk, [300], [(10, 3600)], 0x0, false, false, none⟩,
  ⟨0x1050, 0x1050, 0x1, 0xfe, "CG_STATUS", .u32, .ro, [0], [], 0x0, false, false, none⟩,
  ⟨0x1051, 0x1051, 0x1, 0xfe, "CG_DETAIL", .u64, .ro, [65280], [], 0x0, false, false, none⟩,
  ⟨0x1060, 0x1060, 0x1, 0x1, "CFG_SAVE", .u32, .wo, [0], [], 0x0, false, false, none⟩,
  ⟨0x1060, 0x1060, 0x2, 0x2, "CFG_STATE", .u8, .ro, [0], [], 0x0, false, false, none⟩,
  ⟨0x1060, 0x1060, 0x3, 0x3, "CFG_SAVE_COUNT", .u32, .ro, [0], [], 0x0, false, false, none⟩,
  ⟨0x1070, 0x1070, 0x1, 0x1, "DIRECTORY", .blob, .ro, [], [], 0x0, false, false, none⟩,
  ⟨0x1100, 0x1100, 0x1, 0x1, "DL_ADDR", .u64, .rw, [0], [], 0x0, false, false, none⟩,
  ⟨0x1100, 0x1100, 0x2, 0x2, "DL_LEN", .u32, .rw, [0], [(321, 16777536)], 0x0, false, false, none⟩,
  ⟨0x1100, 0x1100, 0x3, 0x3, "DL_CMD", .u8, .wo, [0], [], 0x0, false, false, none⟩,
  ⟨0x1100, 0x1100, 0x4, 0x4, "DL_STATUS", .u32, .ro, [0], [], 0x0, false, false, none⟩,
  ⟨0x1100, 0x1100, 0x5, 0x5, "DL_KINDS", .u16, .ro, [0], [], 0x0, false, false, none⟩]

def objTable1 : List ObjDesc := [
  ⟨0x1101, 0x1101, 0x1, 0x7, "FW_VERSION", .u32, .ro, [0], [], 0x0, false, false, none⟩,
  ⟨0x1102, 0x1102, 0x1, 0x7, "FW_SVN", .u8, .ro, [0], [], 0x0, false, false, none⟩,
  ⟨0x1103, 0x1103, 0x1, 0x1, "FW_STAGED", .u64, .ro, [0], [], 0x0, false, false, none⟩,
  ⟨0x1103, 0x1103, 0x2, 0x2, "FW_ACT_HOLD_MS", .u16, .rw, [1000], [(10, 60000)], 0x0, false, false, none⟩,
  ⟨0x1103, 0x1103, 0x3, 0x3, "FW_ACT_WAIT_S", .u16, .rw, [600], [(1, 86400)], 0x0, false, false, none⟩,
  ⟨0x1110, 0x1110, 0x1, 0x8, "PROC_STATE", .u8, .ro, [0], [], 0x0, false, false, none⟩,
  ⟨0x1111, 0x1111, 0x1, 0x8, "PROC_RESTARTS", .u32, .ro, [0], [], 0x0, false, false, none⟩,
  ⟨0x1112, 0x1112, 0x1, 0x8, "PROC_WDOG_MS", .u16, .rw, [100, 1000, 50, 50, 100, 100, 100, 100], [(10, 10000)], 0x0, false, false, none⟩,
  ⟨0x1113, 0x1113, 0x1, 0x1, "PROC_CMD", .u16, .wo, [0], [], 0x0, false, false, none⟩,
  ⟨0x2000, 0x2000, 0x1, 0x1, "MG_TARGET_CDB", .u16, .rw, [150], [(50, 500)], 0x0, false, false, none⟩,
  ⟨0x2000, 0x2000, 0x2, 0x2, "MG_PRED_GUARD_CDB", .u16, .rw, [50], [(0, 300)], 0x0, false, false, none⟩,
  ⟨0x2000, 0x2000, 0x3, 0x3, "MG_MEAS_MS", .u16, .rw, [100], [(10, 1000)], 0x0, false, false, none⟩,
  ⟨0x2000, 0x2000, 0x4, 0x4, "MG_ACQ_MS", .u16, .rw, [50], [(5, 1000)], 0x0, false, false, none⟩,
  ⟨0x2000, 0x2000, 0x5, 0x5, "MG_VERIFY_MS", .u16, .rw, [2], [(1, 100)], 0x0, false, false, none⟩,
  ⟨0x2000, 0x2000, 0x6, 0x6, "MG_DOWN_CDB", .u16, .rw, [50], [], 0x0, false, false, none⟩,
  ⟨0x2000, 0x2000, 0x7, 0x7, "MG_DOWN_S", .u16, .rw, [60], [(1, 3600)], 0x0, false, false, none⟩,
  ⟨0x2000, 0x2000, 0x8, 0x8, "MG_RETRY_S", .u16, .rw, [10], [(1, 3600)], 0x0, false, false, none⟩,
  ⟨0x2000, 0x2000, 0x9, 0x9, "DRAIN_WAIT_MS", .u16, .rw, [20], [(1, 1000)], 0x0, false, false, none⟩,
  ⟨0x2010, 0x2017, 0x1, 0x1, "CAR_ENABLE", .bool, .rw, [0], [], 0x21, true, false, none⟩,
  ⟨0x2010, 0x2017, 0x2, 0x2, "CAR_FREQ_N", .i32, .rw, [4294967156, 4294967196, 4294967236, 4294967276, 20, 60, 100, 140], [], 0x21, true, false, none⟩,
  ⟨0x2010, 0x2017, 0x3, 0x3, "CAR_SLOT_M", .u8, .rw, [20], [(6, 6), (8, 8), (12, 12), (20, 20)], 0x21, true, false, none⟩,
  ⟨0x2010, 0x2017, 0x4, 0x4, "CAR_MODES", .u8, .rw, [28], [], 0x21, true, false, none⟩,
  ⟨0x2010, 0x2017, 0x5, 0x5, "CAR_TX_CDBM", .i32, .rw, [4294967096], [(-1000, 0)], 0x21, true, false, none⟩,
  ⟨0x2018, 0x2018, 0x1, 0x1, "CAR_CMD", .u16, .wo, [0], [], 0x0, false, false, none⟩,
  ⟨0x2020, 0x2020, 0x1, 0x4, "LP_FAR_ID", .u32, .ro, [0], [], 0x0, false, false, none⟩,
  ⟨0x2030, 0x2030, 0x1, 0x8, "CAR_STATUS", .u64, .ro, [0], [], 0x0, false, false, none⟩,
  ⟨0x2031, 0x2031, 0x1, 0x8, "CAR_QMARGIN_CDB", .i32, .ro, [0], [], 0x0, false, false, none⟩,
  ⟨0x2031, 0x2031, 0x9, 0x10, "CAR_SNR_CDB", .i32, .ro, [0], [], 0x0, false, false, none⟩,
  ⟨0x2032, 0x2032, 0x1, 0x8, "CAR_DRAINS", .u32, .ro, [0], [], 0x0, false, false, none⟩,
  ⟨0x2032, 0x2032, 0x9, 0x10, "CAR_WRONG_ORDER", .u32, .ro, [0], [], 0x0, false, false, none⟩,
  ⟨0x2040, 0x2040, 0x1, 0x1, "LASER_I2C_ADDR", .u8, .rws, [88], [(0, 127)], 0x0, false, false, none⟩,
  ⟨0x2040, 0x2040, 0x2, 0x2, "LASER_SPARE_STATE", .u8, .ro, [0], [], 0x0, false, false, none⟩,
  ⟨0x2040, 0x2040, 0x3, 0x3, "LASER_AUTO_SPARE", .bool, .rw, [1], [], 0x0, false, false, none⟩,
  ⟨0x2040, 0x2040, 0x4, 0x4, "LF_WINDOW_H", .u16, .rw, [72], [(12, 720)], 0x0, false, false, none⟩,
  ⟨0x2040, 0x2040, 0x5, 0x5, "LF_LEAD_H", .u16, .rw, [168], [(1, 2000)], 0x0, false, false, none⟩,
  ⟨0x2040, 0x2040, 0x6, 0x6, "LF_FLOOR_CDBM", .i32, .rw, [1250], [], 0x0, false, false, none⟩,
  ⟨0x2040, 0x2040, 0x7, 0x7, "LASER_IN_MIN_CDBM", .i32, .rw, [1200], [(1000, 1400)], 0x0, false, false, none⟩,
  ⟨0x2040, 0x2040, 0x8, 0x8, "SPARE_SETTLE_MS", .u16, .rw, [50], [(1, 1000)], 0x0, false, false, none⟩,
  ⟨0x2040, 0x2040, 0x9, 0x9, "LM_TUNE_MS", .u16, .rw, [100], [(100, 1000)], 0x0, false, false, none⟩,
  ⟨0x2040, 0x2040, 0xa, 0xa, "LOCKER_CAL_MIN", .u16, .rw, [60], [(1, 1440)], 0x0, false, false, none⟩]

def objTable2 : List ObjDesc := [
  ⟨0x2041, 0x2041, 0x1, 0xa, "LASER_STATUS", .u64, .ro, [0], [], 0x0, false, false, none⟩,
  ⟨0x2042, 0x2042, 0x1, 0x1, "LM_IDENT", .u32, .ro, [0], [], 0x0, false, false, none⟩,
  ⟨0x2042, 0x2042, 0x2, 0x2, "LM_I2C_ERRS", .u32, .ro, [0], [], 0x0, false, false, none⟩,
  ⟨0x2100, 0x2100, 0x1, 0x8, "FA_STATE", .u8, .ro, [0], [], 0x0, false, false, none⟩,
  ⟨0x2101, 0x2101, 0x1, 0x1, "FA_PRESYNC_N", .u8, .rw, [4], [(2, 8)], 0x0, false, false, none⟩,
  ⟨0x2101, 0x2101, 0x2, 0x2, "FA_LOSS_N", .u8, .rw, [7], [(3, 15)], 0x0, false, false, none⟩,
  ⟨0x2101, 0x2101, 0x3, 0x3, "SW_PERSIST", .u8, .rw, [3], [(1, 15)], 0x0, false, false, none⟩,
  ⟨0x2101, 0x2101, 0x4, 0x4, "RDI_PERSIST", .u8, .rw, [3], [(1, 15)], 0x0, false, false, none⟩,
  ⟨0x2101, 0x2101, 0x5, 0x5, "FECF_SET_N", .u8, .rw, [4], [(1, 8)], 0x0, false, false, none⟩,
  ⟨0x2101, 0x2101, 0x6, 0x6, "AUTH_SET_N", .u8, .rw, [4], [(1, 8)], 0x0, false, false, none⟩,
  ⟨0x2101, 0x2101, 0x7, 0x7, "DEG_BER_SET", .f32, .rw, [1015222895], [(925353388, 1017370378)], 0x0, false, false, none⟩,
  ⟨0x2101, 0x2101, 0x8, 0x8, "DEG_BER_CLR", .f32, .rw, [1011129254], [], 0x0, false, false, none⟩,
  ⟨0x2101, 0x2101, 0x9, 0x9, "DEG_SET_N", .u8, .rw, [3], [(1, 100)], 0x0, false, false, none⟩,
  ⟨0x2101, 0x2101, 0xa, 0xa, "DEG_CLR_N", .u8, .rw, [10], [(1, 100)], 0x0, false, false, none⟩,
  ⟨0x2101, 0x2101, 0xb, 0xb, "RX_LOS_DBM", .i32, .rw, [4294965096], [(-3500, -1000)], 0x0, false, false, none⟩,
  ⟨0x2110, 0x2110, 0x1, 0x8, "DEFECTS", .u16, .ro, [1028], [], 0x0, false, false, none⟩,
  ⟨0x2111, 0x2111, 0x1, 0x8, "DEFECT_LATCH", .u16, .w1c, [0], [], 0x0, false, false, none⟩,
  ⟨0x2112, 0x2112, 0x1, 0x4, "SW_TX", .u16, .ro, [0], [], 0x0, false, false, none⟩,
  ⟨0x2112, 0x2112, 0x5, 0xc, "SW_RX", .u16, .ro, [0], [], 0x0, false, false, none⟩,
  ⟨0x2112, 0x2112, 0xd, 0x10, "SW_PORT_RX", .u16, .ro, [0], [], 0x0, false, false, none⟩,
  ⟨0x2113, 0x2113, 0x1, 0x8, "RX_CARRIER_ID", .u8, .ro, [0], [], 0x0, false, false, none⟩,
  ⟨0x2114, 0x2114, 0x1, 0x8, "TX_FSEQ", .u64, .ro, [0], [], 0x0, false, false, none⟩,
  ⟨0x2120, 0x2120, 0x1, 0x8, "LEDGER_LAST", .blob, .ro, [], [], 0x0, false, false, none⟩,
  ⟨0x2121, 0x2121, 0x1, 0x8, "LEDGER_RING", .blob, .ro, [], [], 0x0, false, false, none⟩,
  ⟨0x2122, 0x2122, 0x1, 0x1, "LEDGER_TICK", .u64, .ro, [0], [], 0x0, false, false, none⟩,
  ⟨0x2200, 0x2200, 0x1, 0x8, "FEC_STATE", .u8, .ro, [0], [], 0x0, false, false, none⟩,
  ⟨0x2201, 0x2201, 0x1, 0x8, "FEC_PRE_BER", .f32, .ro, [0], [], 0x0, false, false, none⟩,
  ⟨0x2202, 0x2202, 0x1, 0x8, "FEC_UNCORR_CW", .u64, .ro, [0], [], 0x0, false, false, none⟩,
  ⟨0x2203, 0x2203, 0x1, 0x1, "FEC_MAX_ITER", .u8, .rw, [16], [(4, 24)], 0x0, false, false, none⟩,
  ⟨0x2210, 0x2210, 0x1, 0x1, "LR_REPEAT", .u8, .rw, [3], [(1, 8)], 0x0, false, false, none⟩,
  ⟨0x2210, 0x2210, 0x2, 0x2, "LR_SPACING_US", .u16, .rw, [4], [(1, 1000)], 0x0, false, false, none⟩,
  ⟨0x2211, 0x2211, 0x1, 0x4, "LR_SENT", .u64, .ro, [0], [], 0x0, false, false, none⟩,
  ⟨0x2211, 0x2211, 0x5, 0x8, "LR_RX", .u64, .ro, [0], [], 0x0, false, false, none⟩,
  ⟨0x2211, 0x2211, 0x9, 0xc, "LR_QUEUE_DROPS", .u64, .ro, [0], [], 0x0, false, false, none⟩,
  ⟨0x2300, 0x2300, 0x1, 0x1, "RS_HOLD_MARGIN_US", .u32, .rw, [500], [(100, 100000)], 0x0, false, false, none⟩,
  ⟨0x2300, 0x2300, 0x2, 0x2, "RS_RTT_DEFAULT_US", .u32, .rw, [10000], [(100, 40000)], 0x0, false, false, none⟩,
  ⟨0x2310, 0x2310, 0x1, 0x4, "RS_SHARE_BYTES", .u64, .ro, [0], [], 0x0, false, false, none⟩,
  ⟨0x2310, 0x2310, 0x5, 0x8, "RS_HOLD_US", .u32, .ro, [0], [], 0x0, false, false, none⟩,
  ⟨0x2310, 0x2310, 0x9, 0xc, "RS_USED_BYTES", .u64, .ro, [0], [], 0x0, false, false, none⟩,
  ⟨0x2311, 0x2311, 0x1, 0x4, "RS_RESENT_SEGS", .u64, .ro, [0], [], 0x0, false, false, none⟩]

def objTable3 : List ObjDesc := [
  ⟨0x2311, 0x2311, 0x5, 0x8, "RS_MISS", .u64, .ro, [0], [], 0x0, false, false, none⟩,
  ⟨0x2311, 0x2311, 0x9, 0xc, "RS_EVICT", .u64, .ro, [0], [], 0x0, false, false, none⟩,
  ⟨0x2311, 0x2311, 0xd, 0x10, "RS_NOT_OPEN", .u64, .ro, [0], [], 0x0, false, false, none⟩,
  ⟨0x2312, 0x2312, 0x1, 0x4, "RX_DUP_SEGS", .u64, .ro, [0], [], 0x0, false, false, none⟩,
  ⟨0x2312, 0x2312, 0x5, 0x8, "RX_DNT_REPLACED", .u64, .ro, [0], [], 0x0, false, false, none⟩,
  ⟨0x2800, 0x2800, 0x1, 0x1, "KEY_AUTO", .bool, .rw, [1], [], 0x0, false, false, none⟩,
  ⟨0x2800, 0x2800, 0x2, 0x2, "KEY_LIFE_S", .u32, .rw, [900], [(60, 86400)], 0x0, false, false, none⟩,
  ⟨0x2800, 0x2800, 0x3, 0x3, "KEY_FRAME_LIMIT", .u64, .rw, [4294967296], [(1048576, 68719476736)], 0x0, false, false, none⟩,
  ⟨0x2800, 0x2800, 0x4, 0x4, "KEY_OVERLAP_MS", .u16, .rw, [250], [(50, 10000)], 0x0, false, false, none⟩,
  ⟨0x2800, 0x2800, 0x5, 0x5, "KEY_ANN_RETRY_US", .u16, .rw, [100], [(10, 10000)], 0x0, false, false, none⟩,
  ⟨0x2800, 0x2800, 0x6, 0x6, "KEY_ANN_TIMEOUT_MS", .u16, .rw, [100], [(1, 60000)], 0x0, false, false, none⟩,
  ⟨0x2800, 0x2800, 0x7, 0x7, "KEY_LEAD_US", .u16, .rw, [20], [(1, 10000)], 0x0, false, false, none⟩,
  ⟨0x2810, 0x2810, 0x1, 0x1, "KEY_LOAD", .blob, .wo, [], [], 0x0, false, false, none⟩,
  ⟨0x2810, 0x2810, 0x2, 0x2, "KEY_CMD", .u16, .wo, [0], [], 0x0, false, false, none⟩,
  ⟨0x2820, 0x2820, 0x1, 0x4, "KEY_TX_STATE", .u64, .ro, [0], [], 0x0, false, false, none⟩,
  ⟨0x2820, 0x2820, 0x5, 0x8, "KEY_RX_STATE", .u64, .ro, [0], [], 0x0, false, false, none⟩,
  ⟨0x2821, 0x2821, 0x1, 0x4, "KEY_TX_FRAMES", .u64, .ro, [0], [], 0x0, false, false, none⟩,
  ⟨0x2821, 0x2821, 0x5, 0x8, "KEY_TX_NEXT_ID", .u32, .ro, [0], [], 0x0, false, false, none⟩,
  ⟨0x2821, 0x2821, 0x9, 0xc, "KEY_RX_NEXT_ID", .u32, .ro, [0], [], 0x0, false, false, none⟩,
  ⟨0x2822, 0x2822, 0x1, 0x4, "KEY_CHANGES", .u32, .ro, [0], [], 0x0, false, false, none⟩,
  ⟨0x2822, 0x2822, 0x5, 0x8, "KEY_NO_SLOT", .u64, .ro, [0], [], 0x0, false, false, none⟩,
  ⟨0x2824, 0x2824, 0x1, 0x8, "SPARE_KEY_MAP", .u16, .ro, [0], [], 0x0, false, false, none⟩,
  ⟨0x2830, 0x2830, 0x1, 0x1, "HC_JOBS", .u64, .ro, [0], [], 0x0, false, false, none⟩,
  ⟨0x2830, 0x2830, 0x2, 0x2, "HC_AUTH_FAIL", .u64, .ro, [0], [], 0x0, false, false, none⟩,
  ⟨0x2830, 0x2830, 0x3, 0x3, "HC_BLOCKS", .u64, .ro, [0], [], 0x0, false, false, none⟩,
  ⟨0x2c00, 0x2c00, 0x1, 0x1, "SCHED_BATCH", .blob, .rw, [], [], 0x2c, false, false, none⟩,
  ⟨0x2c00, 0x2c00, 0x2, 0x2, "SCHED_SAMPLE_US", .u16, .rw, [100], [(10, 10000)], 0x0, false, false, none⟩,
  ⟨0x2c00, 0x2c00, 0x3, 0x3, "CR_UPDATE_US", .u16, .rw, [20], [(5, 1000)], 0x0, false, false, none⟩,
  ⟨0x2c01, 0x2c01, 0x1, 0x8, "CLASS_ALARM_US", .u32, .rw, [0], [], 0x0, false, false, none⟩,
  ⟨0x2c08, 0x2c08, 0x1, 0x8, "QMAX_KIB", .u32, .rw, [16384], [(64, 1048576)], 0x0, false, false, none⟩,
  ⟨0x2c10, 0x2c10, 0x1, 0x4, "LP_CARRIERS", .u8, .rw, [15, 240, 0, 0], [], 0x2d, false, false, none⟩,
  ⟨0x2c10, 0x2c10, 0x5, 0x8, "LP_CAP_MBPS", .u32, .rw, [0], [], 0x2d, false, false, none⟩,
  ⟨0x2c10, 0x2c10, 0x9, 0xc, "LP_OVH", .u16, .rw, [80], [], 0x2d, false, false, none⟩,
  ⟨0x2c20, 0x2c20, 0x1, 0x4, "LP_ACTIVE", .u8, .ro, [0], [], 0x0, false, false, none⟩,
  ⟨0x2c20, 0x2c20, 0x5, 0x8, "LP_NET_MBPS", .u32, .ro, [0], [], 0x0, false, false, none⟩,
  ⟨0x2c20, 0x2c20, 0x9, 0xc, "LP_RESEND_CAP_MBPS", .u32, .ro, [0], [], 0x0, false, false, none⟩,
  ⟨0x2c20, 0x2c20, 0xd, 0x10, "LP_TRANSIT_DROPS", .u64, .ro, [0], [], 0x0, false, false, none⟩,
  ⟨0x2c20, 0x2c20, 0x11, 0x14, "LP_CLASS_DROPS", .u64, .ro, [0], [], 0x0, false, false, none⟩,
  ⟨0x2c30, 0x2c30, 0x1, 0x20, "CLASS_SHAPER", .u64, .ro, [42950746701826, 1073743874, 4294968369741826, 1073741826, 1073742338, 1073742082, 42950746701826, 1073741826, 42950746701826, 1073743874, 4294968369741826, 1073741826, 1073742338, 1073742082, 42950746701826, 1073741826, 42950746701826, 1073743874, 4294968369741826, 1073741826, 1073742338, 1073742082, 42950746701826, 1073741826, 42950746701826, 1073743874, 4294968369741826, 1073741826, 1073742338, 1073742082, 42950746701826, 1073741826], [], 0x0, false, false, none⟩,
  ⟨0x2c31, 0x2c31, 0x1, 0x4, "PORT_SHAPER", .u64, .ro, [1073741826], [], 0x0, false, false, none⟩]

def objTable4 : List ObjDesc := [
  ⟨0x2c40, 0x2c4f, 0x1, 0x80, "QUEUE_SHAPER", .u64, .ro, [1073742082], [], 0x0, false, false, none⟩,
  ⟨0x2c50, 0x2c5f, 0x1, 0x80, "QUEUE_STATUS", .u64, .ro, [0], [], 0x0, false, true, none⟩,
  ⟨0x2c60, 0x2c6f, 0x1, 0x80, "QUEUE_SOJ_MAX", .u32, .w1c, [0], [], 0x0, false, true, none⟩,
  ⟨0x2c70, 0x2c7f, 0x1, 0x80, "QUEUE_DROPS", .u64, .ro, [0], [], 0x0, false, true, none⟩,
  ⟨0x2c80, 0x2c81, 0x1, 0x80, "POLICER", .u64, .ro, [0], [], 0x0, false, false, none⟩,
  ⟨0x2c82, 0x2c83, 0x1, 0x80, "POL_DROPS", .u64, .ro, [0], [], 0x0, false, true, none⟩,
  ⟨0x2c90, 0x2c90, 0x1, 0x1, "CR_WINDOW_MIB", .u16, .rw, [1024], [(16, 4096)], 0x0, false, false, none⟩,
  ⟨0x2c90, 0x2c90, 0x2, 0x2, "CR_STALLS", .u64, .ro, [0], [], 0x0, false, false, none⟩,
  ⟨0x3000, 0x3000, 0x1, 0x8, "LF_OCTET_MODE", .u8, .rws, [0], [], 0x30, true, false, none⟩,
  ⟨0x3001, 0x3001, 0x1, 0x10, "LF_PORT_MAC", .u64, .rws, [0], [(0, 281474976710655)], 0x30, true, false, none⟩,
  ⟨0x3002, 0x3002, 0x1, 0x10, "LF_PORT_IPV4", .u64, .rws, [0], [], 0x30, true, false, none⟩,
  ⟨0x3003, 0x3003, 0x1, 0x10, "LF_PORT_IPV6", .blob, .rws, [], [], 0x30, true, false, none⟩,
  ⟨0x3004, 0x3004, 0x1, 0x10, "LF_FAILOVER", .u8, .rws, [255], [], 0x30, true, false, none⟩,
  ⟨0x3004, 0x3004, 0x11, 0x11, "LF_QPN_BASE", .u32, .rws, [256], [], 0x30, true, false, none⟩,
  ⟨0x3004, 0x3004, 0x12, 0x12, "LF_ETH_CLASS", .blob, .rws, [], [], 0x30, true, false, none⟩,
  ⟨0x3005, 0x3005, 0x1, 0x1, "LF_FAILBACK_MS", .u16, .rw, [1000], [(10, 60000)], 0x0, false, false, none⟩,
  ⟨0x3005, 0x3005, 0x2, 0x2, "LF_DATA_PRIO", .u8, .rws, [3], [(0, 7)], 0x0, false, false, none⟩,
  ⟨0x3005, 0x3005, 0x3, 0x3, "LF_CTRL_PRIO", .u8, .rws, [6], [(0, 7)], 0x0, false, false, none⟩,
  ⟨0x3005, 0x3005, 0x4, 0x4, "LF_DATA_DSCP", .u8, .rws, [26], [(0, 63)], 0x0, false, false, none⟩,
  ⟨0x3005, 0x3005, 0x5, 0x5, "LF_CTRL_DSCP", .u8, .rws, [48], [(0, 63)], 0x0, false, false, none⟩,
  ⟨0x3005, 0x3005, 0x6, 0x6, "LF_WIN_PORTS", .u16, .rws, [65535], [], 0x0, false, false, none⟩,
  ⟨0x3006, 0x3006, 0x1, 0x40, "LF_TENANT_EGRESS", .u8, .rw, [0], [(0, 15)], 0x0, false, false, none⟩,
  ⟨0x3010, 0x3010, 0x1, 0x10, "LF_PORT_STATUS", .u64, .ro, [0], [], 0x0, false, false, none⟩,
  ⟨0x3011, 0x3011, 0x1, 0x10, "LF_FEC_UNCORR_CW", .u64, .ro, [0], [], 0x0, false, false, none⟩,
  ⟨0x3012, 0x3012, 0x1, 0x1, "LF_ETH_DROPS", .u64, .ro, [0], [], 0x0, false, false, none⟩,
  ⟨0x3012, 0x3012, 0x2, 0x2, "LF_QP_USED", .u16, .ro, [0], [], 0x0, false, false, none⟩,
  ⟨0x3012, 0x3012, 0x3, 0x3, "LF_NAK_UNCONNECTED", .u64, .ro, [0], [], 0x0, false, false, none⟩,
  ⟨0x3050, 0x3050, 0x1, 0x8, "BL_STATUS", .u8, .ro, [0], [], 0x0, false, false, none⟩,
  ⟨0x3050, 0x3050, 0x9, 0x9, "BL_MSG_TX", .blob, .wo, [], [], 0x0, false, false, none⟩,
  ⟨0x3050, 0x3050, 0xa, 0xa, "BL_MSG_RX", .blob, .ro, [], [], 0x0, false, false, none⟩,
  ⟨0x3800, 0x3800, 0x1, 0x1, "HOST_LINK", .u16, .ro, [0], [], 0x0, false, false, none⟩,
  ⟨0x3800, 0x3800, 0x2, 0x2, "HOST_NUM_VFS", .u8, .ro, [0], [], 0x0, false, false, none⟩,
  ⟨0x3801, 0x3801, 0x1, 0x40, "HOST_VF_TENANT", .u8, .rws, [0, 1, 2, 3, 4, 5, 6, 7, 8, 9, 10, 11, 12, 13, 14, 15, 16, 17, 18, 19, 20, 21, 22, 23, 24, 25, 26, 27, 28, 29, 30, 31, 32, 33, 34, 35, 36, 37, 38, 39, 40, 41, 42, 43, 44, 45, 46, 47, 48, 49, 50, 51, 52, 53, 54, 55, 56, 57, 58, 59, 60, 61, 62, 63], [(0, 63)], 0x0, false, false, none⟩,
  ⟨0x3802, 0x3802, 0x1, 0x1, "HOST_RING_ERRS", .u64, .ro, [0], [], 0x0, false, false, none⟩,
  ⟨0x3810, 0x3810, 0x1, 0x1, "MGMT_MODE", .u8, .rws, [1], [(1, 2)], 0x0, true, false, none⟩,
  ⟨0x3810, 0x3810, 0x2, 0x2, "MGMT_MAC", .u64, .ro, [0], [], 0x0, false, false, none⟩,
  ⟨0x3810, 0x3810, 0x3, 0x3, "MGMT_IPV4", .u64, .rws, [0], [], 0x0, true, false, none⟩,
  ⟨0x3810, 0x3810, 0x4, 0x4, "MGMT_IPV6", .blob, .rws, [], [], 0x0, true, false, none⟩,
  ⟨0x3810, 0x3810, 0x5, 0x5, "MGMT_IP_FLAGS", .u8, .rws, [3], [], 0x0, true, false, none⟩,
  ⟨0x3820, 0x3820, 0x1, 0x1, "PMBUS_ADDR", .u8, .ro, [64], [], 0x0, false, false, none⟩]

def objTable5 : List ObjDesc := [
  ⟨0x4000, 0x4000, 0x1, 0x1, "COLL_UNEXP_BYTES", .u64, .ro, [0], [], 0x0, false, false, none⟩,
  ⟨0x4000, 0x4000, 0x2, 0x2, "COLL_UNEXP_PEAK", .u64, .w1c, [0], [], 0x0, false, false, none⟩,
  ⟨0x4000, 0x4000, 0x3, 0x3, "COLL_OPEN", .u16, .ro, [0], [], 0x0, false, false, none⟩,
  ⟨0x4000, 0x4000, 0x4, 0x4, "COLL_NO_GROUP_DROPS", .u64, .ro, [0], [], 0x0, false, false, none⟩,
  ⟨0x4010, 0x4010, 0x1, 0x1, "GD_TARGET", .u16, .rw, [0], [], 0x40, false, false, none⟩,
  ⟨0x4010, 0x4010, 0x2, 0x2, "GD_ACTION", .u8, .rw, [1], [(1, 3)], 0x40, false, false, none⟩,
  ⟨0x4010, 0x4010, 0x3, 0x3, "GD_TENANT", .u8, .rw, [0], [], 0x40, false, false, none⟩,
  ⟨0x4010, 0x4010, 0x4, 0x4, "GD_MEMBERS", .u32, .rw, [0], [], 0x40, false, false, none⟩,
  ⟨0x4010, 0x4010, 0x5, 0x5, "GD_RING", .blob, .rw, [], [], 0x40, false, false, none⟩,
  ⟨0x4010, 0x4010, 0x6, 0x6, "GD_RELAY", .blob, .rw, [], [], 0x40, false, false, none⟩,
  ⟨0x4010, 0x4010, 0x7, 0x7, "GD_CROSSOVER", .u32, .rw, [262144], [], 0x40, false, false, none⟩,
  ⟨0x4010, 0x4010, 0x8, 0x8, "GD_CHUNK", .u32, .rw, [1048576], [], 0x40, false, false, none⟩,
  ⟨0x4010, 0x4010, 0x9, 0x9, "GD_DIRS", .u8, .rw, [2], [], 0x40, false, false, none⟩,
  ⟨0x4010, 0x4010, 0xa, 0xa, "GD_UNEXP_QUOTA_MIB", .u16, .rw, [256], [(16, 4096)], 0x40, false, false, none⟩,
  ⟨0x4010, 0x4010, 0xb, 0xb, "GD_UNEXP_WAIT_MS", .u16, .rw, [10], [(1, 1000)], 0x40, false, false, none⟩,
  ⟨0x4010, 0x4010, 0xc, 0xc, "GD_TIMEOUT_MS", .u32, .rw, [2000], [(10, 600000)], 0x40, false, false, none⟩,
  ⟨0x4010, 0x4010, 0xd, 0xd, "GD_CHUNK_WAIT_MS", .u16, .rw, [20], [(1, 10000)], 0x40, false, false, none⟩,
  ⟨0x4020, 0x4020, 0x1, 0x1, "STALL_PAIR_A", .u64, .ro, [0], [], 0x0, false, false, none⟩,
  ⟨0x4020, 0x4020, 0x2, 0x2, "STALL_PAIR_B", .u64, .ro, [0], [], 0x0, false, false, none⟩,
  ⟨0x4400, 0x47ff, 0x1, 0x1, "GRP_STATE", .u8, .ro, [0], [], 0x0, false, false, none⟩,
  ⟨0x4400, 0x47ff, 0x2, 0x2, "GRP_EPOCH", .u16, .ro, [0], [], 0x0, false, false, none⟩,
  ⟨0x4400, 0x47ff, 0x3, 0x3, "GRP_MAX_SEQ", .u32, .ro, [0], [], 0x0, false, false, none⟩,
  ⟨0x4400, 0x47ff, 0x4, 0x4, "GRP_PRESENT", .u32, .ro, [0], [], 0x0, false, false, none⟩,
  ⟨0x4400, 0x47ff, 0x5, 0x5, "GRP_STALE_DROPS", .u64, .ro, [0], [], 0x0, false, false, none⟩,
  ⟨0x4400, 0x47ff, 0x6, 0x6, "GRP_LATE_DROPS", .u64, .ro, [0], [], 0x0, false, false, none⟩,
  ⟨0x4400, 0x47ff, 0x7, 0x7, "GRP_SEAL_FAILS", .u32, .ro, [0], [], 0x0, false, false, none⟩,
  ⟨0x4400, 0x47ff, 0x8, 0x8, "GRP_RELAY_DROPS", .u64, .ro, [0], [], 0x0, false, false, none⟩,
  ⟨0x4400, 0x47ff, 0x9, 0x9, "GRP_UNEXP_BYTES", .u64, .ro, [0], [], 0x0, false, false, none⟩,
  ⟨0x4400, 0x47ff, 0xa, 0xa, "GRP_DESC", .blob, .ro, [], [], 0x0, false, false, none⟩,
  ⟨0x4800, 0x4800, 0x1, 0x1, "OS_MODE", .u8, .rws, [0], [(0, 2)], 0x48, false, false, some 1⟩,
  ⟨0x4800, 0x4800, 0x2, 0x2, "OS_GROUP", .u16, .rws, [0], [], 0x48, false, false, some 1⟩,
  ⟨0x4800, 0x4800, 0x3, 0x3, "OS_TABLE", .blob, .rws, [], [], 0x48, false, false, some 1⟩,
  ⟨0x4800, 0x4800, 0x4, 0x4, "OS_SITE_FMT", .u8, .rws, [2], [(0, 0), (2, 2)], 0x0, false, false, some 1⟩,
  ⟨0x4800, 0x4800, 0x5, 0x5, "OS_SEED", .u32, .rws, [0], [], 0x48, false, false, some 1⟩,
  ⟨0x4800, 0x4800, 0x6, 0x6, "OS_ATTEMPT_LIMIT", .u8, .rws, [4], [(1, 4)], 0x48, false, false, some 1⟩,
  ⟨0x4800, 0x4800, 0x7, 0x7, "OS_RANGE_DIGEST", .u64, .ro, [0], [], 0x0, false, false, some 1⟩,
  ⟨0x4810, 0x4810, 0x1, 0x1, "OS_ETA", .f32, .rw, [1060320051], [], 0x49, false, false, some 1⟩,
  ⟨0x4810, 0x4810, 0x2, 0x2, "OS_BETA", .f32, .rw, [1063675494], [], 0x49, false, false, some 1⟩,
  ⟨0x4810, 0x4810, 0x3, 0x3, "OS_HP_FROM_STEP", .u32, .rw, [0], [], 0x49, false, false, some 1⟩,
  ⟨0x4820, 0x4820, 0x1, 0x1, "OS_COMMITTED_STEP", .u32, .ro, [0], [], 0x0, false, false, some 1⟩]

def objTable6 : List ObjDesc := [
  ⟨0x4820, 0x4820, 0x2, 0x2, "OS_STEP_STATE", .u8, .ro, [0], [], 0x0, false, false, some 1⟩,
  ⟨0x4820, 0x4820, 0x3, 0x3, "OS_CUR_STEP", .u32, .ro, [0], [], 0x0, false, false, some 1⟩,
  ⟨0x4820, 0x4820, 0x4, 0x4, "OS_ATTEMPT", .u8, .ro, [0], [], 0x0, false, false, some 1⟩,
  ⟨0x4820, 0x4820, 0x5, 0x5, "OS_LAST_OUTCOME", .u16, .ro, [0], [], 0x0, false, false, some 1⟩,
  ⟨0x4820, 0x4820, 0x6, 0x6, "OS_RETRIES", .u32, .ro, [0], [], 0x0, false, false, some 1⟩,
  ⟨0x4820, 0x4820, 0x7, 0x7, "OS_LOST_STEPS", .u32, .ro, [0], [], 0x0, false, false, some 1⟩,
  ⟨0x4820, 0x4820, 0x8, 0x8, "OS_ANCHOR_FP", .u64, .ro, [0], [], 0x0, false, false, some 1⟩,
  ⟨0x4820, 0x4820, 0x9, 0x9, "OS_MOMENTUM_FP", .u64, .ro, [0], [], 0x0, false, false, some 1⟩,
  ⟨0x4820, 0x4820, 0xa, 0xa, "OS_SWEEP_PENDING", .u32, .ro, [0], [], 0x0, false, false, some 1⟩,
  ⟨0x4820, 0x4820, 0xb, 0xb, "OS_REGION_BYTES", .u64, .ro, [0], [], 0x0, false, false, some 1⟩,
  ⟨0x4820, 0x4820, 0xc, 0xc, "OS_NEED_BYTES", .u64, .ro, [0], [], 0x0, false, false, some 1⟩,
  ⟨0x4820, 0x4820, 0xd, 0xd, "OS_REFILL_STATE", .u8, .ro, [0], [], 0x0, false, false, some 1⟩,
  ⟨0x4820, 0x4820, 0xe, 0xe, "OS_REFILL_PAGES", .u32, .ro, [0], [], 0x0, false, false, some 1⟩,
  ⟨0x4820, 0x4820, 0xf, 0xf, "OS_RESID_ZEROED", .u32, .ro, [0], [], 0x0, false, false, some 1⟩,
  ⟨0x4830, 0x4830, 0x1, 0x1, "OS_CMD", .u8, .wo, [0], [], 0x0, false, false, some 1⟩,
  ⟨0x4830, 0x4830, 0x2, 0x2, "OS_LOAD_STEP", .u32, .rw, [0], [], 0x0, false, false, some 1⟩,
  ⟨0x5000, 0x5000, 0x1, 0x1, "STALL_ROT_EN", .bool, .rws, [1], [], 0x0, false, false, some 15⟩,
  ⟨0x5000, 0x5000, 0x2, 0x2, "MIG_DRAIN_US", .u16, .rw, [100], [(10, 10000)], 0x0, false, false, none⟩,
  ⟨0x5000, 0x5000, 0x3, 0x3, "STALL_WATCHDOG_MS", .u16, .rw, [100], [(1, 60000)], 0x0, false, false, none⟩,
  ⟨0x5000, 0x5000, 0x4, 0x4, "STALLS_AVAILABLE", .u8, .ro, [0], [], 0x0, false, false, none⟩,
  ⟨0x5000, 0x5000, 0x5, 0x5, "STALLS_FENCED", .u8, .ro, [0], [], 0x0, false, false, none⟩,
  ⟨0x5000, 0x5000, 0x6, 0x6, "MIGRATIONS", .u64, .ro, [0], [], 0x0, false, false, none⟩,
  ⟨0x5000, 0x5000, 0x7, 0x7, "RESTARTS", .u32, .ro, [0], [], 0x0, false, false, none⟩,
  ⟨0x5000, 0x5000, 0x8, 0x8, "TALLY_STALE_OPS", .u64, .ro, [0], [], 0x0, false, false, none⟩,
  ⟨0x5000, 0x5000, 0x9, 0x9, "TALLY_FREE_OPS", .u64, .ro, [0], [], 0x0, false, false, none⟩,
  ⟨0x5000, 0x5000, 0xa, 0xa, "TALLY_FREE_COUNT", .u16, .ro, [31744], [], 0x0, false, false, none⟩,
  ⟨0x5000, 0x5000, 0xb, 0xb, "PLACEMENTS", .u16, .ro, [0], [], 0x0, false, false, none⟩,
  ⟨0x5010, 0x5010, 0x1, 0x10, "ROW_FREQ_MHZ", .u16, .rw, [1400], [], 0x0, false, false, none⟩,
  ⟨0x5010, 0x5010, 0x11, 0x20, "ROW_FREQ_ACT", .u16, .ro, [1400], [], 0x0, false, false, none⟩,
  ⟨0x5011, 0x5011, 0x1, 0x40, "TENANT_ROWS", .u16, .rw, [65535], [], 0x0, false, false, none⟩,
  ⟨0x5012, 0x5012, 0x1, 0x40, "TALLY_QUOTA", .u16, .rw, [496], [(0, 31744)], 0x0, false, false, none⟩,
  ⟨0x5020, 0x5020, 0x1, 0x80, "STALL_STATUS", .u64, .ro, [0], [], 0x0, false, false, none⟩,
  ⟨0x5021, 0x5021, 0x1, 0x80, "STALL_ECC_CE", .u32, .ro, [0], [], 0x0, false, false, none⟩,
  ⟨0x5022, 0x5022, 0x1, 0x80, "STALL_PORT_WAIT", .u64, .ro, [0], [], 0x0, false, false, none⟩,
  ⟨0x5023, 0x5023, 0x1, 0x80, "STALL_EXP_HOLD", .u64, .ro, [0], [], 0x0, false, false, none⟩,
  ⟨0x5024, 0x5024, 0x1, 0x80, "STALL_EXP_DAMAGE", .u64, .ro, [0], [], 0x0, false, false, none⟩,
  ⟨0x5030, 0x5030, 0x1, 0x80, "UNIT_HIST", .blob, .ro, [], [], 0x0, false, true, none⟩,
  ⟨0x5030, 0x5030, 0x81, 0x81, "HIST_BIN_OFFSET", .u8, .ro, [48], [], 0x0, false, false, none⟩,
  ⟨0x5040, 0x5040, 0x1, 0x1, "PROG_IMAGE", .blob, .wo, [], [], 0x0, false, false, some 11⟩,
  ⟨0x5040, 0x5040, 0x2, 0x2, "PROG_UNLOAD", .u32, .wo, [0], [], 0x0, false, false, some 11⟩]

def objTable7 : List ObjDesc := [
  ⟨0x5040, 0x5040, 0x3, 0x3, "PROG_COUNT", .u16, .ro, [0], [], 0x0, false, false, none⟩,
  ⟨0x5040, 0x5040, 0x4, 0x4, "PROG_LIST", .blob, .ro, [], [], 0x0, false, false, none⟩,
  ⟨0x5050, 0x5050, 0x1, 0x2, "XC_TABLE", .blob, .ro, [], [], 0x0, false, false, none⟩,
  ⟨0x5050, 0x5050, 0x3, 0x10, "XC_TABLE", .blob, .rws, [], [], 0x0, false, false, some 3⟩,
  ⟨0x5050, 0x5050, 0x11, 0x11, "XC_TABLE_DIGEST", .u64, .ro, [0], [], 0x0, false, false, none⟩,
  ⟨0x5051, 0x5051, 0x1, 0x1, "XC_ENC_BLOCKS", .u64, .ro, [0], [], 0x0, false, false, none⟩,
  ⟨0x5051, 0x5051, 0x2, 0x2, "XC_ENC_RAW", .u64, .ro, [0], [], 0x0, false, false, none⟩,
  ⟨0x5051, 0x5051, 0x3, 0x3, "XC_ENC_IN_BYTES", .u64, .ro, [0], [], 0x0, false, false, none⟩,
  ⟨0x5051, 0x5051, 0x4, 0x4, "XC_ENC_OUT_BYTES", .u64, .ro, [0], [], 0x0, false, false, none⟩,
  ⟨0x5051, 0x5051, 0x5, 0x5, "XC_DAMAGED", .u64, .ro, [0], [], 0x0, false, false, none⟩,
  ⟨0x5100, 0x51ff, 0x1, 0x80, "TALLY_STATUS", .u64, .ro, [0], [], 0x0, false, false, none⟩,
  ⟨0x5200, 0x5203, 0x1, 0x80, "PORTER_CH_CFG", .u32, .rw, [1048640], [], 0x0, false, false, none⟩,
  ⟨0x5210, 0x5213, 0x1, 0x80, "PORTER_CH_STATUS", .u64, .ro, [0], [], 0x0, false, false, none⟩,
  ⟨0x5220, 0x5220, 0x1, 0x1, "PORTER_HOST_CH", .u8, .rws, [128], [(0, 160)], 0x0, false, false, none⟩,
  ⟨0x5220, 0x5220, 0x2, 0x2, "PORTER_WAIT_MS", .u16, .rw, [1000], [(1, 60000)], 0x0, false, false, none⟩,
  ⟨0x5220, 0x5220, 0x3, 0x3, "PORTER_FAULTS", .u64, .ro, [0], [], 0x0, false, false, none⟩,
  ⟨0x5220, 0x5220, 0x4, 0x5, "PORTER_BYTES", .u64, .ro, [0], [], 0x0, false, false, none⟩,
  ⟨0x5220, 0x5220, 0x6, 0x7, "STAGE_PEAK", .u16, .ro, [0], [], 0x0, false, false, none⟩,
  ⟨0x5230, 0x5230, 0x1, 0x40, "PORTER_UNIT_RATE", .u8, .rw, [64], [(1, 64)], 0x0, false, false, none⟩,
  ⟨0x5800, 0x5800, 0x1, 0x1, "HBM_RESEND_GIB", .u8, .rws, [16], [(4, 48)], 0x58, false, false, none⟩,
  ⟨0x5800, 0x5800, 0x2, 0x2, "POOL_H16K_MIB", .u16, .rws, [1024], [], 0x58, false, false, none⟩,
  ⟨0x5800, 0x5800, 0x3, 0x3, "POOL_H64K_MIB", .u16, .rws, [2048], [], 0x58, false, false, none⟩,
  ⟨0x5800, 0x5800, 0x4, 0x4, "POOL_H1M_MIB", .u16, .rws, [5120], [], 0x58, false, false, none⟩,
  ⟨0x5800, 0x5800, 0x5, 0x5, "CRATE_STRICT", .bool, .rws, [0], [], 0x0, false, false, none⟩,
  ⟨0x5800, 0x5800, 0x6, 0x6, "ALLOC_WAIT_US", .u32, .rw, [1000], [(1, 1000000)], 0x0, false, false, none⟩,
  ⟨0x5800, 0x5800, 0x7, 0x7, "HBM_MAP", .blob, .ro, [], [], 0x0, false, false, none⟩,
  ⟨0x5810, 0x5810, 0x1, 0x6, "CRATE_POOL_STAT", .u64, .ro, [0], [], 0x0, false, false, none⟩,
  ⟨0x5812, 0x5812, 0x1, 0x6, "CRATE_ALLOC_FAIL", .u64, .ro, [0], [], 0x0, false, false, none⟩,
  ⟨0x5813, 0x5813, 0x1, 0x1, "CRATE_BAD_OPS", .u64, .ro, [0], [], 0x0, false, false, none⟩,
  ⟨0x5813, 0x5813, 0x2, 0x2, "CRATE_DNT_SET", .u64, .ro, [0], [], 0x0, false, false, none⟩,
  ⟨0x5813, 0x5813, 0x3, 0x3, "CRATE_POISON_SET", .u64, .ro, [0], [], 0x0, false, false, none⟩,
  ⟨0x5820, 0x5820, 0x1, 0x1, "CRATE_QUERY", .u32, .rw, [0], [], 0x0, false, false, none⟩,
  ⟨0x5820, 0x5820, 0x2, 0x2, "CRATE_META", .u64, .ro, [0], [], 0x0, false, false, none⟩,
  ⟨0x5880, 0x5880, 0x1, 0x1, "FIFO_COUNT", .u16, .ro, [0], [], 0x0, false, false, none⟩,
  ⟨0x5880, 0x5880, 0x2, 0x2, "FIFO_TABLE", .blob, .ro, [], [], 0x0, false, false, none⟩,
  ⟨0x5880, 0x5880, 0x3, 0x3, "FIFO_PARITY_ERRS", .u64, .ro, [0], [], 0x0, false, false, none⟩,
  ⟨0x5880, 0x5880, 0x4, 0x4, "FIFO_DROPS", .u64, .ro, [0], [], 0x0, false, false, none⟩,
  ⟨0x5890, 0x5890, 0x1, 0x8, "BL_RX_WM", .u16, .rw, [6152], [], 0x0, false, false, none⟩,
  ⟨0x5890, 0x5890, 0x9, 0x10, "BL_RX_OVERFLOW", .u32, .ro, [0], [], 0x0, false, false, none⟩,
  ⟨0x6000, 0x6000, 0x1, 0x1, "TIME_NOW", .time80, .ro, [0], [], 0x0, false, false, none⟩]

def objTable8 : List ObjDesc := [
  ⟨0x6000, 0x6000, 0x2, 0x2, "TIME_STATE", .u8, .ro, [0], [], 0x0, false, false, none⟩,
  ⟨0x6000, 0x6000, 0x3, 0x3, "TIME_SRC", .u8, .ro, [0], [], 0x0, false, false, none⟩,
  ⟨0x6000, 0x6000, 0x4, 0x4, "TIME_ERR_EST_NS", .u32, .ro, [4294967295], [], 0x0, false, false, none⟩,
  ⟨0x6000, 0x6000, 0x5, 0x5, "TIME_FLAGS", .u32, .ro, [0], [], 0x0, false, false, none⟩,
  ⟨0x6001, 0x6001, 0x1, 0x4, "TS_SRC_PRIO", .u8, .rw, [16, 48, 0, 0], [], 0x60, true, false, none⟩,
  ⟨0x6001, 0x6001, 0x5, 0x5, "TS_PPS_EN", .bool, .rw, [1], [], 0x60, true, false, none⟩,
  ⟨0x6001, 0x6001, 0x6, 0x6, "TS_10M_EN", .bool, .rw, [1], [], 0x60, true, false, none⟩,
  ⟨0x6001, 0x6001, 0x7, 0x7, "TS_LINE_UNCAL", .bool, .rw, [1], [], 0x60, true, false, none⟩,
  ⟨0x6002, 0x6002, 0x1, 0x1, "TS_SET", .time80, .wo, [0], [], 0x0, false, false, none⟩,
  ⟨0x6002, 0x6002, 0x2, 0x2, "TS_PPS_TOD", .u64, .rw, [0], [], 0x0, false, false, none⟩,
  ⟨0x6002, 0x6002, 0x3, 0x3, "TAI_UTC_S", .i32, .rw, [37], [], 0x0, true, false, none⟩,
  ⟨0x6003, 0x6003, 0x1, 0x1, "TS_STEP_NS", .u32, .rw, [1000], [(100, 1000000000)], 0x0, false, false, none⟩,
  ⟨0x6003, 0x6003, 0x2, 0x2, "TS_LOCK_NS", .u32, .rw, [20], [(1, 10000)], 0x0, false, false, none⟩,
  ⟨0x6003, 0x6003, 0x3, 0x3, "TS_SLEW_PPB", .u32, .rw, [100000], [(1000, 200000)], 0x0, false, false, none⟩,
  ⟨0x6003, 0x6003, 0x4, 0x4, "TS_SLEW_LOCKED_PPB", .u32, .rw, [1000], [(10, 10000)], 0x0, false, false, none⟩,
  ⟨0x6003, 0x6003, 0x5, 0x5, "TS_HOLD_AVG_S", .u16, .rw, [300], [(10, 3600)], 0x0, false, false, none⟩,
  ⟨0x6003, 0x6003, 0x6, 0x6, "TS_HOLD_DRIFT_NS_H", .u32, .rw, [1000], [], 0x0, false, false, none⟩,
  ⟨0x6003, 0x6003, 0x7, 0x7, "TS_HOLD_ERR_NS", .u32, .rw, [1000], [], 0x0, false, false, none⟩,
  ⟨0x6003, 0x6003, 0x8, 0x8, "TS_DELAY_STEP_NS", .u32, .rw, [2000], [(100, 100000)], 0x0, false, false, none⟩,
  ⟨0x6003, 0x6003, 0x9, 0x9, "TS_ASYM_STEP_NS", .u32, .rw, [100], [(1, 10000)], 0x0, false, false, none⟩,
  ⟨0x6003, 0x6003, 0xa, 0xa, "TS_STEP_SETTLE_S", .u16, .rw, [10], [(1, 600)], 0x0, false, false, none⟩,
  ⟨0x6003, 0x6003, 0xb, 0xb, "TS_BASE_KEEP_S", .u16, .rw, [60], [(1, 3600)], 0x0, false, false, none⟩,
  ⟨0x6003, 0x6003, 0xc, 0xc, "TT_CAL_S", .u16, .rw, [60], [(10, 3600)], 0x0, false, false, none⟩,
  ⟨0x6004, 0x6004, 0x1, 0x1, "TB_RAW", .u64, .ro, [0], [], 0x0, false, false, none⟩,
  ⟨0x6004, 0x6004, 0x2, 0x2, "TB_ADJ", .i64, .ro, [0], [], 0x0, false, false, none⟩,
  ⟨0x6004, 0x6004, 0x3, 0x3, "TB_STEP_GEN", .u32, .ro, [0], [], 0x0, false, false, none⟩,
  ⟨0x6010, 0x6010, 0x1, 0x8, "TT_RTT_PS", .u64, .ro, [0], [], 0x0, false, false, none⟩,
  ⟨0x6011, 0x6011, 0x1, 0x8, "TT_FWD_PS", .i64, .ro, [0], [], 0x0, false, false, none⟩,
  ⟨0x6012, 0x6012, 0x1, 0x8, "TT_REV_PS", .i64, .ro, [0], [], 0x0, false, false, none⟩,
  ⟨0x6013, 0x6013, 0x1, 0x8, "TT_OFS_PS", .i64, .ro, [0], [], 0x0, false, false, none⟩,
  ⟨0x6014, 0x6014, 0x1, 0x8, "TT_SAMPLES", .u32, .ro, [0], [], 0x0, false, false, none⟩,
  ⟨0x6015, 0x6015, 0x1, 0x8, "TT_ASYM_PS", .i32, .rw, [0], [], 0x0, true, false, some 14⟩,
  ⟨0x6016, 0x6016, 0x1, 0x8, "TT_ASYM_STATE", .u8, .ro, [0], [], 0x0, false, false, none⟩,
  ⟨0x6017, 0x6017, 0x1, 0x1, "TT_CAL_CMD", .u16, .wo, [0], [], 0x0, false, false, some 14⟩,
  ⟨0x6020, 0x6020, 0x1, 0x4, "LP_RTT_NS", .u32, .ro, [0], [], 0x0, false, false, none⟩,
  ⟨0x6020, 0x6020, 0x5, 0x8, "LP_OFS_PS", .i64, .ro, [0], [], 0x0, false, false, none⟩,
  ⟨0x6030, 0x6030, 0x1, 0x1, "PTP_PORTS", .u16, .rw, [0], [], 0x60, true, false, some 13⟩,
  ⟨0x6030, 0x6030, 0x2, 0x2, "PTP_MASTER", .u16, .rw, [0], [], 0x0, true, false, some 13⟩,
  ⟨0x6030, 0x6030, 0x3, 0x3, "PTP_DOMAIN", .u8, .rw, [0], [], 0x0, true, false, some 13⟩,
  ⟨0x6030, 0x6030, 0x4, 0x4, "PTP_CLASS_MAX", .u8, .rw, [6], [(6, 255)], 0x0, true, false, some 13⟩]

def objTable9 : List ObjDesc := [
  ⟨0x6800, 0x6800, 0x1, 0x1, "LC_STATE", .u8, .ro, [0], [], 0x0, false, false, none⟩,
  ⟨0x6800, 0x6800, 0x2, 0x2, "DBG_STATE", .u8, .ro, [0], [], 0x0, false, false, none⟩,
  ⟨0x6800, 0x6800, 0x3, 0x3, "LC_CMD", .u8, .rwk, [0], [], 0x0, false, false, none⟩,
  ⟨0x6800, 0x6800, 0x4, 0x4, "DBG_CMD", .u8, .wo, [0], [], 0x0, false, false, none⟩,
  ⟨0x6800, 0x6800, 0x5, 0x5, "LC_OWNER", .blob, .rwk, [], [], 0x0, false, false, none⟩,
  ⟨0x6810, 0x6810, 0x1, 0x1, "SEC_CHAL_REQ", .u8, .wo, [0], [], 0x0, false, false, none⟩,
  ⟨0x6810, 0x6810, 0x2, 0x2, "SEC_CHALLENGE", .blob, .ro, [], [], 0x0, false, false, none⟩,
  ⟨0x6810, 0x6810, 0x3, 0x3, "SEC_RESPONSE", .blob, .wo, [], [], 0x0, false, false, none⟩,
  ⟨0x6810, 0x6810, 0x4, 0x4, "SEC_UNLOCKED", .bool, .ro, [0], [], 0x0, false, false, none⟩,
  ⟨0x6820, 0x6820, 0x1, 0x1, "FW_KEY_HASH", .blob, .ro, [], [], 0x0, false, false, none⟩,
  ⟨0x6820, 0x6820, 0x2, 0x2, "FW_KEY_REVOKED", .u8, .ro, [0], [], 0x0, false, false, none⟩,
  ⟨0x6820, 0x6820, 0x3, 0x3, "SVN_MIN", .blob, .ro, [], [], 0x0, false, false, none⟩,
  ⟨0x6820, 0x6820, 0x4, 0x4, "FUSE_CMD", .u32, .rwk, [0], [], 0x0, false, false, none⟩,
  ⟨0x6830, 0x6830, 0x1, 0x1, "DEV_CERT", .blob, .rwk, [], [], 0x0, true, false, none⟩,
  ⟨0x6830, 0x6830, 0x2, 0x2, "ATT_NONCE", .blob, .wo, [], [], 0x0, false, false, none⟩,
  ⟨0x6830, 0x6830, 0x3, 0x3, "ATT_REPORT", .blob, .ro, [], [], 0x0, false, false, none⟩,
  ⟨0x6830, 0x6830, 0x4, 0x4, "ATT_DKA_PUB", .blob, .ro, [], [], 0x0, false, false, none⟩,
  ⟨0x6830, 0x6830, 0x5, 0x5, "LKEK_PEER", .blob, .rwk, [], [], 0x0, true, false, none⟩,
  ⟨0x6840, 0x6840, 0x1, 0x1, "ROP_ANCHOR_ADMIN", .blob, .rwk, [], [], 0x0, true, false, none⟩,
  ⟨0x6840, 0x6840, 0x2, 0x2, "ROP_ANCHOR_OBSERVER", .blob, .rwk, [], [], 0x0, true, false, none⟩,
  ⟨0x7000, 0x7000, 0x1, 0x1, "EMERG_FLAGS", .u32, .ro, [0], [], 0x0, false, false, none⟩,
  ⟨0x7000, 0x7000, 0x2, 0x2, "EMERG_LATCH", .u32, .w1c, [0], [], 0x0, false, false, none⟩,
  ⟨0x7000, 0x7000, 0x3, 0x3, "PWR_CAP_W", .u16, .rw, [1150], [(600, 1150)], 0x0, false, false, none⟩,
  ⟨0x7001, 0x7001, 0x1, 0x1, "VIN_MV", .u32, .ro, [0], [], 0x0, false, false, none⟩,
  ⟨0x7001, 0x7001, 0x2, 0x2, "IIN_MA", .u32, .ro, [0], [], 0x0, false, false, none⟩,
  ⟨0x7001, 0x7001, 0x3, 0x3, "PIN_DW", .u32, .ro, [0], [], 0x0, false, false, none⟩,
  ⟨0x7001, 0x7001, 0x4, 0x4, "VAUX_MV", .u32, .ro, [0], [], 0x0, false, false, none⟩,
  ⟨0x7001, 0x7001, 0x5, 0x5, "COOLANT_IN_CC", .i32, .ro, [0], [], 0x0, false, false, none⟩,
  ⟨0x7001, 0x7001, 0x6, 0x6, "COOLANT_OUT_CC", .i32, .ro, [0], [], 0x0, false, false, none⟩,
  ⟨0x7002, 0x7002, 0x1, 0x13, "TJ_CC", .i32, .ro, [0], [], 0x0, false, false, none⟩,
  ⟨0x7003, 0x7003, 0x1, 0x13, "TJ_LIMIT_CC", .i32, .ro, [10500, 10500, 10500, 10500, 8500, 8500, 8500, 8500, 8500, 8500, 8500, 8500, 9500, 9500, 9500, 9500, 9500, 9500, 10500], [], 0x0, false, false, none⟩,
  ⟨0x7004, 0x7004, 0x1, 0x1d, "RAIL_MV", .u32, .ro, [0], [], 0x0, false, false, none⟩,
  ⟨0x7005, 0x7005, 0x1, 0x1, "ISLAND_TABLE", .blob, .ro, [], [], 0x0, false, false, none⟩,
  ⟨0x7010, 0x7010, 0x1, 0x1, "PWR_STATE", .u8, .ro, [0], [], 0x0, false, false, none⟩,
  ⟨0x7010, 0x7010, 0x2, 0x2, "PWR_CMD", .u8, .wo, [0], [], 0x0, false, false, none⟩,
  ⟨0x7020, 0x7020, 0x1, 0x70, "AGE_SLACK_PS", .i32, .ro, [0], [], 0x0, false, false, none⟩,
  ⟨0x7021, 0x7021, 0x1, 0x70, "AGE_SLACK_T0_PS", .i32, .ro, [0], [], 0x0, false, false, none⟩,
  ⟨0x7022, 0x7022, 0x1, 0x50, "AGE_EYE_MUI", .u16, .ro, [0], [], 0x0, false, false, none⟩,
  ⟨0x7023, 0x7023, 0x1, 0x1, "AGE_EQ_HOURS", .u32, .ro, [0], [], 0x0, false, false, none⟩,
  ⟨0x7023, 0x7023, 0x2, 0x2, "AGE_EYE_MIN_MUI", .u16, .rw, [80], [(20, 300)], 0x0, false, false, none⟩]

def objTable10 : List ObjDesc := [
  ⟨0x7030, 0x7030, 0x1, 0x1, "REPLAN_DAYS", .u16, .rw, [30], [(1, 365)], 0x0, true, false, none⟩,
  ⟨0x7030, 0x7030, 0x2, 0x2, "REPLAN_CMD", .u8, .wo, [0], [], 0x0, false, false, none⟩,
  ⟨0x7030, 0x7030, 0x3, 0x3, "REPLAN_UPSHIFT", .bool, .rw, [0], [], 0x0, false, false, none⟩,
  ⟨0x7030, 0x7030, 0x4, 0x4, "REPLAN_LAST", .time80, .ro, [0], [], 0x0, false, false, none⟩,
  ⟨0x7030, 0x7030, 0x5, 0xc, "REPLAN_PD_CDB", .i32, .ro, [0], [], 0x0, false, false, none⟩,
  ⟨0x7031, 0x7031, 0x1, 0x10, "ROW_FREQ_CEIL", .u16, .ro, [1600], [], 0x0, false, false, none⟩,
  ⟨0x7032, 0x7032, 0x1, 0x1d, "RAIL_SET_MV", .u32, .ro, [12000, 800, 3300, 750, 750, 900, 1200, 1800, 1100, 1500, 3300, 800, 800, 800, 800, 800, 800, 800, 800, 800, 800, 800, 800, 800, 800, 800, 800, 750, 750], [], 0x0, false, false, none⟩,
  ⟨0x7033, 0x7033, 0x1, 0x1, "MG_TARGET_FLOOR_CDB", .u16, .ro, [150], [], 0x0, false, false, none⟩,
  ⟨0x7033, 0x7033, 0x2, 0x2, "MG_DOWN_FLOOR_CDB", .u16, .ro, [50], [], 0x0, false, false, none⟩,
  ⟨0x7800, 0x7800, 0x1, 0x1, "BIST_EN", .bool, .rws, [1], [], 0x0, false, false, none⟩,
  ⟨0x7800, 0x7800, 0x2, 0x2, "BIST_GAP_MS", .u16, .rw, [1000], [(10, 10000)], 0x0, false, false, none⟩,
  ⟨0x7800, 0x7800, 0x3, 0x3, "BIST_STATE", .u8, .ro, [0], [], 0x0, false, false, none⟩,
  ⟨0x7800, 0x7800, 0x4, 0x4, "BIST_PROGRESS", .u32, .ro, [0], [], 0x0, false, false, none⟩,
  ⟨0x7800, 0x7800, 0x5, 0x5, "BIST_CYCLES", .u32, .ro, [0], [], 0x0, false, false, none⟩,
  ⟨0x7800, 0x7800, 0x6, 0x6, "BIST_LAST_CYCLE_S", .u32, .ro, [0], [], 0x0, false, false, none⟩,
  ⟨0x7800, 0x7800, 0x7, 0x7, "BIST_ABANDONED", .u64, .ro, [0], [], 0x0, false, false, none⟩,
  ⟨0x7800, 0x7800, 0x8, 0x8, "BIST_HEADROOM_W", .i32, .ro, [0], [], 0x0, false, false, none⟩,
  ⟨0x7801, 0x7801, 0x1, 0x70, "ISLAND_BIST", .u32, .ro, [0], [], 0x0, false, false, none⟩,
  ⟨0x8800, 0x8800, 0x1, 0x1, "CR_HB_US", .u16, .rws, [20], [(10, 100)], 0x0, false, false, none⟩,
  ⟨0x8800, 0x8800, 0x2, 0x2, "CR_MISS_N", .u8, .rws, [5], [(3, 15)], 0x0, false, false, none⟩,
  ⟨0x8800, 0x8800, 0x3, 0x3, "CR_CONFIRM_US", .u16, .rws, [150], [(50, 500)], 0x0, false, false, none⟩,
  ⟨0x8800, 0x8800, 0x4, 0x4, "CR_FENCE_US", .u16, .rws, [150], [], 0x0, false, false, none⟩,
  ⟨0x8800, 0x8800, 0x5, 0x5, "CR_REPORT_US", .u16, .rws, [50], [(10, 100)], 0x0, false, false, none⟩,
  ⟨0x8810, 0x8810, 0x1, 0x1, "CR_STATE", .u8, .ro, [0], [], 0x0, false, false, none⟩,
  ⟨0x8810, 0x8810, 0x2, 0x2, "CR_ADOPTED_PLACE", .u8, .ro, [255], [], 0x0, false, false, none⟩,
  ⟨0x8810, 0x8810, 0x3, 0x3, "CR_SUSPECT", .u16, .ro, [0], [], 0x0, false, false, none⟩,
  ⟨0x8810, 0x8810, 0x4, 0x4, "CR_PROMO_GEN", .u16, .ro, [0], [], 0x0, false, false, none⟩,
  ⟨0x8810, 0x8810, 0x5, 0x5, "CR_LINK", .u16, .ro, [0], [], 0x0, false, false, none⟩,
  ⟨0x8811, 0x8811, 0x1, 0x8, "CR_HB_MISSED", .u32, .ro, [0], [], 0x0, false, false, none⟩,
  ⟨0x8812, 0x8812, 0x1, 0x1, "CR_PROMO_TIME_US", .u32, .ro, [0], [], 0x0, false, false, none⟩,
  ⟨0x8820, 0x8820, 0x1, 0x1, "SHUF_ACK_TIMEOUT_US", .u16, .rws, [300], [(50, 1000)], 0x0, false, false, none⟩,
  ⟨0x8820, 0x8820, 0x2, 0x2, "SHUF_STATE", .u16, .ro, [0], [], 0x0, false, false, none⟩,
  ⟨0x8830, 0x8830, 0x1, 0x4, "PROT_PAIR", .u8, .rw, [255], [], 0x88, false, false, some 6⟩,
  ⟨0x8830, 0x8830, 0x5, 0x5, "PROT_SD_REMOVE", .bool, .rw, [0], [], 0x0, false, false, none⟩,
  ⟨0x8830, 0x8830, 0x6, 0x6, "PROT_WTR_MS", .u16, .rw, [10], [(1, 10000)], 0x0, false, false, none⟩,
  ⟨0x8830, 0x8830, 0x7, 0x7, "PROT_WITHDRAW_MS", .u16, .rw, [20], [(2, 1000)], 0x0, false, false, none⟩,
  ⟨0x8831, 0x8831, 0x1, 0x1, "PROT_CMD", .u16, .wo, [0], [], 0x0, false, false, none⟩,
  ⟨0x8832, 0x8832, 0x1, 0x4, "PROT_STATE", .u8, .ro, [0], [], 0x0, false, false, none⟩,
  ⟨0x8840, 0x8840, 0x1, 0x8, "PLACE_PROFILE", .blob, .rws, [], [], 0x0, false, false, none⟩]

/-- Every object the spec's tables define, sorted by index and then subindex (R73). -/
def objTable : List ObjDesc :=
  objTable0 ++ objTable1 ++ objTable2 ++ objTable3 ++ objTable4 ++ objTable5 ++ objTable6 ++ objTable7 ++ objTable8 ++ objTable9 ++ objTable10

/-- The severity of each event (Table 2.12), as the event tables give it. -/
def evSeverityTable : List (Nat × Nat) := [
  (0x401, 0),
  (0x402, 1),
  (0x403, 1),
  (0x404, 2),
  (0x410, 0),
  (0x411, 0),
  (0x412, 2),
  (0x420, 0),
  (0x421, 3),
  (0x422, 2),
  (0x1001, 1),
  (0x1002, 2),
  (0x1003, 2),
  (0x1004, 0),
  (0x1005, 1),
  (0x1006, 2),
  (0x1007, 2),
  (0x1008, 3),
  (0x1009, 1),
  (0x100a, 2),
  (0x100b, 2),
  (0x100c, 2),
  (0x100d, 1),
  (0x1021, 3),
  (0x2001, 0),
  (0x2002, 3),
  (0x2003, 1),
  (0x2004, 2),
  (0x2005, 0),
  (0x2006, 0),
  (0x2007, 1),
  (0x2008, 3),
  (0x2021, 3),
  (0x2041, 2),
  (0x2042, 2),
  (0x2043, 1),
  (0x2044, 4),
  (0x2051, 2),
  (0x2101, 2),
  (0x2102, 0),
  (0x2103, 1),
  (0x2104, 1),
  (0x2105, 3),
  (0x2201, 2),
  (0x2202, 0),
  (0x2301, 1),
  (0x2302, 2),
  (0x2303, 2),
  (0x2304, 1),
  (0x2801, 2),
  (0x2802, 0),
  (0x2803, 2),
  (0x2804, 2),
  (0x2805, 0),
  (0x2806, 3),
  (0x2807, 3),
  (0x2c01, 2),
  (0x2c02, 1),
  (0x2c03, 1),
  (0x2c04, 2),
  (0x2c06, 1),
  (0x3001, 0),
  (0x3002, 2),
  (0x3003, 1),
  (0x3050, 3),
  (0x3051, 0),
  (0x3052, 2),
  (0x3801, 3),
  (0x3802, 1),
  (0x3804, 2),
  (0x4010, 2),
  (0x4012, 1),
  (0x4013, 3),
  (0x4014, 3),
  (0x4015, 3),
  (0x4016, 1),
  (0x4017, 3),
  (0x4018, 2),
  (0x4801, 0),
  (0x4802, 2),
  (0x4803, 3),
  (0x4804, 4),
  (0x4805, 3),
  (0x4806, 1),
  (0x4807, 2),
  (0x4808, 1),
  (0x4809, 1),
  (0x5001, 2),
  (0x5002, 3),
  (0x5003, 1),
  (0x5004, 1),
  (0x5005, 0),
  (0x5006, 1),
  (0x5007, 1),
  (0x5010, 2),
  (0x5011, 2),
  (0x5012, 0),
  (0x5020, 2),
  (0x5021, 1),
  (0x5801, 2),
  (0x5802, 1),
  (0x5803, 2),
  (0x5804, 3),
  (0x5805, 2),
  (0x5806, 3),
  (0x5807, 1),
  (0x6001, 1),
  (0x6002, 1),
  (0x6003, 2),
  (0x6004, 2),
  (0x6005, 1),
  (0x6006, 2),
  (0x6010, 2),
  (0x6011, 2),
  (0x6012, 0),
  (0x6020, 0),
  (0x6021, 2),
  (0x6801, 4),
  (0x6802, 2),
  (0x6803, 2),
  (0x6804, 3),
  (0x6805, 1),
  (0x6806, 1),
  (0x7001, 2),
  (0x7002, 0),
  (0x7003, 4),
  (0x7004, 3),
  (0x7005, 3),
  (0x7006, 1),
  (0x7011, 0),
  (0x7021, 1),
  (0x7022, 2),
  (0x7023, 2),
  (0x7024, 1),
  (0x7025, 2),
  (0x7801, 1),
  (0x7802, 3),
  (0x7803, 2),
  (0x7804, 0),
  (0x7805, 2),
  (0x8801, 2),
  (0x8802, 0),
  (0x8803, 4),
  (0x8804, 3),
  (0x8805, 4),
  (0x8806, 2),
  (0x8807, 1),
  (0x8808, 2),
  (0x8810, 1),
  (0x8811, 0),
  (0x8812, 3),
  (0x8821, 3)]

/-- The severity of an event code: 0 INFO to 4 CRITICAL. -/
def evSeverity (code : Nat) : Nat := ((evSeverityTable.find? (fun p => p.1 == code)).map (·.2)).getD 0

end Sys2Proof.Machine

/-! The key `index * 256 + subindex` of the first instance of each object, by its name. -/

namespace Sys2Proof.O

abbrev VENDOR_ID : Nat := 0x100001
abbrev DEVICE_ID : Nat := 0x100002
abbrev STEPPING : Nat := 0x100003
abbrev SERIAL : Nat := 0x100004
abbrev DICT_VERSION : Nat := 0x100005
abbrev KL_PRESENT : Nat := 0x100006
abbrev FEAT_DEVICE : Nat := 0x101001
abbrev FEAT_DRIVER : Nat := 0x101101
abbrev FEAT_ACTIVE : Nat := 0x101201
abbrev BG_PLACE : Nat := 0x102001
abbrev BG_GROUP_ID : Nat := 0x102002
abbrev SITE_ID : Nat := 0x102003
abbrev BG_MEMBER_MASK : Nat := 0x102004
abbrev BL_PEER_FAULT : Nat := 0x102005
abbrev DEV_STATE : Nat := 0x103001
abbrev DEV_FLAGS : Nat := 0x103002
abbrev DEV_CMD : Nat := 0x103003
abbrev DEV_LAST_CAUSE : Nat := 0x103004
abbrev BOOT_SOURCE : Nat := 0x103005
abbrev INIT_PROGRESS : Nat := 0x103006
abbrev BOOT_COUNT : Nat := 0x103007
abbrev INIT_OPTICS_MS : Nat := 0x103101
abbrev INIT_TIME_WAIT_S : Nat := 0x103102
abbrev ROP_UDP_PORT : Nat := 0x104001
abbrev ROP_IDLE_S : Nat := 0x104002
abbrev CG_LEASE_MS : Nat := 0x104003
abbrev SESSIONS : Nat := 0x104004
abbrev NOTIFY_LOST : Nat := 0x104005
abbrev UNLOCK_TIMEOUT_S : Nat := 0x104006
abbrev CG_STATUS : Nat := 0x105001
abbrev CG_DETAIL : Nat := 0x105101
abbrev CFG_SAVE : Nat := 0x106001
abbrev CFG_STATE : Nat := 0x106002
abbrev CFG_SAVE_COUNT : Nat := 0x106003
abbrev DIRECTORY : Nat := 0x107001
abbrev DL_ADDR : Nat := 0x110001
abbrev DL_LEN : Nat := 0x110002
abbrev DL_CMD : Nat := 0x110003
abbrev DL_STATUS : Nat := 0x110004
abbrev DL_KINDS : Nat := 0x110005
abbrev FW_VERSION : Nat := 0x110101
abbrev FW_SVN : Nat := 0x110201
abbrev FW_STAGED : Nat := 0x110301
abbrev FW_ACT_HOLD_MS : Nat := 0x110302
abbrev FW_ACT_WAIT_S : Nat := 0x110303
abbrev PROC_STATE : Nat := 0x111001
abbrev PROC_RESTARTS : Nat := 0x111101
abbrev PROC_WDOG_MS : Nat := 0x111201
abbrev PROC_CMD : Nat := 0x111301
abbrev MG_TARGET_CDB : Nat := 0x200001
abbrev MG_PRED_GUARD_CDB : Nat := 0x200002
abbrev MG_MEAS_MS : Nat := 0x200003
abbrev MG_ACQ_MS : Nat := 0x200004
abbrev MG_VERIFY_MS : Nat := 0x200005
abbrev MG_DOWN_CDB : Nat := 0x200006
abbrev MG_DOWN_S : Nat := 0x200007
abbrev MG_RETRY_S : Nat := 0x200008
abbrev DRAIN_WAIT_MS : Nat := 0x200009
abbrev CAR_ENABLE : Nat := 0x201001
abbrev CAR_FREQ_N : Nat := 0x201002
abbrev CAR_SLOT_M : Nat := 0x201003
abbrev CAR_MODES : Nat := 0x201004
abbrev CAR_TX_CDBM : Nat := 0x201005
abbrev CAR_CMD : Nat := 0x201801
abbrev LP_FAR_ID : Nat := 0x202001
abbrev CAR_STATUS : Nat := 0x203001
abbrev CAR_QMARGIN_CDB : Nat := 0x203101
abbrev CAR_SNR_CDB : Nat := 0x203109
abbrev CAR_DRAINS : Nat := 0x203201
abbrev CAR_WRONG_ORDER : Nat := 0x203209
abbrev LASER_I2C_ADDR : Nat := 0x204001
abbrev LASER_SPARE_STATE : Nat := 0x204002
abbrev LASER_AUTO_SPARE : Nat := 0x204003
abbrev LF_WINDOW_H : Nat := 0x204004
abbrev LF_LEAD_H : Nat := 0x204005
abbrev LF_FLOOR_CDBM : Nat := 0x204006
abbrev LASER_IN_MIN_CDBM : Nat := 0x204007
abbrev SPARE_SETTLE_MS : Nat := 0x204008
abbrev LM_TUNE_MS : Nat := 0x204009
abbrev LOCKER_CAL_MIN : Nat := 0x20400a
abbrev LASER_STATUS : Nat := 0x204101
abbrev LM_IDENT : Nat := 0x204201
abbrev LM_I2C_ERRS : Nat := 0x204202
abbrev FA_STATE : Nat := 0x210001
abbrev FA_PRESYNC_N : Nat := 0x210101
abbrev FA_LOSS_N : Nat := 0x210102
abbrev SW_PERSIST : Nat := 0x210103
abbrev RDI_PERSIST : Nat := 0x210104
abbrev FECF_SET_N : Nat := 0x210105
abbrev AUTH_SET_N : Nat := 0x210106
abbrev DEG_BER_SET : Nat := 0x210107
abbrev DEG_BER_CLR : Nat := 0x210108
abbrev DEG_SET_N : Nat := 0x210109
abbrev DEG_CLR_N : Nat := 0x21010a
abbrev RX_LOS_DBM : Nat := 0x21010b
abbrev DEFECTS : Nat := 0x211001
abbrev DEFECT_LATCH : Nat := 0x211101
abbrev SW_TX : Nat := 0x211201
abbrev SW_RX : Nat := 0x211205
abbrev SW_PORT_RX : Nat := 0x21120d
abbrev RX_CARRIER_ID : Nat := 0x211301
abbrev TX_FSEQ : Nat := 0x211401
abbrev LEDGER_LAST : Nat := 0x212001
abbrev LEDGER_RING : Nat := 0x212101
abbrev LEDGER_TICK : Nat := 0x212201
abbrev FEC_STATE : Nat := 0x220001
abbrev FEC_PRE_BER : Nat := 0x220101
abbrev FEC_UNCORR_CW : Nat := 0x220201
abbrev FEC_MAX_ITER : Nat := 0x220301
abbrev LR_REPEAT : Nat := 0x221001
abbrev LR_SPACING_US : Nat := 0x221002
abbrev LR_SENT : Nat := 0x221101
abbrev LR_RX : Nat := 0x221105
abbrev LR_QUEUE_DROPS : Nat := 0x221109
abbrev RS_HOLD_MARGIN_US : Nat := 0x230001
abbrev RS_RTT_DEFAULT_US : Nat := 0x230002
abbrev RS_SHARE_BYTES : Nat := 0x231001
abbrev RS_HOLD_US : Nat := 0x231005
abbrev RS_USED_BYTES : Nat := 0x231009
abbrev RS_RESENT_SEGS : Nat := 0x231101
abbrev RS_MISS : Nat := 0x231105
abbrev RS_EVICT : Nat := 0x231109
abbrev RS_NOT_OPEN : Nat := 0x23110d
abbrev RX_DUP_SEGS : Nat := 0x231201
abbrev RX_DNT_REPLACED : Nat := 0x231205
abbrev KEY_AUTO : Nat := 0x280001
abbrev KEY_LIFE_S : Nat := 0x280002
abbrev KEY_FRAME_LIMIT : Nat := 0x280003
abbrev KEY_OVERLAP_MS : Nat := 0x280004
abbrev KEY_ANN_RETRY_US : Nat := 0x280005
abbrev KEY_ANN_TIMEOUT_MS : Nat := 0x280006
abbrev KEY_LEAD_US : Nat := 0x280007
abbrev KEY_LOAD : Nat := 0x281001
abbrev KEY_CMD : Nat := 0x281002
abbrev KEY_TX_STATE : Nat := 0x282001
abbrev KEY_RX_STATE : Nat := 0x282005
abbrev KEY_TX_FRAMES : Nat := 0x282101
abbrev KEY_TX_NEXT_ID : Nat := 0x282105
abbrev KEY_RX_NEXT_ID : Nat := 0x282109
abbrev KEY_CHANGES : Nat := 0x282201
abbrev KEY_NO_SLOT : Nat := 0x282205
abbrev SPARE_KEY_MAP : Nat := 0x282401
abbrev HC_JOBS : Nat := 0x283001
abbrev HC_AUTH_FAIL : Nat := 0x283002
abbrev HC_BLOCKS : Nat := 0x283003
abbrev SCHED_BATCH : Nat := 0x2c0001
abbrev SCHED_SAMPLE_US : Nat := 0x2c0002
abbrev CR_UPDATE_US : Nat := 0x2c0003
abbrev CLASS_ALARM_US : Nat := 0x2c0101
abbrev QMAX_KIB : Nat := 0x2c0801
abbrev LP_CARRIERS : Nat := 0x2c1001
abbrev LP_CAP_MBPS : Nat := 0x2c1005
abbrev LP_OVH : Nat := 0x2c1009
abbrev LP_ACTIVE : Nat := 0x2c2001
abbrev LP_NET_MBPS : Nat := 0x2c2005
abbrev LP_RESEND_CAP_MBPS : Nat := 0x2c2009
abbrev LP_TRANSIT_DROPS : Nat := 0x2c200d
abbrev LP_CLASS_DROPS : Nat := 0x2c2011
abbrev CLASS_SHAPER : Nat := 0x2c3001
abbrev PORT_SHAPER : Nat := 0x2c3101
abbrev QUEUE_SHAPER : Nat := 0x2c4001
abbrev QUEUE_STATUS : Nat := 0x2c5001
abbrev QUEUE_SOJ_MAX : Nat := 0x2c6001
abbrev QUEUE_DROPS : Nat := 0x2c7001
abbrev POLICER : Nat := 0x2c8001
abbrev POL_DROPS : Nat := 0x2c8201
abbrev CR_WINDOW_MIB : Nat := 0x2c9001
abbrev CR_STALLS : Nat := 0x2c9002
abbrev LF_OCTET_MODE : Nat := 0x300001
abbrev LF_PORT_MAC : Nat := 0x300101
abbrev LF_PORT_IPV4 : Nat := 0x300201
abbrev LF_PORT_IPV6 : Nat := 0x300301
abbrev LF_FAILOVER : Nat := 0x300401
abbrev LF_QPN_BASE : Nat := 0x300411
abbrev LF_ETH_CLASS : Nat := 0x300412
abbrev LF_FAILBACK_MS : Nat := 0x300501
abbrev LF_DATA_PRIO : Nat := 0x300502
abbrev LF_CTRL_PRIO : Nat := 0x300503
abbrev LF_DATA_DSCP : Nat := 0x300504
abbrev LF_CTRL_DSCP : Nat := 0x300505
abbrev LF_WIN_PORTS : Nat := 0x300506
abbrev LF_TENANT_EGRESS : Nat := 0x300601
abbrev LF_PORT_STATUS : Nat := 0x301001
abbrev LF_FEC_UNCORR_CW : Nat := 0x301101
abbrev LF_ETH_DROPS : Nat := 0x301201
abbrev LF_QP_USED : Nat := 0x301202
abbrev LF_NAK_UNCONNECTED : Nat := 0x301203
abbrev BL_STATUS : Nat := 0x305001
abbrev BL_MSG_TX : Nat := 0x305009
abbrev BL_MSG_RX : Nat := 0x30500a
abbrev HOST_LINK : Nat := 0x380001
abbrev HOST_NUM_VFS : Nat := 0x380002
abbrev HOST_VF_TENANT : Nat := 0x380101
abbrev HOST_RING_ERRS : Nat := 0x380201
abbrev MGMT_MODE : Nat := 0x381001
abbrev MGMT_MAC : Nat := 0x381002
abbrev MGMT_IPV4 : Nat := 0x381003
abbrev MGMT_IPV6 : Nat := 0x381004
abbrev MGMT_IP_FLAGS : Nat := 0x381005
abbrev PMBUS_ADDR : Nat := 0x382001
abbrev COLL_UNEXP_BYTES : Nat := 0x400001
abbrev COLL_UNEXP_PEAK : Nat := 0x400002
abbrev COLL_OPEN : Nat := 0x400003
abbrev COLL_NO_GROUP_DROPS : Nat := 0x400004
abbrev GD_TARGET : Nat := 0x401001
abbrev GD_ACTION : Nat := 0x401002
abbrev GD_TENANT : Nat := 0x401003
abbrev GD_MEMBERS : Nat := 0x401004
abbrev GD_RING : Nat := 0x401005
abbrev GD_RELAY : Nat := 0x401006
abbrev GD_CROSSOVER : Nat := 0x401007
abbrev GD_CHUNK : Nat := 0x401008
abbrev GD_DIRS : Nat := 0x401009
abbrev GD_UNEXP_QUOTA_MIB : Nat := 0x40100a
abbrev GD_UNEXP_WAIT_MS : Nat := 0x40100b
abbrev GD_TIMEOUT_MS : Nat := 0x40100c
abbrev GD_CHUNK_WAIT_MS : Nat := 0x40100d
abbrev STALL_PAIR_A : Nat := 0x402001
abbrev STALL_PAIR_B : Nat := 0x402002
abbrev GRP_STATE : Nat := 0x440001
abbrev GRP_EPOCH : Nat := 0x440002
abbrev GRP_MAX_SEQ : Nat := 0x440003
abbrev GRP_PRESENT : Nat := 0x440004
abbrev GRP_STALE_DROPS : Nat := 0x440005
abbrev GRP_LATE_DROPS : Nat := 0x440006
abbrev GRP_SEAL_FAILS : Nat := 0x440007
abbrev GRP_RELAY_DROPS : Nat := 0x440008
abbrev GRP_UNEXP_BYTES : Nat := 0x440009
abbrev GRP_DESC : Nat := 0x44000a
abbrev OS_MODE : Nat := 0x480001
abbrev OS_GROUP : Nat := 0x480002
abbrev OS_TABLE : Nat := 0x480003
abbrev OS_SITE_FMT : Nat := 0x480004
abbrev OS_SEED : Nat := 0x480005
abbrev OS_ATTEMPT_LIMIT : Nat := 0x480006
abbrev OS_RANGE_DIGEST : Nat := 0x480007
abbrev OS_ETA : Nat := 0x481001
abbrev OS_BETA : Nat := 0x481002
abbrev OS_HP_FROM_STEP : Nat := 0x481003
abbrev OS_COMMITTED_STEP : Nat := 0x482001
abbrev OS_STEP_STATE : Nat := 0x482002
abbrev OS_CUR_STEP : Nat := 0x482003
abbrev OS_ATTEMPT : Nat := 0x482004
abbrev OS_LAST_OUTCOME : Nat := 0x482005
abbrev OS_RETRIES : Nat := 0x482006
abbrev OS_LOST_STEPS : Nat := 0x482007
abbrev OS_ANCHOR_FP : Nat := 0x482008
abbrev OS_MOMENTUM_FP : Nat := 0x482009
abbrev OS_SWEEP_PENDING : Nat := 0x48200a
abbrev OS_REGION_BYTES : Nat := 0x48200b
abbrev OS_NEED_BYTES : Nat := 0x48200c
abbrev OS_REFILL_STATE : Nat := 0x48200d
abbrev OS_REFILL_PAGES : Nat := 0x48200e
abbrev OS_RESID_ZEROED : Nat := 0x48200f
abbrev OS_CMD : Nat := 0x483001
abbrev OS_LOAD_STEP : Nat := 0x483002
abbrev STALL_ROT_EN : Nat := 0x500001
abbrev MIG_DRAIN_US : Nat := 0x500002
abbrev STALL_WATCHDOG_MS : Nat := 0x500003
abbrev STALLS_AVAILABLE : Nat := 0x500004
abbrev STALLS_FENCED : Nat := 0x500005
abbrev MIGRATIONS : Nat := 0x500006
abbrev RESTARTS : Nat := 0x500007
abbrev TALLY_STALE_OPS : Nat := 0x500008
abbrev TALLY_FREE_OPS : Nat := 0x500009
abbrev TALLY_FREE_COUNT : Nat := 0x50000a
abbrev PLACEMENTS : Nat := 0x50000b
abbrev ROW_FREQ_MHZ : Nat := 0x501001
abbrev ROW_FREQ_ACT : Nat := 0x501011
abbrev TENANT_ROWS : Nat := 0x501101
abbrev TALLY_QUOTA : Nat := 0x501201
abbrev STALL_STATUS : Nat := 0x502001
abbrev STALL_ECC_CE : Nat := 0x502101
abbrev STALL_PORT_WAIT : Nat := 0x502201
abbrev STALL_EXP_HOLD : Nat := 0x502301
abbrev STALL_EXP_DAMAGE : Nat := 0x502401
abbrev UNIT_HIST : Nat := 0x503001
abbrev HIST_BIN_OFFSET : Nat := 0x503081
abbrev PROG_IMAGE : Nat := 0x504001
abbrev PROG_UNLOAD : Nat := 0x504002
abbrev PROG_COUNT : Nat := 0x504003
abbrev PROG_LIST : Nat := 0x504004
abbrev XC_TABLE : Nat := 0x505001
abbrev XC_TABLE_DIGEST : Nat := 0x505011
abbrev XC_ENC_BLOCKS : Nat := 0x505101
abbrev XC_ENC_RAW : Nat := 0x505102
abbrev XC_ENC_IN_BYTES : Nat := 0x505103
abbrev XC_ENC_OUT_BYTES : Nat := 0x505104
abbrev XC_DAMAGED : Nat := 0x505105
abbrev TALLY_STATUS : Nat := 0x510001
abbrev PORTER_CH_CFG : Nat := 0x520001
abbrev PORTER_CH_STATUS : Nat := 0x521001
abbrev PORTER_HOST_CH : Nat := 0x522001
abbrev PORTER_WAIT_MS : Nat := 0x522002
abbrev PORTER_FAULTS : Nat := 0x522003
abbrev PORTER_BYTES : Nat := 0x522004
abbrev STAGE_PEAK : Nat := 0x522006
abbrev PORTER_UNIT_RATE : Nat := 0x523001
abbrev HBM_RESEND_GIB : Nat := 0x580001
abbrev POOL_H16K_MIB : Nat := 0x580002
abbrev POOL_H64K_MIB : Nat := 0x580003
abbrev POOL_H1M_MIB : Nat := 0x580004
abbrev CRATE_STRICT : Nat := 0x580005
abbrev ALLOC_WAIT_US : Nat := 0x580006
abbrev HBM_MAP : Nat := 0x580007
abbrev CRATE_POOL_STAT : Nat := 0x581001
abbrev CRATE_ALLOC_FAIL : Nat := 0x581201
abbrev CRATE_BAD_OPS : Nat := 0x581301
abbrev CRATE_DNT_SET : Nat := 0x581302
abbrev CRATE_POISON_SET : Nat := 0x581303
abbrev CRATE_QUERY : Nat := 0x582001
abbrev CRATE_META : Nat := 0x582002
abbrev FIFO_COUNT : Nat := 0x588001
abbrev FIFO_TABLE : Nat := 0x588002
abbrev FIFO_PARITY_ERRS : Nat := 0x588003
abbrev FIFO_DROPS : Nat := 0x588004
abbrev BL_RX_WM : Nat := 0x589001
abbrev BL_RX_OVERFLOW : Nat := 0x589009
abbrev TIME_NOW : Nat := 0x600001
abbrev TIME_STATE : Nat := 0x600002
abbrev TIME_SRC : Nat := 0x600003
abbrev TIME_ERR_EST_NS : Nat := 0x600004
abbrev TIME_FLAGS : Nat := 0x600005
abbrev TS_SRC_PRIO : Nat := 0x600101
abbrev TS_PPS_EN : Nat := 0x600105
abbrev TS_10M_EN : Nat := 0x600106
abbrev TS_LINE_UNCAL : Nat := 0x600107
abbrev TS_SET : Nat := 0x600201
abbrev TS_PPS_TOD : Nat := 0x600202
abbrev TAI_UTC_S : Nat := 0x600203
abbrev TS_STEP_NS : Nat := 0x600301
abbrev TS_LOCK_NS : Nat := 0x600302
abbrev TS_SLEW_PPB : Nat := 0x600303
abbrev TS_SLEW_LOCKED_PPB : Nat := 0x600304
abbrev TS_HOLD_AVG_S : Nat := 0x600305
abbrev TS_HOLD_DRIFT_NS_H : Nat := 0x600306
abbrev TS_HOLD_ERR_NS : Nat := 0x600307
abbrev TS_DELAY_STEP_NS : Nat := 0x600308
abbrev TS_ASYM_STEP_NS : Nat := 0x600309
abbrev TS_STEP_SETTLE_S : Nat := 0x60030a
abbrev TS_BASE_KEEP_S : Nat := 0x60030b
abbrev TT_CAL_S : Nat := 0x60030c
abbrev TB_RAW : Nat := 0x600401
abbrev TB_ADJ : Nat := 0x600402
abbrev TB_STEP_GEN : Nat := 0x600403
abbrev TT_RTT_PS : Nat := 0x601001
abbrev TT_FWD_PS : Nat := 0x601101
abbrev TT_REV_PS : Nat := 0x601201
abbrev TT_OFS_PS : Nat := 0x601301
abbrev TT_SAMPLES : Nat := 0x601401
abbrev TT_ASYM_PS : Nat := 0x601501
abbrev TT_ASYM_STATE : Nat := 0x601601
abbrev TT_CAL_CMD : Nat := 0x601701
abbrev LP_RTT_NS : Nat := 0x602001
abbrev LP_OFS_PS : Nat := 0x602005
abbrev PTP_PORTS : Nat := 0x603001
abbrev PTP_MASTER : Nat := 0x603002
abbrev PTP_DOMAIN : Nat := 0x603003
abbrev PTP_CLASS_MAX : Nat := 0x603004
abbrev LC_STATE : Nat := 0x680001
abbrev DBG_STATE : Nat := 0x680002
abbrev LC_CMD : Nat := 0x680003
abbrev DBG_CMD : Nat := 0x680004
abbrev LC_OWNER : Nat := 0x680005
abbrev SEC_CHAL_REQ : Nat := 0x681001
abbrev SEC_CHALLENGE : Nat := 0x681002
abbrev SEC_RESPONSE : Nat := 0x681003
abbrev SEC_UNLOCKED : Nat := 0x681004
abbrev FW_KEY_HASH : Nat := 0x682001
abbrev FW_KEY_REVOKED : Nat := 0x682002
abbrev SVN_MIN : Nat := 0x682003
abbrev FUSE_CMD : Nat := 0x682004
abbrev DEV_CERT : Nat := 0x683001
abbrev ATT_NONCE : Nat := 0x683002
abbrev ATT_REPORT : Nat := 0x683003
abbrev ATT_DKA_PUB : Nat := 0x683004
abbrev LKEK_PEER : Nat := 0x683005
abbrev ROP_ANCHOR_ADMIN : Nat := 0x684001
abbrev ROP_ANCHOR_OBSERVER : Nat := 0x684002
abbrev EMERG_FLAGS : Nat := 0x700001
abbrev EMERG_LATCH : Nat := 0x700002
abbrev PWR_CAP_W : Nat := 0x700003
abbrev VIN_MV : Nat := 0x700101
abbrev IIN_MA : Nat := 0x700102
abbrev PIN_DW : Nat := 0x700103
abbrev VAUX_MV : Nat := 0x700104
abbrev COOLANT_IN_CC : Nat := 0x700105
abbrev COOLANT_OUT_CC : Nat := 0x700106
abbrev TJ_CC : Nat := 0x700201
abbrev TJ_LIMIT_CC : Nat := 0x700301
abbrev RAIL_MV : Nat := 0x700401
abbrev ISLAND_TABLE : Nat := 0x700501
abbrev PWR_STATE : Nat := 0x701001
abbrev PWR_CMD : Nat := 0x701002
abbrev AGE_SLACK_PS : Nat := 0x702001
abbrev AGE_SLACK_T0_PS : Nat := 0x702101
abbrev AGE_EYE_MUI : Nat := 0x702201
abbrev AGE_EQ_HOURS : Nat := 0x702301
abbrev AGE_EYE_MIN_MUI : Nat := 0x702302
abbrev REPLAN_DAYS : Nat := 0x703001
abbrev REPLAN_CMD : Nat := 0x703002
abbrev REPLAN_UPSHIFT : Nat := 0x703003
abbrev REPLAN_LAST : Nat := 0x703004
abbrev REPLAN_PD_CDB : Nat := 0x703005
abbrev ROW_FREQ_CEIL : Nat := 0x703101
abbrev RAIL_SET_MV : Nat := 0x703201
abbrev MG_TARGET_FLOOR_CDB : Nat := 0x703301
abbrev MG_DOWN_FLOOR_CDB : Nat := 0x703302
abbrev BIST_EN : Nat := 0x780001
abbrev BIST_GAP_MS : Nat := 0x780002
abbrev BIST_STATE : Nat := 0x780003
abbrev BIST_PROGRESS : Nat := 0x780004
abbrev BIST_CYCLES : Nat := 0x780005
abbrev BIST_LAST_CYCLE_S : Nat := 0x780006
abbrev BIST_ABANDONED : Nat := 0x780007
abbrev BIST_HEADROOM_W : Nat := 0x780008
abbrev ISLAND_BIST : Nat := 0x780101
abbrev CR_HB_US : Nat := 0x880001
abbrev CR_MISS_N : Nat := 0x880002
abbrev CR_CONFIRM_US : Nat := 0x880003
abbrev CR_FENCE_US : Nat := 0x880004
abbrev CR_REPORT_US : Nat := 0x880005
abbrev CR_STATE : Nat := 0x881001
abbrev CR_ADOPTED_PLACE : Nat := 0x881002
abbrev CR_SUSPECT : Nat := 0x881003
abbrev CR_PROMO_GEN : Nat := 0x881004
abbrev CR_LINK : Nat := 0x881005
abbrev CR_HB_MISSED : Nat := 0x881101
abbrev CR_PROMO_TIME_US : Nat := 0x881201
abbrev SHUF_ACK_TIMEOUT_US : Nat := 0x882001
abbrev SHUF_STATE : Nat := 0x882002
abbrev PROT_PAIR : Nat := 0x883001
abbrev PROT_SD_REMOVE : Nat := 0x883005
abbrev PROT_WTR_MS : Nat := 0x883006
abbrev PROT_WITHDRAW_MS : Nat := 0x883007
abbrev PROT_CMD : Nat := 0x883101
abbrev PROT_STATE : Nat := 0x883201
abbrev PLACE_PROFILE : Nat := 0x884001

end Sys2Proof.O
end

