-- ==== Sys2Proof/Machine/State.lean ====
section
/-! DEFINITION. The state of the gateway as plain data, the state after reset, and the named ways a
step can stop. -/

namespace Sys2Proof.Machine

/-- The device states of 0x1030.01 DEV_STATE; `off` is a module without 3.3 V_AUX. -/
inductive DevState where
  | off | aux | boot | load | init | ready | service | lineHold | safe | halt
  deriving DecidableEq, Repr

/-! ### Objects, sessions, commit groups and the event log -/

/-- The value of an object: a number for the fixed-size types (signed ones in two's complement), the
bytes for STR and BLOB. -/
inductive ObjVal where
  | num (n : Nat)
  | bytes (bs : List Byte)
  deriving DecidableEq, Repr

/-- One record of the event log (Table 2.12, R71); severity, source and object follow from the code
and argument (`evSeverity`, `Config.evSource`, `Config.evObject`). -/
structure EvRec where
  code : Nat
  arg : Nat
  seq : Nat
  sec : Nat
  nsec : Nat
  again : Bool
  read : Bool
  deriving DecidableEq, Repr

/-- A queued notification (R60): a subscribed value, or an event record. -/
inductive Notif where
  | value (idx sub : Nat) (v : ObjVal)
  | event (r : EvRec)
  deriving DecidableEq, Repr

/-- One subscription (R59, Table 2.17): the mode, the interval or the event filter, the value last
sent, and whether its minimum interval is running. -/
structure Subscr where
  idx : Nat
  sub : Nat
  mode : Nat
  intervalMs : Nat
  minSev : Nat
  first : Nat
  last : Nat
  lastSent : Option ObjVal
  holdOff : Bool
  deriving DecidableEq, Repr

/-- One item of a response (Table 2.7). -/
structure RespItem where
  index : Nat
  sub : Nat
  type : Nat
  offset : Bool
  last : Bool
  status : Nat
  value : List Byte
  deriving DecidableEq, Repr

/-- A response (Table 2.6): OP of the request with bit 7 set. -/
structure RopResp where
  op : Nat
  status : Nat
  requestId : Nat
  items : List RespItem
  deriving DecidableEq, Repr

/-- The pieces gathered of a STR or BLOB write: offset and bytes, in the order they came (R52). -/
structure Staging where
  idx : Nat
  sub : Nat
  pieces : List (Nat × List Byte)
  deriving DecidableEq, Repr

/-- One session of Table 2.5: whether it is open, its role, its unlock (R40), the kept responses (R54, newest first), the staging area
(R52), its subscriptions and its notification queue (R60). -/
structure Session where
  isOpen : Bool := false
  admin : Bool := false
  unlocked : Bool := false
  kept : List RopResp := []
  staging : List Staging := []
  subs : List Subscr := []
  queue : List Notif := []
  notifySeq : Nat := 0
  lost : Nat := 0
  overflow : Bool := false
  deriving DecidableEq, Repr

/-- One commit group (Tables 2.9 and 2.10, R62 to R68): `cgState` 0 CLEAN, 1 OPEN, 2 ARMED; the shadow
holds a value for each member key while the group is not CLEAN; `stale` the marked members (R63);
`waitCarriers` the carriers a FRAME application still waits for (Table 2.8), whose members have taken their values (`loaded`) and held
`before` until then. -/
structure CommitGroup where
  ticket : Nat := 0
  cgState : Nat := 0
  outcome : Nat := 0
  lastError : Nat := 0
  ruleId : Nat := 0
  badIndex : Nat := 0
  badSub : Nat := 0
  owner : Nat := 0xFF
  shadow : List (Nat × ObjVal) := []
  stale : List Nat := []
  waitCarriers : List Nat := []
  loaded : Bool := false
  before : List (Nat × ObjVal) := []
  deriving DecidableEq, Repr

/-- One copy of the persistent configuration in flash (R42): whether its CRC-32C holds, and the saved values by key. -/
structure CfgCopy where
  valid : Bool := true
  saved : List (Nat × ObjVal) := []
  deriving DecidableEq, Repr

/-- The dictionary and its protocol: every object that is not a view of another part, the sessions, the commit groups, the event log and the
persistent configuration. -/
structure Dict where
  objs : SMap ObjVal := []
  sessions : SMap Session := []
  groups : SMap CommitGroup := []
  log : List EvRec := []
  evSeq : Nat := 0
  cfgA : CfgCopy := {}
  cfgB : CfgCopy := {}
  /-- The copy that is newer and was loaded last: 0 for A, 1 for B. -/
  cfgNewest : Nat := 0
  /-- The save (1) or erase (2) in progress, 0 for none (CFG_STATE BUSY). -/
  cfgBusy : Nat := 0
  /-- Both copies were invalid at power-up (CFG_STATE bit 0). -/
  cfgBothBad : Bool := false
  deriving DecidableEq, Repr

/-! ### Collective groups and collectives -/

/-- An epoch advance waiting for resolution (R111): the change, who announced it, and the acknowledgements by site. -/
structure Resolution where
  newEpoch : Nat
  kind : Nat
  site : Nat
  ports : Nat
  announcer : Nat
  acks : List (Nat × List (Nat × Nat))
  deriving DecidableEq, Repr

/-- One collective group (R75 to R83): state 0 CLOSED, 1 OPENING, 2 OPEN, 3 FAILED; the applied descriptor; the advance being resolved;
acknowledgements that came before adoption (site, new epoch, entries); the change this gateway still has to announce (R112). -/
structure Group where
  gstate : Nat := 0
  epoch : Nat := 0
  maxSeq : Option Nat := none
  present : Nat := 0
  helloFrom : Nat := 0
  tenant : Nat := 0
  members : Nat := 0
  ring : List Nat := []
  relay : List (Nat × Nat) := []
  crossover : Nat := 0
  chunk : Nat := 0
  dirs : Nat := 0
  quotaMib : Nat := 0
  waitMs : Nat := 0
  timeoutMs : Nat := 0
  chunkWaitMs : Nat := 0
  resolution : Option Resolution := none
  earlyAcks : List (Nat × Nat × List (Nat × Nat)) := []
  ownChange : Option EpochChange := none
  /-- Opened by a promoted spare, the group takes its epoch from the first EPOCH_ADV and sends no HELLO before it (R433). -/
  awaitAdv : Bool := false
  /-- The sequences that ended CONFIRMED since the group was opened, at any epoch: they are never posted again (R86). -/
  confirmedSeqs : List Nat := []
  deriving DecidableEq, Repr

/-- Bytes of an item that have landed: where, what, whether their frame's authentication failed, and the
crates that hold them. -/
structure Piece where
  offset : Nat
  data : List Byte
  dnt : Bool
  handles : List Nat
  deriving DecidableEq, Repr

/-- What a member receives of one chunk from one source (R97 to R101, R166). -/
structure Item where
  pieces : List Piece := []
  codedLen : Option Nat := none
  sealRx : Nat := 0
  complete : Bool := false
  used : Bool := false
  fails : Nat := 0
  fromSite : Nat := 0
  /-- Its first segment has landed (R101). -/
  begun : Bool := false
  deriving DecidableEq, Repr

/-- The states of Table 3.4. -/
inductive CollState where
  | posted | active | localDone | confirmed | failed | cancelled | replaced
  deriving DecidableEq, Repr

/-- One collective (R84 to R109). `items` is keyed by chunk × 32 + source site; `seals` by chunk; `confirms` the members' CONFIRMs. -/
structure Coll where
  group : Nat
  seq : Nat
  epoch : Nat
  op : Nat
  allReduce : Bool
  posting : Posting
  src : JobSrc
  ring : Bool
  k : Nat
  lc : Nat
  cstate : CollState := .posted
  cause : Nat := 0
  tainted : Bool := false
  taintOwn : Bool := false
  items : SMap Item := []
  seals : List (Nat × Nat) := []
  /-- Items of SEND_READY handled, and items counted in RECV_DONE and RECV_LANDED (R166). -/
  sentCount : Nat := 0
  recvDone : Nat := 0
  recvLanded : Nat := 0
  confirms : List (Nat × ConfirmBody) := []
  placement : Option Nat := none
  tallyBase : Option Nat := none
  /-- The received chunks a vendor library program has decoded into the output. -/
  decoded : List Nat := []
  /-- What the free choices of its XC coding are drawn at, so that a chunk has one coded form here (R97). -/
  codeKey : Nat := 0
  /-- The ranges of the uncoded vector that travel as XC blocks: all of it with CODING XC, and in the P payload of a mixed shard the
  parts of its XC entries (Table 4.6). -/
  xcRanges : List (Nat × Nat) := []
  deriving DecidableEq, Repr

/-- An arrival held in the unexpected-chunk store (R102, R103): the line port and the do-not-trust flag of its frame with it. -/
structure Held where
  group : Nat
  seq : Nat
  epoch : Nat
  bytes : Nat
  arrival : Segment ⊕ CtlMsg
  port : Nat := 0
  dnt : Bool := false
  deriving DecidableEq, Repr

/-- The line port of a chunk on its way to a site: all its segments leave there (R77). -/
structure ChunkPort where
  route : Nat
  dst : Nat
  group : Nat
  epoch : Nat
  seq : Nat
  src : Nat
  chunk : Nat
  port : Nat
  deriving DecidableEq, Repr

/-- The collective engine. -/
structure CollEngine where
  groups : SMap Group := []
  colls : List Coll := []
  held : List Held := []
  /-- Arrivals the store or a quota had no room for, oldest first: they wait outside the store, and nothing is dropped (R105). -/
  backlog : List Held := []
  /-- The pairs A for which COLL_ORDER_STALL has been raised (R104). -/
  stalledPairs : List (Nat × Nat × Nat) := []
  /-- Segments and messages held unsent for want of a port (R77). -/
  unsent : List (Nat × (Segment ⊕ CtlMsg)) := []
  /-- The ports of the chunks on their way, and the next port of the round-robin of a group (times 256, plus the site) (R77). -/
  chunkPorts : List ChunkPort := []
  nextPort : SMap Nat := []
  /-- The collectives posted with STEP that are CONFIRMED and that the commit bell has still to close (R108): group, sequence, epoch. -/
  stepOpen : List (Nat × Nat × Nat) := []
  /-- Collectives (group, sequence, epoch) that became final in the present step and whose consequences for
  placements and the outer step have still to be drawn. -/
  ended : List (Nat × Nat × Nat) := []
  deriving DecidableEq, Repr

/-! ### The outer step -/

/-- A decided step: what its outcome record says (Table 4.9). -/
structure Outcome where
  step : Nat
  attempt : Nat
  outcome : Nat
  cause : Nat
  committed : Nat
  deriving DecidableEq, Repr

/-- A buffer of the step engine: the address of its crate list, and its crates with the list's own. -/
structure StepBuf where
  list : Nat
  crates : List Nat
  deriving DecidableEq, Repr

/-- One part of the running step: its sequence, how it ended (STATUS, CAUSE, tainted), and its buffers. -/
structure StepPart where
  part : Nat
  seq : Nat
  ended : Option (Nat × Nat × Bool) := none
  inBuf : Option StepBuf := none
  outBuf : Option StepBuf := none
  deriving DecidableEq, Repr

/-- An entry of the page table (R120): the physical page pair that holds the page's current values, and the step that last updated
it. -/
structure PageEntry where
  pair : Nat
  step : Nat
  deriving DecidableEq, Repr

/-- The optimizer shard and the step engine (R117 to R141). Anchor, momentum and residual banks are bytes in shard
parameter order; a record slot holds P̂ and Q̄, or g, of each entry in table order, FP32; `window` is the shard window.
The step state, the committed step, the attempts and the fingerprints are the objects of 0x4820. -/
structure OuterStep where
  anchor : SMap Byte := []
  mom : SMap Byte := []
  resA : SMap Byte := []
  resB : SMap Byte := []
  window : SMap Byte := []
  slot0 : SMap Byte := []
  slot1 : SMap Byte := []
  /-- The current residual bank, the committed record slot, and whether that slot is empty. -/
  bank : Nat := 0
  slot : Nat := 0
  slotEmpty : Bool := true
  /-- The page table, an entry for each page, and the free page pairs of the reserve, the next to be taken first (R120, R133). -/
  pageTable : List PageEntry := []
  freePairs : List Nat := []
  /-- The pages, and the pages of the committed record, that an HBM error took and whose refill is awaited (R141). -/
  damaged : List Nat := []
  recDamaged : List Nat := []
  /-- What waits for such a refill: announced entries still to be formed, and READ doors, of the momentum or not, by entry. -/
  waitForm : List Nat := []
  waitReads : List (Bool × Nat) := []
  /-- η and β in force, those of the committed step, and the pending pair. -/
  eta : Nat := 0x3F333333
  beta : Nat := 0x3F666666
  etaC : Nat := 0x3F333333
  betaC : Nat := 0x3F666666
  pendPair : Option (Nat × Nat) := none
  /-- Entries announced in this attempt, with P_s (or M_s of an XC entry) in JF16 bytes. -/
  formed : List (Nat × List Byte) := []
  parts : List StepPart := []
  /-- P̂ and Q̄ of the step have been written to the slot being filled. -/
  pDone : Bool := false
  qDone : Bool := false
  /-- Crates of parts of a decided step that have not ended, by sequence. -/
  lateBufs : List (Nat × List Nat) := []
  /-- Entries whose next anchor has been written to the return buffer, and the window data queue pairs on which bytes of it have still
  to land (R134, R459). -/
  returned : List Nat := []
  retWaits : List Nat := []
  decided : Option Outcome := none
  recordDue : Bool := false
  /-- A step has run since OS_GROUP last opened (R137). -/
  ranSinceOpen : Bool := false
  /-- The momentum pages loaded since the last LOAD_COMMIT (R137). -/
  momLoaded : List Nat := []
  /-- A refill's sources (line port and site, in order), and the pages that have landed (R140). -/
  sources : List (Nat × Nat) := []
  landed : List Nat := []
  refilled : Bool := true
  deriving DecidableEq, Repr

/-! ### Stalls, tallies and placements -/

/-- A 64-bit scalar register with its poison mark (R145). -/
structure SReg where
  v : Word64 := 0
  p : Bool := false
  deriving DecidableEq, Repr

/-- A 32-bit lane or tile element with its poison mark (R145). -/
structure Lane where
  v : Word32 := 0
  p : Bool := false
  deriving DecidableEq, Repr

/-- The states of a stall (Table 5.14). -/
inductive StallState where
  | idle | running | spare | testing | moving | fenced | clearing
  deriving DecidableEq, Repr

/-- The expander of a stall (Table 7.5, R211 to R217): the descriptor as read, the stream position
(offset of the next block, elements of the current block not yet delivered, elements decoded so far),
the damage state and the prefetched slab. -/
structure Expander where
  loaded : Bool := false
  kind : Nat := 0
  fmt : Nat := 0
  flags : Nat := 0
  reservedBad : Bool := false
  damageTally : Nat := 0
  base : Nat := 0
  word16 : Nat := 0
  word24 : Nat := 0
  firstSlab : Nat := 0
  scaleAddr : Nat := 0
  nextOff : Nat := 0
  buf : List (Nat × Bool) := []
  decoded : Nat := 0
  restPoison : Bool := false
  damageLogged : Bool := false
  prefetched : Nat := 0
  deriving DecidableEq, Repr

/-- A movement instruction of a stall. -/
inductive MoveInstr where
  | add (o : MoveTOp)
  | wait (o : MoveTOp)
  | reset (o : MoveTOp)
  | xld (o : MoveXOp)
  | xst (o : MoveXOp) (e : StoreErrs)
  | rtree (o : MoveXOp) (e : StoreErrs)
  | pkick (o : MoveTOp)
  | stop (o : MoveTOp)
  | trap (o : MoveTOp)
  deriving DecidableEq, Repr

/-- A movement instruction that has issued and waits in its unit's queue, with the scalar registers it reads as they were (R157). -/
structure MoveEntry where
  op : MoveInstr
  regs : SMap SReg
  deriving DecidableEq, Repr

/-- One stall (Table 5.1): scalar registers by number, vector lanes by register × 64 + lane, masks by
number (64 bits each), tile elements by tile × 2048 + row × 64 + column. -/
structure Stall where
  sstate : StallState := .idle
  placement : Nat := 0
  unit : Nat := 0
  tag : Nat := 0xFF
  tenant : Nat := 0
  lastTenant : Option Nat := none
  lastCause : Nat := 0
  /-- The code of the last TRAP (Table 5.6, R267). -/
  trapCode : Nat := 0
  sregs : SMap SReg := []
  vregs : SMap Lane := []
  masks : SMap Nat := []
  /-- The lanes of each mask register whose bit is poisoned (R145). -/
  maskP : SMap Nat := []
  tiles : SMap Lane := []
  pc : Nat := 0
  rmode : Nat := 0
  fflags : Nat := 0
  moved : Nat := 0
  istore : List Word64 := []
  /-- The tally, value and destination a TALLY.WAIT_GE waits for. -/
  waiting : Option (Nat × Nat × Nat) := none
  /-- The unit has narrowed to JF8e since its placement or restart (R556). -/
  jf8eSeen : Bool := false
  exp : Expander := {}
  /-- The movement unit's queue, 16 deep (R157). -/
  moveQueue : List MoveEntry := []
  /-- Words at which a read of the unit has found an uncorrectable error (STORE_ECC of Table 5.11). -/
  eccSeen : List Nat := []
  /-- The clock at which the state CLEARING ends (R171). -/
  clearUntil : Nat := 0
  deriving DecidableEq, Repr

/-- An entry of the unit map (R160), by tag. -/
structure UnitEnt where
  active : Bool := false
  stall : Nat := 0
  gen : Nat := 0
  placement : Nat := 0
  unit : Nat := 0
  rowMem : Nat := 0
  channels : List Nat := []
  deriving DecidableEq, Repr

/-- A tally (R159, Table 5.15): state 0 FREE, 1 HELD, 2 ERROR. -/
structure Tally where
  tstate : Nat := 0
  count : Nat := 0
  cause : Nat := 0
  tenant : Nat := 0
  kind : Nat := 0
  deriving DecidableEq, Repr

/-- Who owns a tally block: a placement, a collective (group and sequence), or a host job's function. -/
inductive BlockOwner where
  | placement (n : Nat)
  | coll (group seq : Nat)
  | host (fn : Nat)
  deriving DecidableEq, Repr

/-- An allocated tally block (R163). -/
structure TallyBlock where
  base : Nat
  size : Nat
  tenant : Nat
  owner : BlockOwner
  deriving DecidableEq, Repr

/-- A registered program image (Table 5.8): the header's fields, the code and the constants. -/
structure Program where
  hflags : Nat
  progId : Nat
  storeBytes : Nat
  unitsMin : Nat
  unitsMax : Nat
  tallies : Nat
  rowxKib : Nat
  porters : Nat
  entry : Nat
  tenantMask : Nat
  codeCrc : Nat
  code : List Word64
  consts : List Byte
  crate : Nat
  deriving DecidableEq, Repr

/-- Who asked for a placement: a collective, or an entry of a host job ring. -/
inductive PlaceOwner where
  | coll (group seq : Nat)
  | host (src : JobSrc)
  deriving DecidableEq, Repr

/-- A placement that waits for stalls (R169), or that waits to be restarted (R173: the same number and
tally block). -/
structure PlaceReq where
  owner : PlaceOwner
  tenant : Nat
  prog : Program
  argBlock : List Byte
  handles : List Nat
  restartOf : Option Nat
  tallyBase : Option Nat
  tallyCount : Nat
  deriving DecidableEq, Repr

/-- A running placement (R169, R170). `rowx` holds row, base and limit of each exchange allocation. -/
structure Placement where
  owner : PlaceOwner
  tenant : Nat
  prog : Program
  tags : List Nat
  tallyBase : Nat
  tallyCount : Nat
  ownsBlock : Bool
  rowx : List (Nat × Nat × Nat)
  argBlock : List Byte
  handles : List Nat
  stopped : List Nat
  deriving DecidableEq, Repr

/-- One RTREE being gathered (R148, R149): what each member that issued it gave. -/
structure RTreeOp where
  placement : Nat
  row : Nat
  tag : Nat
  members : Nat
  length : Nat
  issued : List (Nat × Nat × Nat × Nat)
  deriving DecidableEq, Repr

/-- A migration being drained (R175): the stalls a and b and the unit's tag. -/
structure Migration where
  a : Nat
  b : Nat
  tag : Nat
  deriving DecidableEq, Repr

/-- The compute side. -/
structure Compute where
  stalls : SMap Stall := []
  tallies : SMap Tally := []
  blocks : List TallyBlock := []
  unitMap : SMap UnitEnt := []
  placements : List (Nat × Placement) := []
  placeQueue : List PlaceReq := []
  nextPlacement : Nat := 0
  programs : List Program := []
  /-- Crates of images that were replaced or unloaded while a placement ran them (R168). -/
  oldImages : List Nat := []
  /-- Identifiers whose unloading waits for their last placement. -/
  unloading : List Nat := []
  rtrees : List RTreeOp := []
  migrations : List Migration := []
  /-- The histogram slots by tag × 4 + slot, then counter: bins 0–63, ZERO, SUBNORMAL, INF, NAN, SAT. -/
  hist : SMap Nat := []
  /-- A row frequency waiting for a migration to end (R143). -/
  freqWaiting : List (Nat × Nat) := []
  /-- Placements whose restart waits for the sequencer of its die (R178), with that die. -/
  restartsDue : List (Nat × Nat) := []
  /-- The position withdrawn as spare in each row (R174). -/
  sparePos : SMap Nat := []
  deriving DecidableEq, Repr

/-! ### Crates and island FIFOs -/

/-- The metadata of one crate (Table 8.8): state 0 FREE, 1 HELD, 2 HELD_ZERO. `lastTenant` is the tenant of the last holder of its bytes,
64 where they were of several tenants (R230). -/
structure Crate where
  rstate : Nat := 0
  refs : Nat := 0
  dnt : Bool := false
  poison : Bool := false
  owner : Nat := 0
  tenant : Nat := 0
  lastTenant : Option Nat := none
  deriving DecidableEq, Repr

/-- Who waits for a crate: nobody the model must wake; a porter channel whose burst asked (R261); a segment of the gateway's own that goes to
a transmit queue; or a crier message (R228). -/
inductive CrateWaiter where
  | none
  | porter (ch : Nat)
  | segment (cls port tenant : Nat) (seg : Segment) (relayed : Bool)
  | crier (link : Nat) (msg : List Byte)
  deriving DecidableEq, Repr

/-- A crate request that waits (R229) for a class. -/
structure WaitReq where
  cls : Nat
  req : CrateReq
  waiter : CrateWaiter
  deriving DecidableEq, Repr

/-- A word of an island FIFO with its sideband (R240): `parity` has the even-parity bit of each 32-bit lane, `sidePar` the parity bit
over the end mark, valid bytes and poison tag. `head` says whether a packet's header begins the word (log entry 154). -/
structure FifoWord where
  data : Nat
  endMark : Bool
  validBytes : Nat
  poison : Bool
  parity : Nat
  sidePar : Bool
  head : Bool
  deriving DecidableEq, Repr

/-- An island FIFO (R240 to R244, Table 8.9). `wr` and `rd` are the pointers, `rdSeen` and `wrSeen` what the other side sees of them
(R241); `ends` counts the end marks written, `endsSeen` what the read side sees of that count, `endsRead` those it has read (R243).
`wrMid` and `midPacket`: the writer, the reader, is inside a packet; `overrun`: the writer discards the rest of a packet that met a full
FIFO (R246); `part` holds the words of the packet in progress that a board link's reader has read. -/
structure Fifo where
  words : List FifoWord := []
  wr : Nat := 0
  rd : Nat := 0
  rdSeen : Nat := 0
  wrSeen : Nat := 0
  ends : Nat := 0
  endsSeen : Nat := 0
  endsRead : Nat := 0
  wrMid : Bool := false
  overrun : Bool := false
  midPacket : Bool := false
  dropping : Bool := false
  part : List FifoWord := []
  hold : Bool := false
  peak : Nat := 0
  parityErrs : Nat := 0
  deriving DecidableEq, Repr

/-- The free handles of an HBM class (R224): the cache on the die and the ring in memory, each a list of runs of indices (first, count). -/
structure FreeStore where
  cache : List (Nat × Nat) := []
  ring : List (Nat × Nat) := []
  deriving DecidableEq, Repr

/-- Crate pools and island FIFOs. -/
structure CratePools where
  crates : SMap Crate := []
  waiting : List WaitReq := []
  /-- The free stores of the HBM classes. -/
  stores : SMap FreeStore := []
  /-- The handles lost to the pool by ring errors until the next power-up (Table 8.5). -/
  lost : List Nat := []
  /-- A refusal of the class has been logged since it last had free crates (R229). -/
  failLogged : SMap Bool := []
  /-- The tenants whose teardown waits for moves to stop (R235). -/
  tearing : Nat := 0
  /-- The classes whose HELD_ZERO crates are still being freed one at a time (R558). -/
  slowRelease : Bool := false
  fifos : SMap Fifo := []
  /-- The pins BL_FC_IN as sampled. -/
  fcIn : Nat := 0
  deriving DecidableEq, Repr

/-! ### Porters -/

/-- The states of a channel (Table 9.10). -/
inductive ChanState where
  | idle | run | wait | stop | fault | stopping
  deriving DecidableEq, Repr

/-- The owner kinds of a channel (Table 9.10). -/
inductive ChanOwner where
  | none | unit | host | engine
  deriving DecidableEq, Repr

/-- The transformation a MOVE makes (Table 9.5). -/
inductive MoveCode where
  | copy | xcEncode | xcCheck | xcDecode | zero
  deriving DecidableEq, Repr

/-- A loop being run: the index of its first body instruction, its length, its count, the pass number
and its strides (R256, R257). -/
structure LoopFrame where
  first : Nat
  body : Nat
  count : Nat
  i : Nat
  sstride : Int
  dstride : Int
  vstride : Int
  deriving DecidableEq, Repr

/-- A MOVE in flight: its instruction with the operands after R257, the bytes read, the bytes written,
the bytes gathered for an XC code, and the bursts (offset, bytes, poisoned) that hold a staging slot. -/
structure MoveJob where
  code : MoveCode
  op : MoveOp
  src : Nat
  dst : Nat
  readDone : Nat := 0
  written : Nat := 0
  gathered : List (Byte × Bool) := []
  srcDnt : Bool := false
  /-- The crates written before the source was found to carry DNT (R236). -/
  wrote : List Nat := []
  bursts : List (Nat × List (Byte × Bool)) := []
  /-- XC_ENCODE: the entry of the destination list, from its first, the next block goes to, and the blocks written. -/
  listEntry : Nat := 0
  blocks : Nat := 0
  /-- The number of the move in its channel; the index of its instruction; the crate of a QUEUE move, and whether its segment waits for room. -/
  id : Nat := 0
  pc : Nat := 0
  qCrate : Nat := 0
  queueWait : Bool := false
  deriving DecidableEq, Repr

/-- One porter channel (R248 to R270). -/
structure Channel where
  cstate : ChanState := .idle
  owner : ChanOwner := .none
  cause : Nat := 0
  tenant : Nat := 0
  tag : Nat := 0xFF
  gen : Nat := 0
  pc : Nat := 0
  prog : Nat := 0
  /-- The program lies in the own stall's store and `prog` is an offset (R252). -/
  progInStore : Bool := false
  fn : Nat := 0xFF
  job : Option JobSrc := none
  loops : List LoopFrame := []
  moves : List MoveJob := []
  /-- The tally and value a WAIT waits for. -/
  waitFor : Option (Nat × Nat) := none
  /-- A SIGNAL (tally, value) or a STOP (code) that waits for the earlier MOVEs. -/
  afterMoves : Option (Option (Nat × Nat) × Nat) := none
  /-- A fault that waits for the bursts in flight. -/
  pendingFault : Option Nat := none
  stopCode : Nat := 0
  /-- Crates this channel allocated through FILL entries. -/
  crates : List Nat := []
  /-- The program lies at an I/O virtual address of the function. -/
  progHost : Bool := false
  /-- The engine clock of the next burst (R266), and the clock since which a burst waits for a slot. -/
  nextBurst : Nat := 0
  slotSince : Option Nat := none
  /-- Its placement has ended: it is released once it is at rest (R249). -/
  releasing : Bool := false
  /-- Bytes its moves have written, and moves it has issued. -/
  bytes : Nat := 0
  issued : Nat := 0
  /-- The move a waiting crate request belongs to. -/
  asker : Nat := 0
  deriving DecidableEq, Repr

/-- The porters: channels, and the round-robin pointer of each line die and priority. -/
structure Porters where
  chans : SMap Channel := []
  rr : SMap Nat := []
  deriving DecidableEq, Repr

/-! ### Line scheduling -/

/-- A segment in a transmit queue (R275): the time base when it was enqueued, whether it is relayed, and the
crate that holds it until it leaves (0 for none). -/
structure TxSeg where
  seg : Segment
  stamp : Nat := 0
  relayed : Bool := false
  crate : Nat := 0
  deriving DecidableEq, Repr

/-- One transmit queue with its deficit (R275, R278). -/
structure TxQueue where
  segs : List TxSeg := []
  deficit : Nat := 0
  /-- When the head began to wait for credit, and whether that wait has been counted (R290). -/
  waitSince : Option Nat := none
  stalled : Bool := false
  deriving DecidableEq, Repr

/-- An enqueue that waits for room (R276), and the porter channel whose MOVE it completes. -/
structure EnqWait where
  q : Nat
  seg : TxSeg
  chan : Option Nat
  deriving DecidableEq, Repr

/-- A token bucket (R280): the count in units of 2⁻¹⁶ bytes at a clock. -/
structure Bucket where
  tokens : Int
  clk : Nat
  deriving DecidableEq, Repr

/-- What a sender holds of a (group, receiving site) pair (R288 to R290). -/
structure CreditTx where
  heard : Bool := false
  postedSeq : Nat := 0
  postedLimit : Nat := 0
  blindLimit : Nat := 0
  sentPosted : Nat := 0
  sentBlind : Nat := 0
  deriving DecidableEq, Repr

/-- What a receiver holds of a (group, sending site) pair (R291): the bytes received of both kinds and the
outstanding blind grant. -/
structure CreditRx where
  rxPosted : Nat := 0
  rxBlind : Nat := 0
  grant : Nat := 0
  deriving DecidableEq, Repr

/-- The line schedulers. Queues by q of R275; class deficits and tenant pointers by port × 8 + class;
buckets by queue, 2048 + port × 8 + class, 2080 + port; policers by tenant × 4 + port; credit by group × 32 + site. -/
structure Sched where
  queues : SMap TxQueue := []
  waiting : List EnqWait := []
  classDeficit : SMap Nat := []
  classRr : SMap Nat := []
  tenantRr : SMap Nat := []
  buckets : SMap (Option Bucket) := []
  policers : SMap (Option Bucket) := []
  /-- Clock of the last drop of a policer. -/
  polLastDrop : SMap (Option Nat) := []
  /-- Segments selected and not yet in a frame, by port (R279). -/
  picked : SMap (List TxSeg) := []
  creditTx : SMap CreditTx := []
  creditRx : SMap CreditRx := []
  /-- The sender of each group that last got a step of a blind grant (R291). -/
  grantRr : SMap Nat := []
  /-- Tenants torn down whose policers pass nothing, as a mask (Table 10.6). -/
  tornDown : Nat := 0
  deriving DecidableEq, Repr

/-! ### Frames, FEC, re-send, keys and optics -/

/-- A PRESYNC candidate (R312): its bit offset modulo 65,536, the first and last good FSEQ, its CARRIER and
the good headers so far. -/
structure AlignCand where
  offset : Nat
  first : Nat
  last : Nat
  carrier : Nat
  good : Nat
  deriving DecidableEq, Repr

/-- The raw counters of a carrier (Table 11.15). -/
structure Ledger where
  framesTx : Nat := 0
  rxGood : Nat := 0
  uncorr : Nat := 0
  badHdr : Nat := 0
  prevMissing : Nat := 0
  authFail : Nat := 0
  bipBlocks : Nat := 0
  bipBits : Nat := 0
  fecCorrBits : Nat := 0
  segsRx : Nat := 0
  segsBad : Nat := 0
  clMsgsRx : Nat := 0
  huntEntries : Nat := 0
  swChanges : Nat := 0
  probeRx : Nat := 0
  clUnknown : Nat := 0
  /-- Defects reported at any moment of the present second. -/
  defectSecs : Nat := 0
  deriving DecidableEq, Repr

/-- A filter over consecutive good frames: the value being counted and how often it came (R318). -/
structure Persist where
  val : Nat := 0
  count : Nat := 0
  deriving DecidableEq, Repr

/-- The carrier states of Table 14.5. -/
inductive CarState where
  | dark | tuning | locking | acquiring | probing | active | draining | shuttered | down
  deriving DecidableEq, Repr

/-- The margin test or verification of a carrier (R383 to R389): the mode under test, what was excluded, both
ends' reports of the round, and the message being sent. -/
structure MarginTest where
  verify : Bool := false
  excluded : Nat := 0
  below : Nat := 0
  ownRep : Option MarginMsg := none
  farRep : Option MarginMsg := none
  ownRep0 : Option MarginMsg := none
  farRep0 : Option MarginMsg := none
  farModes : Option Nat := none
  farTarget : Nat := 0
  setMode : Nat := 0
  setPending : Bool := false
  ackLeft : Nat := 0
  msg : Option MarginMsg := none
  msgDue : Bool := false
  lastFar : Option MarginMsg := none
  joinSent : Bool := false
  passed : Bool := false
  deriving DecidableEq, Repr

/-- The time-transfer window and reference of a carrier (R410, R413): sums of F and R in 2⁻¹⁶ ns and the
count; the last reference windows (RTT, F, R in ps) and those of a new path; on A1 the windows and the time still to be
discarded (R553). -/
structure TtCarrier where
  n : Nat := 0
  sumF : Int := 0
  sumR : Int := 0
  sumRtt : Int := 0
  /-- Every sample of the window carried STAMP_VALID of the far end; and of this one. -/
  farValid : Bool := true
  ownValid : Bool := true
  /-- The last window gave offset samples. -/
  ofsOk : Bool := false
  /-- The clock of the last EV-0x6003. -/
  ofsLog : Option Nat := none
  refMode : Nat := 0
  refs : List (Int × Int × Int) := []
  refClk : Nat := 0
  pendingRefs : List (Int × Int × Int) := []
  held : Bool := false
  lastStep : Int × Int := (0, 0)
  discardUntil : Nat := 0
  discardWindows : Nat := 0
  calSum : Int := 0
  calN : Nat := 0
  calOn : Bool := false
  deriving DecidableEq, Repr

/-- One carrier. -/
structure Carrier where
  cstate : CarState := .dark
  /-- The settled mode; 0 when none. -/
  mode : Nat := 0
  /-- The mode the transmitter and receiver run. -/
  runMode : Nat := 0
  shutter : Bool := true
  locked : Bool := false
  /-- Consecutive 1 µs locker samples within ±0.5 GHz in the expected order (R380). -/
  lockRun : Nat := 0
  spareIn : Bool := false
  downCause : Nat := 0
  freqErr : Int := 0
  round : Nat := 0
  drainReason : Nat := 0
  /-- 1 to change lasers, 2 for a new frequency, 3 for a margin test, 4 to go dark. -/
  drainNext : Nat := 0
  /-- The partner drains: DRAIN was accepted for it (R391). -/
  partnerDrain : Bool := false
  /-- Out of LP_ACTIVE by an accepted switching request (R440). -/
  swOut : Bool := false
  /-- DRAINING on the partner's good frames (R392). -/
  farDrainRun : Nat := 0
  wrongOrders : List Nat := []
  acquireLogged : Bool := false
  fastStart : Bool := false
  /-- Updates of the Q-margin in a row that were below MG_DOWN_CDB (R390). -/
  lowRun : Nat := 0
  /-- Pre-FEC BER estimates of the present measurement: their sum in units of 2⁻⁹⁶, and how many (R383). -/
  berSum : Nat := 0
  berN : Nat := 0
  /-- The correction of the locker's ring-heater offset, in units of 10 MHz (R398). -/
  lockerOff : Int := 0
  test : MarginTest := {}
  laserMove : Nat := 0
  inService : Bool := false
  /-- Frames: the next FSEQ, the departure stamp and BIP of the last frame sent. -/
  fseq : Nat := 0
  lastDep : Nat := 0
  /-- The next frame is the first since the shutter opened from LOCKING: on A1 its departure stamp is late (R552, KL-01). -/
  firstFrame : Bool := false
  lastBip : Nat := 0
  identDue : Bool := false
  /-- PROMOTED is due in one of the carrier's next frames (R428). -/
  crierDue : Bool := false
  txSlot : Nat := 0
  probeOnly : Bool := false
  /-- The aligner (R312): 0 HUNT, 1 PRESYNC, 2 SYNC. -/
  fa : Nat := 0
  cands : List AlignCand := []
  expFseq : Nat := 0
  rxCar : Nat := 0
  badCount : Nat := 0
  rxSeen : Bool := false
  rxLocked : Bool := false
  /-- The stamp, arrival and BIP of the previous frame position, while held (R306, R308). -/
  prevStamp : Option Nat := none
  prevArrival : Nat := 0
  prevBip : Option Nat := none
  prevRefl : Option Nat := none
  prevStampValid : Bool := false
  /-- t2 − t1 of the last verified frame (R307). -/
  refl : Option Nat := none
  lastGood : Option Nat := none
  swRun : Persist := {}
  swAcc : Nat := 0
  rdiRun : Persist := {}
  rdegRun : Persist := {}
  rdeg : Bool := false
  /-- Raw and reported defects (Table 11.12) and the windows of their filters. -/
  raw : Nat := 4
  reported : Nat := 4
  fecfWin : List Bool := []
  fecfRun : Nat := 0
  authWin : List Bool := []
  authRun : Nat := 0
  degSet : Nat := 0
  degClr : Nat := 0
  sfHold : Bool := false
  ident : Option IdentInfo := none
  peer : Bool := false
  ledger : Ledger := {}
  records : List (List Byte) := []
  /-- The FEC decoder (R329, R330): blocks with and without an uncorrectable codeword in a row, and the
  corrected and line bits of the present millisecond. -/
  fecGood : Nat := 0
  fecBad : Nat := 0
  fecLock : Bool := false
  /-- The body bytes that fill no FEC block yet (R326). -/
  fecTx : List Byte := []
  /-- The body bytes of the last block the FEC decoder gave the framer. -/
  fecRx : List Byte := []
  fecCorr : Nat := 0
  fecBits : Nat := 0
  /-- The open range being reported, by its BASE_FSEQ (R340). -/
  openRange : Option Nat := none
  tt : TtCarrier := {}
  deriving DecidableEq, Repr

/-- A segment kept in the re-send store: the segment, whether it was relayed, and whether it is closed (R335). -/
structure KeptSeg where
  seg : Segment
  relayed : Bool
  closed : Bool
  deriving DecidableEq, Repr

/-- The entry of one frame in the re-send store (R335), by carrier and FSEQ. -/
structure KeptFrame where
  carrier : Nat
  fseq : Nat
  clk : Nat
  segs : List KeptSeg
  resent : Bool := false
  deriving DecidableEq, Repr

/-- A frame whose entry was released (R335, R336) and is still in the frame index of its carrier: how many of its segments were
closed, 0 where it went by age or for want of room. -/
structure GoneFrame where
  carrier : Nat
  fseq : Nat
  closed : Nat
  deriving DecidableEq, Repr

/-- A lost frame, or a closed range, still due to be reported (R339, R340). -/
structure LossDue where
  carrier : Nat
  base : Nat
  count : Nat
  left : Nat
  deriving DecidableEq, Repr

/-- A key slot (Table 13.4): 0 EMPTY, 1 LOADED, 2 ANNOUNCED, 3 CURRENT, 4 RETIRING. -/
structure KeySlot where
  kstate : Nat := 0
  keyId : Nat := 0
  key : List Byte := []
  salt : List Byte := []
  deriving DecidableEq, Repr

/-- One line port: its key slots and change, its control-lane queues, its loss reports and its part of the
re-send store. -/
structure LinePort where
  tx0 : KeySlot := {}
  tx1 : KeySlot := {}
  rx0 : KeySlot := {}
  rx1 : KeySlot := {}
  /-- PHASE of Table 13.10 on the transmit side. -/
  phase : Nat := 0
  /-- The slot being changed to, T (as TB) and the carriers that still send under the old slot. -/
  changeTo : Nat := 0
  switchAt : Nat := 0
  toSwitch : List Nat := []
  txSince : Nat := 0
  rxSince : Nat := 0
  changeDue : Bool := false
  warned : Bool := false
  kcQ : List KeyMsg := []
  crierQ : List CrierMsg := []
  lrQ : List LossReport := []
  lrDue : List LossDue := []
  /-- Reports taken while the line-control processor was down (Table 12.4). -/
  lrHeld : List LossReport := []
  kept : List KeptFrame := []
  /-- The frames whose entries were released, as the frame index holds them (R335, R341). -/
  gone : List GoneFrame := []
  evictClks : List Nat := []
  everActive : Bool := false
  withdrawn : Bool := false
  promotedTaken : Option Nat := none
  /-- PROMOTED has been taken and no carrier has been in LP_ACTIVE since (R442). -/
  promotedSince : Bool := false
  bridged : Bool := false
  lockoutCmd : Bool := false
  lockoutFar : Bool := false
  farSite : Option (Nat × Nat × Nat) := none
  forced : Nat := 0
  deriving DecidableEq, Repr

/-- One laser output of the module as the gateway reads it (Table 14.3), and what the gateway makes of it. -/
structure Laser where
  targetMhz : Nat := 0
  ctrl : Nat := 0
  stat : Nat := 0
  fine : Int := 0
  power : Int := 0
  bias : Nat := 0
  biasEol : Nat := 0
  fmon : Int := 0
  fade : Bool := false
  fadeH : Nat := 0xFFF
  fault : Bool := false
  /-- Samples of the last LF_WINDOW_H hours: minute, power, bias (R393). -/
  samples : List (Nat × Int × Nat) := []
  powerAtTest : Int := 0
  deriving DecidableEq, Repr

/-- The line side: carriers, ports, lasers, the staged keys of the spare (by place × 16 + port × 4 + direction × 2
+ slot), and the marks of rate-limited events. -/
structure Line where
  carriers : SMap Carrier := []
  ports : SMap LinePort := []
  lasers : SMap Laser := []
  staged : SMap KeySlot := []
  marks : SMap (Nat × Nat) := []
  /-- The laser module: faulty under R379, LM_STATUS as last read, and the carrier each spare input serves. -/
  lmFault : Bool := false
  lmStatus : Nat := 0
  /-- Minutes of trend sampling (R393). -/
  trendMin : Nat := 0
  spareFor : SMap (Option Nat) := []
  laserShutLow : Bool := false
  deriving DecidableEq, Repr

/-! ### Time -/

/-- The ordinary clock of a local-fabric port (R415): whether it is a slave, its master's rank and clockClass, the last Sync's
t1 and t2, the last Delay_Req's t3, the mean path delay and offsetFromMaster once known. -/
structure PtpPort where
  slave : Bool := false
  rank : Nat := 0
  clockClass : Nat := 0
  t1 : Option Nat := none
  t2 : Nat := 0
  t3 : Nat := 0
  delay : Int := 0
  offset : Option Int := none
  /-- A master's last Sync, by the clock (Table 15.6, Rates). -/
  syncClk : Option Nat := none
  deriving DecidableEq, Repr

/-- The time base (R401, R402) and the servo (R405 to R408). `clocks` counts 1.25 GHz island clocks since 3.3 V_AUX was applied.
State, source and error estimate are objects of 0x6000. -/
structure TimeBase where
  clocks : Nat := 0
  base : Nat := 0
  c0 : Nat := 0
  adj : Int := 0
  /-- Updates in a row within TS_LOCK_NS, and beyond ten times it. -/
  lockRun : Nat := 0
  farRun : Nat := 0
  /-- ADJ at the last updates, newest first, and the mean it is held to. -/
  adjHist : List Int := []
  heldMean : Int := 0
  /-- The estimate at the entry to HOLDOVER, and the updates since. -/
  holdBase : Nat := 0
  holdN : Nat := 0
  holdLogged : Bool := false
  /-- Clocks of the last rising edges of 1PPS, newest first; whether TS_PPS_TOD was written; the distance of the last pulse
  from its second, in 2⁻¹⁶ ns. -/
  ppsEdges : List Nat := []
  ppsTodSet : Bool := false
  ppsErr : Int := 0
  ptp : SMap PtpPort := []
  deriving DecidableEq, Repr

/-! ### The crier -/

/-- What the last valid heartbeat of a place said (Table 16.1). -/
structure HbSeen where
  serves : Nat
  gen : Nat
  failed : Bool
  fenced : Bool
  degraded : Bool
  suspecting : Bool
  serving : Bool
  deriving DecidableEq, Repr

/-- The crier engine (R418 to R438). Links by board-link number, the rest by place. -/
structure CrierEngine where
  /-- Heartbeats and crier messages are sent and taken: from the end of BOOT (R418). -/
  active : Bool := false
  /-- SEQ of the last heartbeat sent on each link. -/
  seq : SMap Nat := []
  lastHb : SMap (Option HbSeen) := []
  /-- Bit p: valid heartbeats from place p are current. -/
  current : Nat := 0
  /-- The clock since which valid heartbeats of at least M other members have been current without a break (R425). -/
  enoughSince : Option Nat := none
  /-- The other members that suspect place p, as a mask. -/
  suspectedBy : SMap Nat := []
  /-- The clock of the first suspicion of place p by anyone. -/
  firstSuspicion : SMap (Option Nat) := []
  /-- The place the spare serves, as this member has recorded it from PROMOTE or a heartbeat. -/
  spareServes : Option Nat := none
  /-- The last REPORT of each place: its clock and its bytes (R427). -/
  reports : SMap (Option (Nat × List Byte)) := []
  /-- SHUF_SEL lines the spare drives high (R28). -/
  shufSel : Nat := 0
  /-- The promotion waits for SHUF_ACK; CR_PROMO_GEN before it, the spare's own configuration, and the clock of the first
  suspicion. -/
  waitingAck : Bool := false
  /-- Places whose promotion was withdrawn: they are served again only after the job's restart (R434). -/
  givenUp : Nat := 0
  genBefore : Nat := 0
  saved : List (Nat × ObjVal) := []
  promoSince : Nat := 0
  /-- The line ports of the adopted place that have not yet taken PROMOTED_ACK, and whether EV-0x8803 has been logged. -/
  unacked : List Nat := []
  promoLogged : Bool := false
  /-- The gateway has fenced itself, and has been in SERVICE or LINE_HOLD since its last entry to BOOT. -/
  fencedSelf : Bool := false
  served : Bool := false
  deriving DecidableEq, Repr

/-! ### Local fabric, board links and host interface -/

/-- One local-fabric port (Table 17.13): its state 0 OFF, 1 TRAINING, 2 UP, 3 DOWN, 4 FAILED_OVER; the ports whose identity it
carries; whether bring-up has been restarted; the classes a PFC pause holds (bit 0 data, bit 1 control). -/
structure FabricPort where
  lst : Nat := 0
  serving : Nat := 0
  downs : Nat := 0
  retried : Bool := false
  paused : Nat := 0
  /-- Uncorrectable FEC codewords (LF_FEC_UNCORR_CW). -/
  uncorr : Nat := 0
  deriving DecidableEq, Repr

/-- A job that has ended and whose completion entry (Tables 3.5 and 17.9) waits to be written. -/
structure JobDone where
  src : JobSrc
  bytes : List Byte
  deriving DecidableEq, Repr

/-- The registers of a job ring (Table 17.7), and the completion tail. -/
structure Ring where
  subBase : Nat := 0
  compBase : Nat := 0
  statusBase : Nat := 0
  tailWb : Nat := 0
  ctrl : Nat := 0
  subTail : Nat := 0
  subHead : Nat := 0
  compHead : Nat := 0
  compTail : Nat := 0
  deriving DecidableEq, Repr

/-- The mailbox of a function (Table 17.6): MB_STATUS, the length of the request being served, RESP and NOTE. -/
structure Mailbox where
  busy : Bool := false
  respReady : Bool := false
  noteReady : Bool := false
  reqLen : Nat := 0
  resp : List Byte := []
  note : List Byte := []
  deriving DecidableEq, Repr

/-- A connected RC queue pair (R458, R459): its service (1 window data, 2 window door, 3 state transfer), the port it was
accepted on, the return and outcome buffers of a door queue pair, and whether a CNP holds its rate at half. -/
structure QueuePair where
  service : Nat
  port : Nat
  remote : Nat
  retVa : Nat
  retRkey : Nat
  outVa : Nat
  outRkey : Nat
  /-- The clock of the last CNP taken, by which the send rate was halved; it recovers over 1 ms (R457). -/
  cnpClk : Option Nat := none
  /-- The send rate just after it, of 65,536 parts of the full rate, and the clock of the last CNP sent (R457). -/
  cnpRate : Nat := 65536
  cnpSent : Option Nat := none
  deriving DecidableEq, Repr

/-- A state transfer this gateway sends (R21, R469): its job, peer, transfer number, tenant, group, coded length, seal, and whether
the far end has confirmed it. -/
structure XferOut where
  src : JobSrc
  site : Nat
  number : Nat
  tenant : Nat
  group : Nat
  bytes : Nat
  sealV : Nat
  /-- The free number in the chunk field of its segments, and its coded bytes, kept to be sent again (R21). -/
  chunk : Nat
  data : List Byte
  deriving DecidableEq, Repr

/-- A state transfer this gateway receives: its job once an XFER RECEIVE has been taken, where its data goes, and what has landed. -/
structure XferIn where
  src : Option JobSrc
  site : Nat
  number : Nat
  tenant : Nat
  group : Nat
  hostForm : Bool
  coded : Bool
  fmt : Nat
  length : Nat
  dest : Nat
  pieces : List Piece := []
  total : Option Nat := none
  sealRx : Nat := 0
  /-- Damaged copies in a row of the block at an offset (R218). -/
  damaged : SMap Nat := []
  deriving DecidableEq, Repr

/-- The host side; rings by function × 32 + ring (function 0xFF the PF, else the VF number); mailboxes by session. -/
structure HostSide where
  done : List JobDone := []
  /-- The tenant each enabled virtual function acts for (R464). -/
  vfTenant : SMap (Option Nat) := []
  rings : SMap Ring := []
  boxes : SMap Mailbox := []
  /-- BAR0 words without a behaviour of their own, by function × 2²⁶ + offset. -/
  bar : SMap Nat := []
  /-- The rkey of the shard window, which the REP of a window connection carries (R459): drawn when the first of them is sent. -/
  rkey : Option Nat := none
  /-- The connected queue pairs by number. -/
  qps : List (Nat × QueuePair) := []
  fabric : SMap FabricPort := []
  /-- Board-group messages received, oldest first: source place and body (R463). -/
  blMsgs : List (Nat × List Byte) := []
  /-- The crates that each host job in progress names (R235). -/
  jobCrates : List (JobSrc × List Nat) := []
  /-- Board-group messages that wait for BL_FC_IN to go low, by link (R245). -/
  blTxWait : List (Nat × List Byte) := []
  xferOut : List XferOut := []
  xferIn : List XferIn := []
  /-- The management port's IPv4 address (with its prefix length, as MGMT_IPV4) from DHCPv4, and its IPv6 address from SLAAC (R470). -/
  dhcp4 : Option Nat := none
  slaac6 : Option Nat := none
  /-- The last transfers received whole: tenant, source site and number (R343). -/
  xferDone : List (Nat × Nat × Nat) := []
  deriving DecidableEq, Repr

/-! ### The device -/

/-- A slice in progress (R535, R540): its slot, island and item, and whether it is the repeat of a failure. -/
structure Slice where
  slot : Nat
  island : Nat
  item : BistItem
  again : Bool
  deriving DecidableEq, Repr

/-- In-service self-test, ageing and re-planning. -/
structure Bist where
  slices : List Slice := []
  /-- The clock at which each slot last started a slice. -/
  slotClk : SMap (Option Nat) := []
  /-- Slices done in the cycle, and the clock at which the cycle began. -/
  done : Nat := 0
  cycleClk : Nat := 0
  /-- Slices passed of the spare stall of each row. -/
  stallDone : SMap Nat := []
  /-- Islands fenced since BOOT, in the order they were fenced. -/
  fenced : List Nat := []
  /-- Cipher cores fenced, by carrier. -/
  coresLost : SMap (List Nat) := []
  /-- The clock of each island's last full test (Table 21.6). -/
  lastTest : SMap (Option Nat) := []
  /-- The islands a completed cycle has tested in service. -/
  tested : List Nat := []
  /-- BIST_CYCLE_OVERDUE has been logged for the cycle. -/
  overdue : Bool := false
  /-- A re-plan is deferred (R543), or in progress: the rails still short of slack, the rails raised, the ceilings lowered. -/
  replanDue : Bool := false
  replanning : Bool := false
  short : List Nat := []
  raised : List Nat := []
  lowered : Nat := 0
  /-- Carriers a re-plan has chosen for RETEST and whose turn has not come (R546). -/
  upshift : List Nat := []
  /-- Equivalent hours in units of 2⁻⁶⁴ hour, the seconds sampled, and the hours last written to flash (R542). -/
  eqFine : Nat := 0
  eqSecs : Nat := 0
  eqSaved : Nat := 0
  deriving DecidableEq, Repr

/-- A copy of the flash directory (R480): whether its CRC-32C holds, the active stage-1 slot, and the SVN of each slot. -/
structure FlashDir where
  valid : Bool := false
  active : Nat := 0
  svnA : Nat := 0
  svnB : Nat := 0
  deriving DecidableEq, Repr

/-- What the gateway holds of itself beside its objects: the processors a debugger holds halted, by code (R505); the
dies for which OT_THROTTLE is set, in sensor order; self-test. -/
structure Device where
  halted : Nat := 0
  /-- The device secret (R497) and how often it has been drawn; empty before the first draw. -/
  secret : List Byte := []
  secretGen : Nat := 0
  hot : Nat := 0
  bist : Bist := {}
  /-- The state DEV_CMD asked for in LINE_HOLD, while the compute dies return (R476); PWR_CMD ACTIVE, until P0 is reached (R508). -/
  returning : Option DevState := none
  waking : Bool := false
  /-- The image store (Table 18.6): the whole image of each KIND, header and body. -/
  store : SMap (List Byte) := []
  /-- The staged image (R491); the KIND of the activation that runs or soaks, the processors it has still to restart, and the image
  it put out. -/
  staged : Option (List Byte) := none
  actKind : Option Nat := none
  actLeft : List Nat := []
  oldImage : Option (List Byte) := none
  /-- The flash (Table 18.4): the stage-1 slots and the recovery image, the two copies of the directory and which one was written last
  (R480); the image DL_CMD FLASH is writing. -/
  slotA : List Byte := []
  slotB : List Byte := []
  recovery : List Byte := []
  dirA : FlashDir := {}
  dirB : FlashDir := {}
  dirNew : Nat := 0
  flashing : Option (List Byte) := none
  /-- The stage-1 loader that runs. -/
  stage1 : List Byte := []
  /-- The crates that hold the staged image, and those that hold the old image of an activation; an activation waits for the
  emergency flags (R493). -/
  stagedCrates : List Nat := []
  oldCrates : List Nat := []
  deferred : Bool := false
  /-- The factory's data has been taken (R563), and the fused base of the local-fabric MAC addresses. -/
  made : Bool := false
  macBase : Nat := 0
  /-- 3.3 V_AUX is present; a zeroisation failed its read-back, and SEC holds the dies in reset (R509). -/
  auxPresent : Bool := false
  keyHold : Bool := false
  /-- The thermal trip held in the AUX-powered log: sensor and temperature (R524). -/
  trip : Option (Nat × Int) := none
  /-- Rows that throttle steps have lowered and not yet raised again; EV-0x7006 has been logged for the flag that is set. -/
  ramping : Nat := 0
  capLogged : Bool := false
  /-- The OPEN bit of the last key derivation (R498). -/
  keyOpen : Bool := false
  /-- The clocks of the watchdog restarts of each processor in the last 600 s (R445). -/
  wdogs : SMap (List Nat) := []
  /-- The hot-swap switch has opened, and AUX follows (R523). -/
  switchOpen : Bool := false
  /-- Fuses (Table 19.2) no object shows whole: VENDOR_DBG and OWNER. -/
  vendorDbg : List Byte := []
  owner : List Byte := []
  /-- Challenges outstanding by session: purpose, nonce and clock (R502); the purposes a session has passed. -/
  challenges : SMap (Option (Nat × List Byte × Nat)) := []
  passed : List (Nat × Nat) := []
  /-- The clocks of the failed responses by purpose, and the purposes locked out (R503). -/
  failures : SMap (List Nat) := []
  locked : List Nat := []
  /-- The attestation report of each session (R512). -/
  reports : SMap (List Byte) := []
  deriving DecidableEq, Repr

/-- What the gateway emits: messages, frames, writes to other memories and interrupts, in order. -/
inductive Sent where
  /-- A ROP response to a session. -/
  | ropResponse (sess : Nat) (r : RopResp)
  /-- A NOTIFY (R60): sequence number, OVERFLOW and the count lost, and the notifications it carries. -/
  | ropNotify (sess seq : Nat) (overflow : Bool) (lost : Nat) (ns : List Notif)
  /-- The bytes of a message as its datagram carries them on the management port (R48, Table 2.6). -/
  | datagram (sess : Nat) (bytes : List Byte)
  /-- The status of a command that is the write of one object. -/
  | writeAnswer (sess key err : Nat)
  /-- The DTLS answer to a handshake: the session it opened, or a refusal. -/
  | dtlsAnswer (sess : Option Nat)



  /-- RDMA WRITEs to the site's return buffer on a window data queue pair: byte offset and bytes (R134, R138, R459). -/
  | returnWrite (qp offset : Nat) (bytes : List Byte)
  /-- An outcome record written to the outcome buffer with its immediate value (R135). -/
  | outcomeRecord (imm : Nat) (bytes : List Byte)
  /-- A refill request to a source: port, site, number of sources, its number (R140). -/
  | refillRequest (port site k i : Nat)
  /-- What a source states as it serves its share of a refill (R140), with the number of the state transfer that carries the pages. -/
  | refillShare (site k i : Nat) (st : SourceAnswer) (number : Nat)
  /-- A request for one damaged page, of the committed record or not, to a source: port and site (R141). -/
  | pageRequest (port site : Nat) (record : Bool) (page : Nat)

  /-- The answer to a crate request: a handle, or a status (1 TOO_BIG, 2 NO_CRATE). -/
  | crateAnswer (owner handle status : Nat)
  /-- The pin BL_FC_OUT of a board link changes (R245). -/
  | blFcOut (link : Nat) (high : Bool)

  /-- A write to host memory of a PCIe function. -/
  | hostWrite (fn addr : Nat) (bytes : List Byte)


  /-- The body of a frame as it leaves the framer on a carrier (Table 11.2, scrambled, stamp inserted). -/
  | frame (carrier : Nat) (body : List Byte)
  /-- A FEC block as it leaves the encoder: the information symbols and the parity of its eight inner codewords (R326). -/
  | fecBlock (carrier : Nat) (inner : List (List Nat × Nat))
  /-- A tenant's Ethernet frame on a Z4 carrier (R274, R374). -/
  | z4Frame (carrier : Nat) (bytes : List Byte)

  /-- Transfers of the laser bus (R25, R378): a write of a register address and bytes to the module's 7-bit address; a read of `len` bytes
  from a register address on. -/
  | i2cWrite (dev : Nat) (bytes : List Byte)
  | i2cRead (dev reg len : Nat)


  /-- A pulse on PPS_OUT at a second boundary (R526). -/
  | ppsOut
  /-- A PTP message of a local-fabric port's ordinary clock. -/
  | ptpSend (port : Nat) (m : PtpBody)

  /-- A heartbeat symbol, and a crier message, on a board link (R418, R426). -/
  | heartbeat (link sym : Nat)
  | crierMsg (link : Nat) (bytes : List Byte)

  /-- An ARP announcement of an IPv4 address, and an unsolicited neighbour advertisement of an IPv6 address, that a port sends with a
  MAC address as source (R454). -/
  | arpAnnounce (port mac addr : Nat)
  | neighbourAdvert (port mac addr : Nat)
  /-- CM answers on QP1 (R458, R459): the queue pair and the private data of a REP; a REJ. -/
  | cmRep (port qpn : Nat) (priv : List Byte)
  | cmRej (port : Nat)
  /-- RDMA responses (R457, R460, R461); a NAK with its code (`nakAccess`, `nakOperational`). -/
  | rdmaAck (qp : Nat)
  | rdmaNak (qp code : Nat)
  /-- A CNP, by which the gateway answers a CE-marked packet of a queue pair (R457). -/
  | cnp (qp : Nat)
  | rdmaReadData (qp : Nat) (bytes : List Byte)
  /-- A tenant Ethernet frame on a local-fabric port (R456). -/
  | ethOut (port : Nat) (bytes : List Byte)
  /-- What this end gives of itself when a board link comes up (R10). -/
  | linkIdentity (link group place : Nat)
  /-- A board-group message on a board link (R463). -/
  | blMessage (link : Nat) (body : List Byte)
  /-- What one end of a state transfer tells the other, whose messages the spec does not lay out (R21, R218, R469): a byte range asked
  for again; the transfer's seal confirmed, or the transfer given up. -/
  | xferAgain (site number offset bytes : Nat)
  | xferAnswer (site number : Nat) (confirmed : Bool)
  /-- An MSI-X message of a function (R466, R467). -/
  | interrupt (fn vector : Nat)

  /-- PMBus answers (R471): a LINEAR11 or bits word, a byte, a block; a command byte that is not acknowledged. -/
  | pmbusWord (cmd word : Nat)
  | pmbusByte (cmd v : Nat)
  | pmbusBlock (cmd : Nat) (bytes : List Byte)
  | pmbusNack (cmd : Nat)
  /-- Answers of the management port (R470): the MAC address for an IPv4 or IPv6 address, an echo reply. -/
  | mgmtAddress (v6 : Bool) (addr mac : Nat)
  | mgmtEcho (v6 : Bool) (addr : Nat) (data : List Byte)
  /-- A read of an image from host memory by DMA (R484, R494). -/
  | imageRead (addr len : Nat)
  deriving DecidableEq, Repr

/-- An output that waits for its local-fabric port: a class of R455 (0 data, 1 control) on a port, or, with `byId`, on the port that
carries the identity of one (R454). -/
structure FabWait where
  port : Nat
  byId : Bool
  cls : Nat
  msg : Sent
  deriving DecidableEq, Repr

/-- The state of the gateway. -/
structure State where
  /-- The device state (DEV_STATE). -/
  devState : DevState := .off

  /-- Objects, sessions, commit groups, event log. -/
  dict : Dict := {}

  /-- Collective groups, collectives and held arrivals. -/
  coll : CollEngine := {}

  /-- The optimizer shard region and the step engine. -/
  os : OuterStep := {}

  /-- Device memory by device address: HBM, on-chip crates and the stall-store window. -/
  mem : SMap Byte := []
  /-- Poisoned 64-bit words of device memory, by address / 8. -/
  poison : SMap Bool := []
  /-- The 64 MiB row exchange space (R147). -/
  rowx : SMap Byte := []
  /-- Poisoned 64-bit words of the exchange space, by address / 8. -/
  rowxPoison : SMap Bool := []
  /-- Stalls, tallies, placements, programs, histograms. -/
  comp : Compute := {}

  /-- Crate metadata, free stores, waiting requests and island FIFOs. -/
  pools : CratePools := {}

  /-- Porter channels and staging. -/
  port : Porters := {}

  /-- Transmit queues, shapers, policers and credit. -/
  sched : Sched := {}

  /-- Carriers, line ports, keys, the re-send store and lasers. -/
  line : Line := {}

  /-- Counter, time base, servo and time transfer. -/
  time : TimeBase := {}

  /-- Heartbeats, suspicions and promotion. -/
  crier : CrierEngine := {}

  /-- Rings, mailboxes, functions, queue pairs, fabric ports and board links. -/
  host : HostSide := {}
  /-- Outputs on the local fabric that wait while their class is paused or their port is not UP, oldest first (R454, R455). -/
  fabWait : List FabWait := []

  /-- Processors, start-up, firmware, security, power and self-test. -/
  dev : Device := {}
  /-- What the gateway has sent, oldest first (the model's own record of its outputs). -/
  sent : List Sent := []
  /-- Counts the free values taken so far (the model's own field; log entry 2). -/
  freeCtr : Nat := 0
  /-- The commands that are waiting, first in, first out. -/
  pending : List Instr := []
  deriving DecidableEq, Repr

/-- The machine right after reset: no supply is applied, every object reads its default (R7), and
every register the spec gives no reset value holds the value its log entry names. -/
def State.reset : State := {}

/-- The ways a step stops with a fault. -/
inductive Fault where
  /-- Nothing in this model raises it: every access the spec gives an outcome has that outcome. Kept so that a stop of the machine has a
  name. Safe. -/
  | stuck
  deriving DecidableEq, Repr

/-- The ways a step is refused. -/
inductive Refusal where
  /-- Raised by `exec` for a command whose meaning is not written yet. Safe. -/
  | notModelled (mnemonic : String)
  deriving DecidableEq, Repr

end Sys2Proof.Machine
end

