-- ==== Sys2Proof/Machine/Ops.lean ====
section
/-! DEFINITION. The named operations every meaning is written with: sparse maps, objects, memory,
outputs, free values, the time base and the event log. -/

namespace Sys2Proof.Machine

/-! ### Sparse maps -/

/-- What key `k` reads as; `d` gives what an unlisted key reads as. -/
def smGet {α : Type} (d : Nat → α) (k : Nat) : SMap α → α
  | [] => d k
  | (j, v) :: r => if j = k then v else smGet d k r

/-- Remove key `k`. -/
def smErase {α : Type} (k : Nat) : SMap α → SMap α
  | [] => []
  | (j, v) :: r => if j = k then smErase k r else (j, v) :: smErase k r

/-- Place `(k, v)` before the first larger key. -/
def smInsert {α : Type} (k : Nat) (v : α) : SMap α → SMap α
  | [] => [(k, v)]
  | (j, w) :: r => if k < j then (k, v) :: (j, w) :: r else (j, w) :: smInsert k v r

/-- Make key `k` read as `v`, keeping the canonical form: a value equal to what an unlisted key reads
as removes the entry. -/
def smPut {α : Type} [DecidableEq α] (d : Nat → α) (k : Nat) (v : α) (m : SMap α) : SMap α :=
  if v = d k then smErase k m else smInsert k v (smErase k m)

/-- The entries of a run of values from key `b` on that differ from what an unlisted key reads as. -/
def smCells {α : Type} [DecidableEq α] (d : Nat → α) (b : Nat) : List α → SMap α
  | [] => []
  | v :: vs => if v = d b then smCells d (b + 1) vs else (b, v) :: smCells d (b + 1) vs

/-- Make the keys from `b` on read as a run of values. -/
def smPutRun {α : Type} [DecidableEq α] (d : Nat → α) (b : Nat) (vs : List α) (m : SMap α) : SMap α :=
  m.filter (fun c => c.1 < b) ++ smCells d b vs ++ m.filter (fun c => b + vs.length ≤ c.1)

/-- The canonical form: every key above `lo`, keys strictly rising, no entry equal to what an unlisted
key reads as. -/
def smWfFrom {α : Type} [DecidableEq α] (d : Nat → α) : Option Nat → SMap α → Bool
  | _, [] => true
  | lo, (j, v) :: r =>
    (match lo with | none => true | some l => decide (l < j)) && decide (v ≠ d j) && smWfFrom d (some j) r

/-- The canonical form of a sparse map. -/
def smWf {α : Type} [DecidableEq α] (d : Nat → α) (m : SMap α) : Bool := smWfFrom d none m

/-! ### Outputs and free values -/

/-- Append one output. -/
def emit (o : Sent) (s : State) : State := { s with sent := s.sent ++ [o] }

/-- The free value at a place the spec leaves open, at the present count. -/
def freeAt (label : Nat) (s : State) : Nat := Config.freeValue label s.freeCtr

/-- Advance the free-value count, so that the next free value is another one. -/
def freeNext (s : State) : State := { s with freeCtr := s.freeCtr + 1 }

/-! ### The object directory -/

/-- The key of an object in the object store. -/
def objKey (idx sub : Nat) : Nat := idx * 256 + sub

/-- The directory row that holds an object. -/
def findDesc (idx sub : Nat) : Option ObjDesc :=
  objTable.find? fun d => d.idxLo ≤ idx && idx ≤ d.idxHi && d.subLo ≤ sub && sub ≤ d.subHi

/-- Whether any object has the index (R34). -/
def hasIndex (idx : Nat) : Bool := objTable.any fun d => d.idxLo ≤ idx && idx ≤ d.idxHi

/-- The highest subindex in use at an index (R33). -/
def maxSub (idx : Nat) : Nat :=
  (objTable.filter fun d => d.idxLo ≤ idx && idx ≤ d.idxHi).foldl (fun m d => max m d.subHi) 0

/-- The default of a row's object: the listed defaults in index and subindex order, the last one repeated; empty for STR and BLOB (Table
2.15). -/
def ObjDesc.default (d : ObjDesc) (idx sub : Nat) : ObjVal :=
  match d.ty with
  | .str | .blob => .bytes []
  | _ =>
    let n := (idx - d.idxLo) * (d.subHi + 1 - d.subLo) + (sub - d.subLo)
    .num (match d.dflt[n]? with | some v => v | none => d.dflt.getLastD 0)

/-- What an object reads as until it is written (R7). -/
def objDefault (key : Nat) : ObjVal :=
  match findDesc (key / 256) (key % 256) with
  | some d => d.default (key / 256) (key % 256)
  | none => .num 0

/-- The stored value of an object. -/
def getObj (key : Nat) (s : State) : ObjVal := smGet objDefault key s.dict.objs

/-- Store a value of an object. -/
def setObj (key : Nat) (v : ObjVal) (s : State) : State :=
  { s with dict := { s.dict with objs := smPut objDefault key v s.dict.objs } }

/-- The number an object value holds. -/
def ObjVal.toNat : ObjVal → Nat
  | .num n => n
  | .bytes _ => 0

/-- The bytes an object value holds. -/
def ObjVal.toBytes : ObjVal → List Byte
  | .num _ => []
  | .bytes bs => bs

/-- The stored number of an object. -/
def getN (key : Nat) (s : State) : Nat := (getObj key s).toNat

/-- Store a number. -/
def setN (key v : Nat) (s : State) : State := setObj key (.num v) s

/-- The stored bytes of a STR or BLOB. -/
def getB (key : Nat) (s : State) : List Byte := (getObj key s).toBytes

/-- Store bytes. -/
def setB (key : Nat) (bs : List Byte) (s : State) : State := setObj key (.bytes bs) s

/-- The width in bits of an object's number; 64 where it has no fixed size. -/
def objBits (key : Nat) : Nat :=
  match findDesc (key / 256) (key % 256) with
  | some d => match d.ty.size with | some n => 8 * n | none => 64
  | none => 64

/-- The signed value of an I32 or I64 object. -/
def getI (key : Nat) (s : State) : Int := toSigned (objBits key) (getN key s)

/-- Store a signed value. -/
def setI (key : Nat) (i : Int) (s : State) : State := setN key (ofSigned (objBits key) i) s

/-- Add to a counter object; it wraps at its width (log entry 8). -/
def addN (key n : Nat) (s : State) : State := setN key ((getN key s + n) % 2 ^ objBits key) s

/-- Raise a peak object to a value. -/
def maxN (key v : Nat) (s : State) : State := if getN key s < v then setN key v s else s

/-- Set bit `k` of an object. -/
def setObjBit (key k : Nat) (b : Bool) (s : State) : State := setN key (putBit (getN key s) k b) s

/-! ### The time base -/

/-- The raw counter C (R401): 1.25 GHz clocks in units of 2⁻¹⁶ ns. -/
def rawCounter (s : State) : Nat := s.time.clocks * 262144 / 5 % 2 ^ 64

/-- TB (R402). -/
def timeBase (s : State) : Nat :=
  let dc := (rawCounter s + 2 ^ 64 - s.time.c0) % 2 ^ 64
  ((s.time.base + dc : Nat) + ((dc : Int) * s.time.adj) / (2 ^ 48 : Nat)).toNat % 2 ^ 96

/-- The seconds of the TIME80 view (Table 15.1). -/
def timeSec (s : State) : Nat := timeBase s / (1000000000 * 65536)

/-- The nanoseconds of the TIME80 view (Table 15.1). -/
def timeNs (s : State) : Nat := timeBase s % (1000000000 * 65536) / 65536

/-- The low 64 bits of TB (Table 15.1). -/
def timeLow64 (s : State) : Nat := timeBase s % 2 ^ 64

/-! ### Sessions and the event log -/

/-- A session that is not open. -/
def Session.closed : Session := {}

/-- A session by number (Table 2.5). -/
def getSess (n : Nat) (s : State) : Session := smGet (fun _ => Session.closed) n s.dict.sessions

/-- Store a session. -/
def setSess (n : Nat) (x : Session) (s : State) : State :=
  { s with dict := { s.dict with sessions := smPut (fun _ => Session.closed) n x s.dict.sessions } }

/-- Queue a notification for a session; at 256 the oldest is discarded and counted (R60). -/
def Session.enqueue (n : Notif) (x : Session) : Session :=
  if x.queue.length < 256 then { x with queue := x.queue ++ [n] }
  else { x with queue := x.queue.tail ++ [n], lost := x.lost + 1, overflow := true }

/-- Whether a subscription is an event filter that takes an event code (R59). -/
def Subscr.takesEvent (code : Nat) (b : Subscr) : Bool :=
  b.mode == 3 && b.first ≤ code && code ≤ b.last && b.minSev ≤ evSeverity code

/-- Deliver an event record to every session with a matching filter (R71). -/
def notifyEvent (r : EvRec) (m : SMap Session) : SMap Session :=
  m.map fun p => if p.2.subs.any (Subscr.takesEvent r.code) then (p.1, p.2.enqueue (.event r)) else p

/-- The event record of an event raised now (Table 2.12, R71). -/
def evRecord (code arg : Nat) (s : State) : EvRec :=
  { code := code, arg := arg, seq := s.dict.evSeq + 1, sec := timeSec s, nsec := timeNs s,
    again := s.dict.log.any fun r => r.code == code && r.arg == arg && !r.read, read := false }

/-- Write one event record and deliver it, without the overflow event of R60. -/
def logOne (code arg : Nat) (s : State) : State :=
  let r := evRecord code arg s
  { s with dict := { s.dict with log := s.dict.log ++ [r], evSeq := s.dict.evSeq + 1,
                                 sessions := notifyEvent r s.dict.sessions } }

/-- The sessions whose queue began to overflow between two session maps. -/
def newOverflows (before after : SMap Session) : List Nat :=
  (after.filter fun p => p.2.overflow && !(smGet (fun _ => Session.closed) p.1 before).overflow).map (·.1)

/-- EV-0x0404 for each session of a list, and for each whose queue begins to overflow by the delivery of one of them (R60; log entry
14). A queue that overflows does so until a NOTIFY leaves, so each of the 73 sessions comes once at most, and `k` bounds their number. -/
def logOverflows : Nat → List Nat → State → State
  | 0, _, s => s
  | _, [], s => s
  | k + 1, n :: ns, s =>
    let t := logOne 0x0404 n s
    logOverflows k (ns ++ newOverflows s.dict.sessions t.dict.sessions) t

/-- Log an event (R71); a session whose notification queue begins to overflow by it logs EV-0x0404 (R60). -/
def logEvent (code arg : Nat) (s : State) : State :=
  let t := logOne code arg s
  logOverflows 73 (newOverflows s.dict.sessions t.dict.sessions) t

/-- A translation or completion error of host memory is logged: the function and the address (R464, Table 17.14). -/
def hostFault (fn addr : Nat) (s : State) : State := logEvent 0x3804 (fn % 2 ^ 16 * 2 ^ 48 + addr % 2 ^ 48) s

/-- Queue a notification for one session, logging EV-0x0404 when its queue begins to overflow (R60). -/
def queueNotif (n : Nat) (v : Notif) (s : State) : State :=
  let x := getSess n s
  let y := x.enqueue v
  let t := setSess n y s
  if y.overflow && !x.overflow then logOverflows 73 [n] t else t

/-! ### Device state -/

/-- The code DEV_STATE reads. -/
def DevState.code : DevState → Nat
  | .off => 0 | .aux => 1 | .boot => 2 | .load => 3 | .init => 4 | .ready => 5 | .service => 6
  | .lineHold => 7 | .safe => 8 | .halt => 9

/-- Whether feature bit `k` is active (R70). -/
def featActive (k : Nat) (s : State) : Bool :=
  if k < 64 then bitOf (getN O.FEAT_ACTIVE s) k else bitOf (getN (O.FEAT_ACTIVE + 1) s) (k - 64)

end Sys2Proof.Machine
end

