-- ==== Sys2Proof/Machine/Memory.lean ====
section
/-! DEFINITION. Device memory and the row exchange space: bytes, poison, the HBM map (R220) and the
addresses of crates and stall stores (R222, R223, R252). -/

namespace Sys2Proof.Machine

/-! ### Bytes -/

/-- What an unlisted byte of memory reads as (log entry 5). -/
def memDefault (_ : Nat) : Byte := 0#8

/-- The cells that `bs` at address `a` lists: every byte that differs from an unlisted one. -/
def memCells (a : Nat) : List Byte → List Host.Cell
  | [] => []
  | b :: bs => if b = 0#8 then memCells (a + 1) bs else (a, b) :: memCells (a + 1) bs

/-- Store bytes at an address, keeping the canonical form. -/
def memWrite (a : Nat) (bs : List Byte) (m : SMap Byte) : SMap Byte :=
  m.filter (fun c => c.1 < a) ++ memCells a bs ++ m.filter (fun c => a + bs.length ≤ c.1)

/-- Load bytes from an address. -/
def memRead (a n : Nat) (m : SMap Byte) : List Byte :=
  (List.range n).map fun i => smGet memDefault (a + i) m

/-- The canonical form of a memory: addresses strictly rising, no entry equal to an unlisted byte. -/
def Memory.wf (m : List Host.Cell) : Bool := smWf memDefault m

/-- Whether word `w` (address / 8) is poisoned. -/
def poisonAt (w : Nat) (m : SMap Bool) : Bool := smGet (fun _ => false) w m

/-- The poison map after a write of `n` bytes at `a`: words that the write covers whole lose their
poison, and words that a poisoned byte falls in gain it. -/
def poisonWrite (a : Nat) (ps : List Bool) (m : SMap Bool) : SMap Bool :=
  let n := ps.length
  let whole := (List.range (n / 8 + 2)).filterMap fun i =>
    let w := a / 8 + i
    if a ≤ 8 * w ∧ 8 * w + 8 ≤ a + n then some w else none
  let cleared := m.filter fun c => !(whole.contains c.1)
  (List.range n).foldl (fun acc i =>
    if ps.getD i false then smPut (fun _ => false) ((a + i) / 8) true acc else acc) cleared

/-- Device memory bytes. -/
def readDev (a n : Nat) (s : State) : List Byte := memRead a n s.mem

/-- Device memory bytes with their poison (R145, R237). -/
def readDevP (a n : Nat) (s : State) : List (Byte × Bool) :=
  (List.range n).map fun i => (smGet memDefault (a + i) s.mem, poisonAt ((a + i) / 8) s.poison)

/-- Store clean bytes in device memory. -/
def writeDev (a : Nat) (bs : List Byte) (s : State) : State :=
  { s with mem := memWrite a bs s.mem, poison := poisonWrite a (bs.map fun _ => false) s.poison }

/-- Store bytes with their poison in device memory. -/
def writeDevP (a : Nat) (bs : List (Byte × Bool)) (s : State) : State :=
  { s with mem := memWrite a (bs.map (·.1)) s.mem, poison := poisonWrite a (bs.map (·.2)) s.poison }

/-- Clear a range of device memory. -/
def zeroDev (a n : Nat) (s : State) : State :=
  { s with mem := s.mem.filter (fun c => c.1 < a || a + n ≤ c.1),
           poison := s.poison.filter (fun c => 8 * c.1 + 7 < a || a + n ≤ 8 * c.1) }

/-- Exchange bytes with their poison. -/
def readRowx (a n : Nat) (s : State) : List (Byte × Bool) :=
  (List.range n).map fun i => (smGet memDefault (a + i) s.rowx, poisonAt ((a + i) / 8) s.rowxPoison)

/-- Store bytes with their poison in the exchange space. -/
def writeRowx (a : Nat) (bs : List (Byte × Bool)) (s : State) : State :=
  { s with rowx := memWrite a (bs.map (·.1)) s.rowx, rowxPoison := poisonWrite a (bs.map (·.2)) s.rowxPoison }

/-- Bytes that carry no poison. -/
def clean (bs : List Byte) : List (Byte × Bool) := bs.map fun b => (b, false)

/-- Whether any byte carries poison. -/
def anyPoison (bs : List (Byte × Bool)) : Bool := bs.any (·.2)

/-! ### The HBM map (R220) -/

def gib : Nat := 1073741824
def mib : Nat := 1048576

/-- The end of HBM: 216,000,000,000 bytes. -/
def hbmEnd : Nat := 216000000000

/-- The re-send store's base. -/
def resendBase : Nat := 12 * gib

/-- The optimizer shard region's base for a re-send store of `g` GiB. -/
def optBaseOf (g : Nat) : Nat := resendBase + g * gib

/-- The size of the optimizer shard region for a re-send store of `g` GiB (OS_REGION_BYTES). -/
def optSizeOf (g : Nat) : Nat := hbmEnd - optBaseOf g

/-! ### Crates (Table 8.3, R222, R223, R225) -/

/-- The size of a crate of a class; 0 for no class. -/
def classSize : Nat → Nat
  | 1 => 256 | 2 => 2048 | 3 => 8192 | 4 => 16384 | 5 => 65536 | 6 => 1048576 | _ => 0

/-- The H1M crates the rings take: the least number that holds 4 bytes for each allocatable HBM crate
(R225). -/
def ringCrates (h16 h64 h1m : Nat) : Nat :=
  ((List.range 8).find? fun r => decide (4 * (h16 + h64 + (h1m - r)) ≤ r * mib)).getD 8

/-- The counts of the HBM classes for pool sizes in MiB. -/
def hbmCounts (m16 m64 m1 : Nat) : Nat × Nat × Nat :=
  let h16 := m16 * 64; let h64 := m64 * 16
  (h16, h64, m1 - ringCrates h16 h64 m1)

/-- The crates of a class (Table 8.3). -/
def classCount (cls : Nat) (s : State) : Nat :=
  let (h16, h64, h1m) := hbmCounts (getN O.POOL_H16K_MIB s) (getN O.POOL_H64K_MIB s) (getN O.POOL_H1M_MIB s)
  match cls with
  | 1 => 32768 | 2 => 8192 | 3 => 2048 | 4 => h16 | 5 => h64 | 6 => h1m | _ => 0

/-- The reserve of a class (R228). -/
def classReserve (cls : Nat) (s : State) : Nat := classCount cls s / 16

/-- The class code of a handle. -/
def handleClass (h : Nat) : Nat := h / 2 ^ 28

/-- The index of a handle. -/
def handleIndex (h : Nat) : Nat := h % 2 ^ 28

/-- The handle of a class and index. -/
def mkHandle (cls idx : Nat) : Nat := cls * 2 ^ 28 + idx

/-- Whether a handle is valid (R222). -/
def handleValid (h : Nat) (s : State) : Bool :=
  let c := handleClass h
  1 ≤ c && c ≤ 6 && handleIndex h < classCount c s

/-- The per-die count and class offset of an on-chip class (R223). -/
def onChipGeom : Nat → Nat × Nat
  | 1 => (16384, 0) | 2 => (4096, 0x400000) | _ => (1024, 0xC00000)

/-- The device address of byte 0 of a crate (R223). -/
def crateAddr (h : Nat) (s : State) : Nat :=
  let i := handleIndex h
  match handleClass h with
  | 4 => i * 16384
  | 5 => getN O.POOL_H16K_MIB s * mib + i * 65536
  | 6 => (getN O.POOL_H16K_MIB s + getN O.POOL_H64K_MIB s) * mib + i * 1048576
  | c =>
    let (per, off) := onChipGeom c
    0xF000000000 + (if i < per then 0 else 0x100000000) + off + (i % per) * classSize c

/-- The stall-store window (R252). -/
def stallBase (st : Nat) : Nat := 0xF800000000 + st * 0x200000

/-- The histogram window of R197 and its clearing alias. -/
def histBase : Nat := 0xFE00000000
def histAlias : Nat := 0xFE00100000

/-- The device addresses that exist: HBM, the on-chip crates, the stall-store window and the histogram window. -/
def devExists (a : Nat) : Bool :=
  a < hbmEnd
    || (0xF000000000 ≤ a && a < 0xF001400000) || (0xF100000000 ≤ a && a < 0xF101400000)
    || (0xF800000000 ≤ a && a < 0xF810000000)
    || (histBase ≤ a && a < histBase + 0x40000) || (histAlias ≤ a && a < histAlias + 0x40000)

end Sys2Proof.Machine
end

