-- ==== Sys2Proof/Machine/CrateOps.lean ====
section
/-! DEFINITION. The crate manager's operations, shared by every family: free stores, allocation
(R224 to R230), references and release (R231 to R234), the flags (R236) and crate lists (R238). -/

namespace Sys2Proof.Machine

/-- The metadata of a crate never handed out. -/
def Crate.free0 : Crate := {}

/-- A crate's metadata. -/
def getCrate (h : Nat) (s : State) : Crate := smGet (fun _ => Crate.free0) h s.pools.crates

/-- Store a crate's metadata. -/
def setCrate (h : Nat) (c : Crate) (s : State) : State :=
  { s with pools := { s.pools with crates := smPut (fun _ => Crate.free0) h c s.pools.crates } }

/-! ### Free stores (R224) -/

/-- The number of handles in a list of runs. -/
def runsLen (rs : List (Nat × Nat)) : Nat := (rs.map (·.2)).sum

/-- The first `n` handles of a list of runs, and the rest. -/
def splitRuns : Nat → List (Nat × Nat) → List (Nat × Nat) × List (Nat × Nat)
  | _, [] => ([], [])
  | n, (i, k) :: rs =>
    if n = 0 then ([], (i, k) :: rs)
    else if n < k then ([(i, n)], (i + n, k - n) :: rs)
    else let r := splitRuns (n - k) rs; ((i, k) :: r.1, r.2)

/-- A list of runs begun at its handle number `k`. -/
def rotRuns (k : Nat) (rs : List (Nat × Nat)) : List (Nat × Nat) := let r := splitRuns k rs; r.2 ++ r.1

/-- The runs of the indices below `n` that are not in a list. -/
def runsWithout (n : Nat) (used : List Nat) : List (Nat × Nat) :=
  let cuts := used.filter (· < n)
  (((n :: cuts).filterMap fun c =>
    let b := (cuts.filter (· < c)).foldl (fun m x => max m (x + 1)) 0
    if b < c then some (b, c - b) else none).mergeSort fun a b => a.1 ≤ b.1)

/-- The free store of `n` handles with none used: the cache holds 448 at power-up (log entry 16). -/
def FreeStore.fresh (n : Nat) (used : List Nat) : FreeStore :=
  let r := splitRuns 448 (runsWithout n used)
  { cache := r.1, ring := r.2 }

/-- The free store of an HBM class as it stands at reset, with the pools' default sizes. -/
def storeDefault (cls : Nat) : FreeStore :=
  match cls with
  | 4 => { cache := [(0, 448)], ring := [(448, 65088)] }
  | 5 => { cache := [(0, 448)], ring := [(448, 32320)] }
  | 6 => { cache := [(0, 448)], ring := [(448, 4671)] }
  | _ => {}

/-- The free store of an HBM class. -/
def getStore (cls : Nat) (s : State) : FreeStore := smGet storeDefault cls s.pools.stores

/-- Set the free store of an HBM class. -/
def setStore (cls : Nat) (f : FreeStore) (s : State) : State :=
  { s with pools := { s.pools with stores := smPut storeDefault cls f s.pools.stores } }

/-- The handles in a class's cache. -/
def cacheLevel (cls : Nat) (s : State) : Nat := runsLen (getStore cls s).cache

/-- Up to 256 handles move from the ring to the cache. -/
def FreeStore.refill (f : FreeStore) : FreeStore :=
  let r := splitRuns 256 f.ring
  { cache := f.cache ++ r.1, ring := r.2 }

/-- 256 handles of the cache, those from place `k` on, go to the ring (log entry 16). -/
def FreeStore.spill (k : Nat) (f : FreeStore) : FreeStore :=
  let r := splitRuns 256 (rotRuns k f.cache)
  { cache := r.2, ring := f.ring ++ r.1 }

/-- A damaged word of a class's ring: its two handles are lost to the pool (Table 8.5). Where a handle lies in the ring is not stated (free
value 16). -/
def loseHandles (cls : Nat) (s : State) : State :=
  let f := getStore cls s
  let r := splitRuns (freeAt 16 s % max 1 (runsLen f.ring)) f.ring
  let w := splitRuns 2 r.2
  let hs := w.1.flatMap fun x => (List.range x.2).map fun i => mkHandle cls (x.1 + i)
  let t := setStore cls { f with ring := r.1 ++ w.2 } (freeNext s)
  { t with pools := { t.pools with lost := t.pools.lost ++ hs } }

/-- The crates of a class that are not FREE. -/
def classHeld (cls : Nat) (s : State) : Nat :=
  (s.pools.crates.filter fun c => handleClass c.1 == cls && c.2.rstate != 0).length

/-- The free crates of a class: by its bitmap, or by its free store. -/
def classFree (cls : Nat) (s : State) : Nat :=
  if cls ≤ 3 then classCount cls s - classHeld cls s else cacheLevel cls s + runsLen (getStore cls s).ring

/-- The first FREE index of a class at or above `i`, looking at `fuel` indices. -/
def firstFree (cls : Nat) (s : State) : Nat → Nat → Option Nat
  | 0, _ => none
  | fuel + 1, i =>
    if (getCrate (mkHandle cls i) s).rstate = 0 then some i else firstFree cls s fuel (i + 1)

/-- The lowest FREE index of an on-chip class on a line die, or a handle of an HBM class's cache; which of them is not stated (R224; free
value 16, log entry 16). -/
def pickFree (cls die : Nat) (s : State) : Option Nat :=
  if cls ≤ 3 then
    let per := (onChipGeom cls).1
    firstFree cls s (min (s.pools.crates.length + 1) per) (die * per)
  else
    let c := (getStore cls s).cache
    if c.isEmpty then none else some ((rotRuns (freeAt 16 s % runsLen c) c).headD (0, 0)).1

/-- A handle taken out of a class's cache. -/
def dropCached (cls i : Nat) (s : State) : State :=
  let f := getStore cls s
  setStore cls { f with cache := f.cache.flatMap fun r =>
    if r.1 ≤ i ∧ i < r.1 + r.2 then [(r.1, i - r.1), (i + 1, r.1 + r.2 - i - 1)].filter (·.2 != 0) else [r] } (freeNext s)

/-- The line dies a location lets an on-chip class come from, the requester's own first (R227). -/
def locDies (loc die : Nat) : List Nat := if loc = 0 then [die] else [die, 1 - die]

/-- The classes a location allows, smallest first (R227). -/
def locClasses (loc : Nat) : List Nat :=
  match loc with
  | 0 | 1 => [1, 2, 3]
  | 2 => [4, 5, 6]
  | _ => [1, 2, 3, 4, 5, 6]

/-- The classes that can hold a request, smallest first. -/
def reqClasses (q : CrateReq) : List Nat := (locClasses q.loc).filter fun c => q.size ≤ classSize c

/-- Whether a class counts as empty to a request (R228); an HBM class with an empty handle cache waits
for its refill (Table 8.5). -/
def classServes (cls : Nat) (q : CrateReq) (s : State) : Bool :=
  let free := classFree cls s
  (if q.prio = 0 then classReserve cls s < free else 0 < free)
    && (cls ≤ 3 || 0 < cacheLevel cls s)
    && !(s.pools.slowRelease && q.prio = 0
        && s.pools.crates.any fun c => handleClass c.1 == cls && c.2.rstate == 2)
    && (locDies q.loc q.die).any fun d => (pickFree cls d s).isSome

/-- Hand a crate of a class to a request (R230, R231): its handle and the state; the contents are zeroed
when the last holder was of another tenant. -/
def takeCrate (cls : Nat) (q : CrateReq) (s : State) : Nat × State :=
  match (locDies q.loc q.die).findSome? fun d => pickFree cls d s with
  | none => (0, s)
  | some i =>
    let h := mkHandle cls i
    let old := getCrate h s
    let s1 := match old.lastTenant with
      | some t => if t = q.tenant.val then s else zeroDev (crateAddr h s) (classSize cls) s
      | none => s
    let s2 := setCrate h { rstate := 1, refs := 1, owner := q.owner, tenant := q.tenant.val,
                           lastTenant := some q.tenant.val } s1
    (h, if cls ≤ 3 then s2 else dropCached cls i s2)

/-- The outcome of a request. -/
inductive CrateResult where
  | served (h : Nat)
  | tooBig
  | noCrate (cls : Nat)
  | wait (cls : Nat)
  deriving DecidableEq, Repr

/-- Whether a request of the same priority waits for the class already (R229: first come, first served;
CONTROL and RESEND go before NORMAL). -/
def queuedAhead (cls : Nat) (q : CrateReq) (s : State) : Bool :=
  s.pools.waiting.any fun w => w.cls == cls && (w.req.prio == q.prio || (q.prio == 0 && w.req.prio != 0))

/-- Serve, spill, make wait or refuse a request (R227 to R229). -/
def tryCrate (q : CrateReq) (s : State) : CrateResult × State :=
  match reqClasses q with
  | [] => (.tooBig, s)
  | cls :: larger =>
    if !queuedAhead cls q s && classServes cls q s then
      let (h, t) := takeCrate cls q s; (.served h, t)
    else
      match (if q.spill then larger.find? fun c => !queuedAhead c q s && classServes c q s else none) with
      | some c => let (h, t) := takeCrate c q s; (.served h, t)
      | none => if q.nowait then (.noCrate cls, s) else (.wait cls, s)

/-- Count and log a refusal with NO_CRATE (R229). -/
def refuseCrate (cls prio : Nat) (s : State) : State :=
  let s1 := addN (O.CRATE_ALLOC_FAIL + (cls - 1)) 1 s
  if smGet (fun _ => false) cls s1.pools.failLogged then s1
  else logEvent 0x5801 (cls * 2 ^ 60 + prio)
    { s1 with pools := { s1.pools with failLogged := smPut (fun _ => false) cls true s1.pools.failLogged } }

/-- A request that is served at once or refused: for the engines that do not wait. -/
def allocNow (q : CrateReq) (s : State) : Option Nat × State :=
  match tryCrate { q with nowait := true } s with
  | (.served h, t) => (some h, t)
  | (.noCrate c, t) => (none, refuseCrate c q.prio t)
  | (_, t) => (none, t)

/-- Count and log a refused crate operation (R222, R230, R231). -/
def badCrateOp (h source : Nat) (s : State) : State :=
  logEvent 0x5802 (h * 2 ^ 32 + source) (addN O.CRATE_BAD_OPS 1 s)

/-- A handle released goes to its class's cache, which spills to the ring when it is full (R224). -/
def cacheRelease (cls i : Nat) (s : State) : State :=
  let f := getStore cls s
  if runsLen f.cache < 512 then setStore cls { f with cache := f.cache ++ [(i, 1)] } s
  else
    let g := f.spill (freeAt 16 s % 512)
    setStore cls { g with cache := g.cache ++ [(i, 1)] } (freeNext s)

/-- Free a crate: its flags clear, its tenant is remembered (R230, R236); an HBM handle goes to the
cache (R224). -/
def freeCrate (h : Nat) (s : State) : State :=
  let c := getCrate h s
  let cls := handleClass h
  let s1 := setCrate h { rstate := 0, lastTenant := c.lastTenant } s
  let s2 := { s1 with pools := { s1.pools with failLogged := smPut (fun _ => false) cls false s1.pools.failLogged } }
  if cls ≤ 3 then s2 else cacheRelease cls (handleIndex h) s2

/-- Whether strict release is in force. -/
def strictRelease (s : State) : Bool := getN O.CRATE_STRICT s == 1

/-- DEREF (R231 to R233). -/
def derefCrate (h source : Nat) (s : State) : State :=
  let c := getCrate h s
  if !handleValid h s || c.rstate != 1 then badCrateOp h source s
  else if 1 < c.refs then setCrate h { c with refs := c.refs - 1 } s
  else if strictRelease s then setCrate h { c with refs := 0, rstate := 2 } s
  else freeCrate h s

/-- The gateway's own holder of a reference releases it; in strict release it then frees the crate it owns (R233; log entry 155). -/
def letGo (h source : Nat) (s : State) : State :=
  let t := derefCrate h source s
  if strictRelease t && (getCrate h t).rstate == 2 && (getCrate h t).owner == source then freeCrate h t else t

/-- One more reference to a crate. -/
def refUp (h : Nat) (s : State) : State :=
  if h = 0 then s else setCrate h { getCrate h s with refs := (getCrate h s).refs + 1 } s

/-- A request made for one of the gateway's own: served now, waiting, or refused (R227 to R229). -/
def crateFor (q : CrateReq) (w : CrateWaiter) (go : Nat → State → State) (s : State) : State :=
  match tryCrate q s with
  | (.served h, t) => go h t
  | (.wait cls, t) => { t with pools := { t.pools with waiting := t.pools.waiting ++ [⟨cls, q, w⟩] } }
  | (.noCrate cls, t) => refuseCrate cls q.prio t
  | (.tooBig, t) => t

/-- The crates in HELD_ZERO. -/
def heldZero (s : State) : List Nat := (s.pools.crates.filter fun c => c.2.rstate == 2).map (·.1)

/-- Strict release is cleared: every crate in HELD_ZERO is to be freed; A1 frees them one per 40 ns (R234, R558). -/
def clearStrict (s : State) : State :=
  let t := setN O.CRATE_STRICT 0 s
  if strictRelease s && !(heldZero s).isEmpty then { t with pools := { t.pools with slowRelease := true } } else t

/-- On entry to READY firmware frees the crates of INIT before the clear (R234, R558). -/
def readyRelease (s : State) : State := setN O.CRATE_STRICT 0 ((heldZero s).foldl (fun u h => freeCrate h u) s)

/-- Set DNT on a crate (R236). -/
def setDnt (h : Nat) (s : State) : State :=
  let c := getCrate h s
  if c.dnt || c.rstate = 0 then s else addN O.CRATE_DNT_SET 1 (setCrate h { c with dnt := true } s)

/-- Set POISON on a crate (R236). -/
def setCratePoison (h : Nat) (s : State) : State :=
  let c := getCrate h s
  if c.poison then s
  else logEvent 0x5804 h (addN O.CRATE_POISON_SET 1 (setCrate h { c with poison := true } s))

/-- The crate that holds a device address: class by class from the pools' places (R220, R223). -/
def crateOfAddr (a : Nat) (s : State) : Option Nat :=
  let p16 := getN O.POOL_H16K_MIB s * mib
  let p64 := p16 + getN O.POOL_H64K_MIB s * mib
  let h :=
    if a < p16 then mkHandle 4 (a / 16384)
    else if a < p64 then mkHandle 5 ((a - p16) / 65536)
    else if a < 8 * gib then mkHandle 6 ((a - p64) / 1048576)
    else
      let d := if a < 0xF100000000 then 0 else 1
      let o := a - 0xF000000000 - d * 0x100000000
      if o < 0x400000 then mkHandle 1 (d * 16384 + o / 256)
      else if o < 0xC00000 then mkHandle 2 (d * 4096 + (o - 0x400000) / 2048)
      else mkHandle 3 (d * 1024 + (o - 0xC00000) / 8192)
  if (a < 8 * gib || (0xF000000000 ≤ a && a < 0xF200000000)) && handleValid h s then some h else none

/-- Write bytes into a crate; poisoned words set POISON (R236). -/
def writeCrate (h o : Nat) (bs : List (Byte × Bool)) (s : State) : State :=
  let t := writeDevP (crateAddr h s + o) bs s
  if anyPoison bs then setCratePoison h t else t

/-- Read bytes of a crate with their poison (R237). -/
def readCrate (h o n : Nat) (s : State) : List (Byte × Bool) := readDevP (crateAddr h s + o) n s

/-- A crier message goes out from its crate, which is released (R228). -/
def crierCrate (link : Nat) (msg : List Byte) (h : Nat) (s : State) : State :=
  letGo h 0x3000 (emit (.crierMsg link msg) (writeCrate h 0 (clean msg) s))

/-! ### Crate lists (R238, Table 8.4) -/

/-- A crate list as read: the FILL flag, TOTAL_BYTES and the entries (handle, bytes). -/
structure CrateList where
  fill : Bool
  total : Nat
  entries : List (Nat × Nat)
  deriving DecidableEq, Repr

/-- Read `n` entries from an address. -/
def readEntries (s : State) : Nat → Nat → List (Nat × Nat)
  | 0, _ => []
  | n + 1, a => (natOfLE (readDev a 4 s), natOfLE (readDev (a + 4) 4 s)) :: readEntries s n (a + 8)

/-- The bytes a crate list takes: its header and its entries. -/
def listSize (a : Nat) (s : State) : Nat := 16 + 8 * min 65536 (natOfLE (readDev a 4 s))

/-- Whether an entry of a list is good (Table 8.4): a valid handle, or none with FILL set, and 1 to the class size of bytes; an entry that
the user is to fill may name any size a crate can have. -/
def entryGood (fill : Bool) (e : Nat × Nat) (s : State) : Bool :=
  1 ≤ e.2 && ((e.1 == 0 && fill && decide (e.2 ≤ mib)) || (handleValid e.1 s && decide (e.2 ≤ classSize (handleClass e.1))))

/-- Read a crate list, or nothing when it breaks a rule of Table 8.4; the reserved flags are ignored (R6). -/
def readList (a : Nat) (s : State) : Option CrateList :=
  let count := natOfLE (readDev a 4 s)
  let fill := natOfLE (readDev (a + 4) 4 s) % 2 == 1
  let total := natOfLE (readDev (a + 8) 8 s)
  if a % 8 ≠ 0 ∨ !devExists a ∨ count = 0 ∨ 65536 < count then none
  else
    let es := readEntries s count (a + 16)
    if (es.all fun e => entryGood fill e s) && (es.foldl (fun t e => t + e.2) 0 == total) then some ⟨fill, total, es⟩ else none

/-- Whether every crate that `n` bytes from an address touch passes a test, and no byte lies outside the crates. -/
def spanCrates (ok : Nat → Bool) (a n : Nat) (s : State) : Bool :=
  (List.range ((n + 255) / 256 + 1)).all fun i => match crateOfAddr (min (a + 256 * i) (a + n - 1)) s with
    | some h => ok h
    | none => false

/-- A crate a tenant holds (R230). -/
def heldBy (tenant h : Nat) (s : State) : Bool := (getCrate h s).rstate == 1 && (getCrate h s).tenant == tenant

/-- A crate that is not FREE and that another tenant holds (R230). -/
def foreignCrate (tenant h : Nat) (s : State) : Bool := (getCrate h s).rstate != 0 && (getCrate h s).tenant != tenant

/-- Whether a tenant's host software may reach a list: it lies in crates that the tenant holds (R230, R238, Table 9.4). -/
def tenantReach (tenant a : Nat) (s : State) : Bool := spanCrates (fun h => heldBy tenant h s) a (listSize a s) s

/-- The crates that a tenant's posting or job may not name in a list: handles that are not valid (R222), and crates held for
another tenant (R230); the crate that holds the list itself among them. -/
def refusedEntries (a tenant : Nat) (s : State) : List Nat :=
  match crateOfAddr a s with
  | some h => if foreignCrate tenant h s then [h] else if a % 8 ≠ 0 then [] else
      let fill := natOfLE (readDev (a + 4) 4 s) % 2 == 1
      ((readEntries s (min 65536 (natOfLE (readDev a 4 s))) (a + 16)).map (·.1)).filter fun h =>
        !(h == 0 && fill) && (!handleValid h s || foreignCrate tenant h s)
  | none => []

/-- Count and log every refused entry of a list (R222, R230). -/
def refuseEntries (a tenant source : Nat) (s : State) : State :=
  (refusedEntries a tenant s).foldl (fun u h => badCrateOp h source u) s

/-- The list entries a byte range touches: index and handle. -/
def listTouched (es : List (Nat × Nat)) (o n : Nat) : List (Nat × Nat) :=
  let ends := es.foldl (fun (a : List (Nat × Nat × Nat) × Nat) e => (a.1 ++ [(a.2, a.2 + e.2, e.1)], a.2 + e.2)) ([], 0)
  (List.range es.length).filterMap fun i => match ends.1[i]? with
    | some (lo, hi, h) => if lo < o + n ∧ o < hi then some (i, h) else none
    | none => none

/-- The list at an address with crates put into the entries that a byte range touches and that name none (FILL, R238): each is requested
with the size of its entry, and gets `refs` references. Nothing when one is refused. -/
def fillList (q : CrateReq) (refs a o n : Nat) (s : State) : Option CrateList × State :=
  match readList a s with
  | none => (none, s)
  | some l =>
    let empty := (listTouched l.entries o n).filter (·.2 == 0)
    let r := empty.foldl (fun (r : Bool × State) e =>
      if !r.1 then r
      else match allocNow { q with size := (l.entries.getD e.1 (0, 1)).2 } r.2 with
        | (some h, t) => (true, writeDev (a + 16 + 8 * e.1) (bytesLE 4 h) (setCrate h { getCrate h t with refs := refs } t))
        | (none, t) => (false, t)) (true, s)
    if r.1 then (if empty.isEmpty then some l else readList a r.2, r.2) else (none, r.2)

/-- The bytes of a list's entries from byte offset `o`, `n` of them, with their poison. -/
def readListBytes (s : State) : List (Nat × Nat) → Nat → Nat → List (Byte × Bool)
  | [], _, _ => []
  | (h, b) :: es, o, n =>
    if n = 0 then []
    else if b ≤ o then readListBytes s es (o - b) n
    else
      let k := min n (b - o)
      readCrate h o k s ++ readListBytes s es 0 (n - k)

/-- Write bytes into a list's crates from byte offset `o` of their concatenation. -/
def writeListBytes : List (Nat × Nat) → Nat → List (Byte × Bool) → State → State
  | [], _, _, s => s
  | (h, b) :: es, o, bs, s =>
    if bs.isEmpty then s
    else if b ≤ o then writeListBytes es (o - b) bs s
    else
      let k := min bs.length (b - o)
      writeListBytes es 0 (bs.drop k) (writeCrate h o (bs.take k) s)

end Sys2Proof.Machine
end

