-- ==== Sys2Proof/Machine/Crc.lean ====
section
/-! DEFINITION. The checks the spec names by generator: the seal CRC-64 (R96), CRC-32C (R301) and the
crier's CRC-8 (Table 16.1). -/

namespace Sys2Proof.Machine

/-- `n` steps of a left-shifting CRC of width `w`. -/
def crcSteps (w poly : Nat) : Nat → Nat → Nat
  | 0, c => c
  | n + 1, c =>
    let t := 2 * c % 2 ^ w
    crcSteps w poly n (if bitOf c (w - 1) then Nat.xor t poly else t)

/-- One byte into a left-shifting CRC. -/
def crcByte (w poly : Nat) (c : Nat) (b : Byte) : Nat :=
  crcSteps w poly 8 (Nat.xor c (b.toNat * 2 ^ (w - 8)))

/-- CRC-64 of ECMA-182: initial value 0, no reflection, no final XOR (R96). -/
def crc64 (bs : List Byte) : Nat := bs.foldl (crcByte 64 0x42F0E1EBA9EA3693) 0

/-- The crier's CRC-8: generator 0x07, initial value 0, no reflection, no final XOR. -/
def crc8 (bs : List Byte) : Nat := bs.foldl (crcByte 8 0x07) 0

/-- `n` steps of the reflected CRC-32C. -/
def crc32cSteps : Nat → Nat → Nat
  | 0, c => c
  | n + 1, c => crc32cSteps n (if c % 2 = 1 then Nat.xor (c / 2) 0x82F63B78 else c / 2)

/-- CRC-32C: generator 0x1EDC_6F41 with input and output reflected (0x82F6_3B78 reversed), initial value
and final XOR of all ones (R301). -/
def crc32c (bs : List Byte) : Nat :=
  Nat.xor (bs.foldl (fun c b => crc32cSteps 8 (Nat.xor c b.toNat)) 0xFFFFFFFF) 0xFFFFFFFF

end Sys2Proof.Machine
end

