-- ==== Sys2Proof/Machine/LineBase.lean ====
section
/-! DEFINITION. Carriers and line ports: accessors, modes, which carriers are in service (R271, R382),
store shares, hold times and caps (R333, R334, R337), and segments as bytes (R315). -/

namespace Sys2Proof.Machine

/-! ### Accessors -/

/-- A dark carrier. -/
def Carrier.dark0 : Carrier := {}

/-- A carrier. -/
def getCar (c : Nat) (s : State) : Carrier := smGet (fun _ => Carrier.dark0) c s.line.carriers

/-- Store a carrier. -/
def setCar (c : Nat) (x : Carrier) (s : State) : State :=
  { s with line := { s.line with carriers := smPut (fun _ => Carrier.dark0) c x s.line.carriers } }

/-- Change a carrier. -/
def modCar (c : Nat) (f : Carrier → Carrier) (s : State) : State := setCar c (f (getCar c s)) s

/-- A port nothing has happened on. -/
def LinePort.new0 : LinePort := {}

/-- A line port. -/
def getPort (n : Nat) (s : State) : LinePort := smGet (fun _ => LinePort.new0) n s.line.ports

/-- Store a line port. -/
def setPort (n : Nat) (x : LinePort) (s : State) : State :=
  { s with line := { s.line with ports := smPut (fun _ => LinePort.new0) n x s.line.ports } }

/-- Change a line port. -/
def modPort (n : Nat) (f : LinePort → LinePort) (s : State) : State := setPort n (f (getPort n s)) s

/-- Change a carrier's ledger. -/
def modLedger (c : Nat) (f : Ledger → Ledger) (s : State) : State :=
  modCar c (fun x => { x with ledger := f x.ledger }) s

/-- The place of instance `k` of an object that runs over 128 subindices of several indices (R179, R270, R297). -/
def inst128 (base k : Nat) : Nat := base + k / 128 * 256 + k % 128

/-- One second in clocks of the raw counter (R401). -/
def clkSec : Nat := 1250000000

/-- Log an event at most `n` times per second for one key (R276, R321, ...). -/
def logLimited (n key code arg : Nat) (s : State) : State :=
  let m := smGet (fun _ => (0, 0)) key s.line.marks
  let fresh := m.2 = 0 || clkSec ≤ s.time.clocks - m.1
  let cnt := if fresh then 0 else m.2
  if cnt < n then
    let m' := (if fresh then s.time.clocks else m.1, cnt + 1)
    logEvent code arg { s with line := { s.line with marks := smPut (fun _ => (0, 0)) key m' s.line.marks } }
  else s

/-- A key of a rate-limited event. -/
def markKey (code id : Nat) : Nat := code * 2 ^ 32 + id

/-! ### Modes (Table 14.1) -/

/-- Net rate in Mb/s of a mode code. -/
def modeNet : Nat → Nat
  | 1 => 400000 | 2 => 800000 | 3 => 1200000 | 4 => 1600000 | 5 => 400000 | _ => 0

/-- The code of mode Z4. -/
def modeZ4 : Nat := 5

/-- Whether a mode is native. -/
def modeNative (m : Nat) : Bool := 1 ≤ m && m ≤ 4

/-- Frame period in ps (Table 11.1). -/
def framePs (m : Nat) : Nat := if modeNet m = 0 then 40960 else 65536000000 / modeNet m

/-! ### Ports and carriers -/

/-- LP_CARRIERS of a port. -/
def lpCarriers (n : Nat) (s : State) : Nat := getN (O.LP_CARRIERS + n) s

/-- The port a carrier belongs to (R271). -/
def portOfCar (c : Nat) (s : State) : Option Nat := (List.range 4).find? fun n => bitOf (lpCarriers n s) c

/-- The carriers of a port. -/
def carsOf (n : Nat) (s : State) : List Nat := bitsSet 8 (lpCarriers n s)

/-- Whether a carrier is in LP_ACTIVE (R271, R382, R391, R440). -/
def carInActive (c : Nat) (s : State) : Bool :=
  let x := getCar c s
  x.cstate == .active && !x.swOut && !x.partnerDrain

/-- LP_ACTIVE of a port as a mask. -/
def lpActive (n : Nat) (s : State) : Nat :=
  ((carsOf n s).filter fun c => carInActive c s).foldl (fun a c => a + 2 ^ c) 0

/-- Whether a port's carrier is in mode Z4 (R274). -/
def portZ4 (n : Nat) (s : State) : Bool :=
  (carsOf n s).any fun c => (getCar c s).mode == modeZ4 || getN (objKey (0x2010 + c) 4) s == 0x20

/-- LP_FAR_ID of a port as it reads: the valid bit is clear while a carrier of the port is in Z4 (R17). -/
def lpFarId (n : Nat) (s : State) : Nat :=
  let v := getN (O.LP_FAR_ID + n) s
  if portZ4 n s then v / 2 * 2 else v

/-- LP_NET_MBPS of a port (R272). -/
def lpNet (n : Nat) (s : State) : Nat :=
  ((carsOf n s).filter fun c => carInActive c s).foldl (fun a c => a + modeNet (getCar c s).mode) 0

/-- Whether a carrier sends frames: its transmitter is neither dark nor shuttered, and its mode is native
(R298). -/
def carSends (c : Nat) (s : State) : Bool :=
  let x := getCar c s
  !x.shutter && (x.cstate == .acquiring || x.cstate == .probing || x.cstate == .active || x.cstate == .draining)
    && x.runMode != modeZ4

/-! ### Shares, hold and cap (R333, R334, R337) -/

/-- The bits set in a mask of eight. -/
def popCount (v : Nat) : Nat := (bitsSet 8 v).length

/-- RS_SHARE_BYTES of a port. -/
def rsShare (n : Nat) (s : State) : Nat :=
  let total := (List.range 4).foldl (fun a k => a + popCount (lpCarriers k s)) 0
  if total = 0 then 0
  else (getN O.HBM_RESEND_GIB s * gib - 128 * mib) * popCount (lpCarriers n s) / total

/-- The round trip of a port in ns (R334). -/
def rttNs (n : Nat) (s : State) : Nat :=
  let r := getN (O.LP_RTT_NS + n) s
  if r = 0 then getN O.RS_RTT_DEFAULT_US s * 1000 else r

/-- hold_n in ns (R334). -/
def holdNs (n : Nat) (s : State) : Nat :=
  let fastest := (carsOf n s).foldl (fun m c => let k := (getCar c s).mode
    if modeNative k then max m k else m) 0
  let cap := 1048576 * framePs (if fastest = 0 then 4 else fastest) / 1000
  min cap (rttNs n s + 1000 * (getN O.RS_HOLD_MARGIN_US s
    + (getN O.LR_REPEAT s - 1) * getN O.LR_SPACING_US s))

/-- cap_n in Mb/s, 0 for no limit (R337). -/
def capMbps (n : Nat) (s : State) : Nat :=
  let c := 8 * rsShare n s * 1000 / holdNs n s
  if lpNet n s ≤ c then 0 else c

/-! ### Applied views (Table 10.8) -/

/-- The key of the object that shows shaper `k`: a queue below 2,048, then class shapers, then port shapers. -/
def shaperKey (k : Nat) : Nat :=
  if k < 2048 then inst128 O.QUEUE_SHAPER k
  else if k < 2080 then O.CLASS_SHAPER + (k - 2048)
  else O.PORT_SHAPER + (k - 2080)

/-- RATE_MBPS, BURST_KIB and WEIGHT of an applied view. -/
def viewRate (v : Nat) : Nat := field v 63 32
def viewBurst (v : Nat) : Nat := field v 31 16
def viewWeight (v : Nat) : Nat := field v 15 8

/-- The rate in force of a shaper (R280, R284). -/
def shaperRate (k : Nat) (s : State) : Nat :=
  if 2080 ≤ k then
    let a := getN (O.LP_CAP_MBPS + (k - 2080)) s
    let b := getN (O.LP_RESEND_CAP_MBPS + (k - 2080)) s
    if a = 0 then b else if b = 0 then a else min a b
  else viewRate (getN (shaperKey k) s)

/-- The burst of a shaper in units of 2⁻¹⁶ bytes. -/
def shaperBurst (k : Nat) (s : State) : Int := (viewBurst (getN (shaperKey k) s) * 1024 * 65536 : Nat)

/-- Tokens a rate in Mb/s adds in some clocks of 0.8 ns, in units of 2⁻¹⁶ bytes (R280). -/
def tokensOver (rate clks : Nat) : Int := (rate * 65536 * clks / 10000 : Nat)

/-- The count of a shaper now: it accumulates up to its burst, and one that stands above it (R555) only falls; before its first use it
stands at the burst (log entry 35). -/
def shaperTokens (k : Nat) (s : State) : Int :=
  let burst := shaperBurst k s
  if shaperRate k s = 0 then burst
  else match smGet (fun _ => (none : Option Bucket)) k s.sched.buckets with
    | none => burst
    | some b => max b.tokens (min burst (b.tokens + tokensOver (shaperRate k s) (s.time.clocks - b.clk)))

/-- Store a shaper's count. -/
def setTokens (k : Nat) (t : Int) (s : State) : State :=
  { s with sched := { s.sched with
      buckets := smPut (fun _ => (none : Option Bucket)) k (some ⟨t, s.time.clocks⟩) s.sched.buckets } }

/-- A shaper's rate changes, or stops limiting, and its count stays as it is (R284): `old` is the state before the change. -/
def keepTokens (old : State) (k : Nat) (s : State) : State :=
  if shaperRate k old = 0 then
    { s with sched := { s.sched with buckets := smErase k s.sched.buckets } }
  else match smGet (fun _ => (none : Option Bucket)) k old.sched.buckets with
    | none => s
    | some _ => setTokens k (shaperTokens k old) s

/-- Recompute what follows from the carriers, the shares and the round trip of one port (R272, R333, R334,
R337); a new cap logs EV-0x2C03 (R284). -/
def refreshPort (n : Nat) (s : State) : State :=
  let s1 := setN (O.LP_ACTIVE + n) (lpActive n s) s
  let s2 := setN (O.LP_NET_MBPS + n) (lpNet n s) s1
  let s3 := setN (O.RS_SHARE_BYTES + n) (rsShare n s) s2
  let s4 := setN (O.RS_HOLD_US + n) (holdNs n s / 1000) s3
  let cap := capMbps n s
  if getN (O.LP_RESEND_CAP_MBPS + n) s4 = cap then s4
  else logEvent 0x2C03 (n * 2 ^ 56 + cap) (keepTokens s4 (2080 + n) (setN (O.LP_RESEND_CAP_MBPS + n) cap s4))

/-- Recompute all four ports. -/
def refreshLine (s : State) : State := (List.range 4).foldl (fun u n => refreshPort n u) s

/-! ### Segments as bytes (Table 11.11, R315) -/

/-- The 64-byte header of a segment. -/
def segHeader (g : Segment) : List Byte :=
  let h := bytesBE 1 g.kind
    ++ bytesBE 1 (128 * ofBool g.blind + 64 * ofBool g.last + 32 * ofBool g.resend)
    ++ bytesBE 1 (g.sc % 8 * 32) ++ bytesBE 1 (g.job % 64 * 4) ++ bytesBE 1 g.src ++ bytesBE 1 g.dst
    ++ bytesBE 2 (64 + g.data.length) ++ bytesBE 2 g.group ++ bytesBE 2 g.epoch ++ bytesBE 4 g.seq
    ++ bytesBE 1 g.op ++ bytesBE 1 g.dir ++ bytesBE 1 g.hop ++ [0#8] ++ bytesBE 4 g.chunk
    ++ bytesBE 8 g.offset ++ bytesBE 4 g.chunkLen ++ bytesBE 8 g.sealV ++ List.replicate 16 0#8
  h ++ bytesBE 4 (crc32c h)

/-- A segment as it lies in a payload. -/
def segBytes (g : Segment) : List Byte := segHeader g ++ g.data

/-- The bytes a segment takes in a payload, up to the next 8-byte boundary. -/
def segLen (g : Segment) : Nat := 64 + g.data.length

/-- A segment from its bytes (header, then data). -/
def segOfBytes (bs : List Byte) : Segment :=
  let f (i n : Nat) : Nat := natOfBE ((bs.drop i).take n)
  { kind := f 0 1, blind := bitOf (f 1 1) 7, last := bitOf (f 1 1) 6, resend := bitOf (f 1 1) 5,
    sc := f 2 1 / 32, job := f 3 1 / 4, src := f 4 1, dst := f 5 1, group := f 8 2, epoch := f 10 2, seq := f 12 4,
    op := f 16 1, dir := f 17 1, hop := f 18 1, chunk := f 20 4, offset := f 24 8, chunkLen := f 32 4,
    sealV := f 36 8, data := bs.drop 64 }

/-- The kinds of Table 11.11. -/
def kColl : Nat := 1
def kCtrl : Nat := 2
def kXfer : Nat := 3
def kEth : Nat := 4

/-- A segment with every field zero. -/
def segZero : Segment :=
  ⟨0, false, false, false, 0, 0, 0, 0, 0, 0, 0, 0, 0, 0, 0, 0, 0, 0, []⟩

/-- What one payload holds (R316): the segments parsed, those of reserved KIND or cut off, and whether a
malformed one ended it. -/
structure Parsed where
  segs : List Segment
  bad : Nat
  malformed : Bool
  deriving DecidableEq, Repr

/-- Parse a payload (R316); `fuel` bounds the segments. -/
def parsePayload : Nat → List Byte → Parsed
  | 0, _ => ⟨[], 0, false⟩
  | fuel + 1, bs =>
    if bs.length < 64 then ⟨[], 0, false⟩
    else
      let h := bs.take 64
      let kind := natOfBE (h.take 1)
      if kind = 0 then ⟨[], 0, false⟩
      else if natOfBE (h.drop 60) ≠ crc32c (h.take 60) then ⟨[], 1, true⟩
      else
        let len := natOfBE ((h.drop 6).take 2)
        if len < 64 ∨ bs.length < len then ⟨[], 1, true⟩
        else
          let r := parsePayload fuel (bs.drop ((len + 7) / 8 * 8))
          if 5 < kind then { r with bad := r.bad + 1 }
          else { r with segs := segOfBytes (bs.take len) :: r.segs }

/-! ### Collective control messages as bytes (Tables 3.7, 3.8 and 10.5) -/

/-- The header of a message. -/
def ctlHead (mtype : Nat) (h : CtlHdr) : List Byte :=
  bytesBE 1 mtype ++ [1#8] ++ bytesBE 2 h.group ++ bytesBE 2 h.epoch ++ bytesBE 1 h.src ++ bytesBE 1 h.dst
    ++ bytesBE 4 h.seq ++ List.replicate 4 0#8

/-- A message's bytes (Tables 3.7 and 3.8). An EPOCH_ACK of n entries, n below 16, carries n entries and no padding behind them (DESIGN
CHOICE, log entry 144). -/
def ctlBytes : CtlMsg → List Byte
  | .hello h b => ctlHead 1 h ++ bytesBE 8 b.descDigest ++ bytesBE 8 b.rangeDigest ++ bytesBE 1 (ofBool b.reply)
  | .confirm h b => ctlHead 2 h ++ bytesBE 1 b.op ++ bytesBE 1 (ofBool b.taint) ++ [0#8, 0#8] ++ bytesBE 4 b.k
      ++ bytesBE 8 b.sealDigest ++ bytesBE 8 b.paramDigest
  | .chunkReq h c a => ctlHead 3 h ++ bytesBE 4 c ++ bytesBE 1 a
  | .cancel h => ctlHead 4 h
  | .endStatus h st ca => ctlHead 5 h ++ bytesBE 1 st ++ bytesBE 1 ca
  | .epochAdv h c => ctlHead 6 h ++ bytesBE 2 c.newEpoch ++ bytesBE 1 c.kind ++ bytesBE 1 c.site ++ bytesBE 4 c.ports
  | .epochAck h e es => ctlHead 7 h ++ bytesBE 2 e ++ bytesBE 1 es.length ++ List.replicate 5 0#8
      ++ es.flatMap fun x => bytesBE 4 x.1 ++ bytesBE 1 x.2 ++ [0#8, 0#8, 0#8]
  | .credit h p pl bl => ctlHead 8 h ++ bytesBE 4 p ++ bytesBE 6 pl ++ bytesBE 6 bl

/-- The EPOCH_ACK entries of a body. -/
def ackEntries (bs : List Byte) : Nat → List (Nat × Nat)
  | 0 => []
  | n + 1 => (natOfBE (bs.take 4), natOfBE ((bs.drop 4).take 1)) :: ackEntries (bs.drop 8) n

/-- The message a CTRL segment's data holds; nothing for a type or version the tables do not list. Bytes missing from a message shorter
than its body read as 0, and of an EPOCH_ACK's entries 16 are read at most (DESIGN CHOICE, log entry 144). -/
def ctlOfBytes (bs : List Byte) : Option CtlMsg :=
  let f (i n : Nat) : Nat := natOfBE ((bs.drop i).take n)
  let h : CtlHdr := ⟨f 2 2, f 4 2, f 6 1, f 7 1, f 8 4⟩
  if f 1 1 ≠ 1 then none
  else match f 0 1 with
  | 1 => some (.hello h ⟨f 16 8, f 24 8, bitOf (f 32 1) 0⟩)
  | 2 => some (.confirm h ⟨f 16 1, bitOf (f 17 1) 0, f 20 4, f 24 8, f 32 8⟩)
  | 3 => some (.chunkReq h (f 16 4) (f 20 1))
  | 4 => some (.cancel h)
  | 5 => some (.endStatus h (f 16 1) (f 17 1))
  | 6 => some (.epochAdv h ⟨f 16 2, f 18 1, f 19 1, f 20 4⟩)
  | 7 => some (.epochAck h (f 16 2) (ackEntries (bs.drop 24) (min 16 (f 18 1))))
  | 8 => some (.credit h (f 16 4) (f 20 6) (f 26 6))
  | _ => none

/-- The header of a message. -/
def ctlHdrOf : CtlMsg → CtlHdr
  | .hello h _ | .confirm h _ | .chunkReq h _ _ | .cancel h | .endStatus h _ _ | .epochAdv h _
  | .epochAck h _ _ | .credit h _ _ _ => h

/-- The SC0 control segment that carries a message (R115). -/
def ctlSegment (tenant : Nat) (m : CtlMsg) : Segment :=
  let h := ctlHdrOf m
  { segZero with kind := kCtrl, sc := 0, job := tenant, src := h.src, dst := h.dst,
                 group := h.group, epoch := h.epoch, seq := h.seq, data := ctlBytes m }

end Sys2Proof.Machine
end

