-- ==== Sys2Proof/Machine/SchedOps.lean ====
section
/-! DEFINITION. Transmit queues, selection, shapers, policers and credit (R275 to R296). -/

namespace Sys2Proof.Machine

/-! ### Queues (R275, R276) -/

/-- An empty queue. -/
def TxQueue.empty : TxQueue := {}

/-- A transmit queue. -/
def getQueue (q : Nat) (s : State) : TxQueue := smGet (fun _ => TxQueue.empty) q s.sched.queues

/-- Store a queue; one that becomes empty loses its deficit (R278). -/
def setQueue (q : Nat) (x : TxQueue) (s : State) : State :=
  let y := if x.segs.isEmpty then TxQueue.empty else x
  { s with sched := { s.sched with queues := smPut (fun _ => TxQueue.empty) q y s.sched.queues } }

/-- The queue of a class, port and tenant; SC0, SC3 and SC6 use tenant 0 (R275). -/
def queueOf (cls port tenant : Nat) : Nat :=
  (if cls = 0 ∨ cls = 3 ∨ cls = 6 then 0 else tenant) * 32 + port * 8 + cls

/-- The class and port of a queue. -/
def queueCls (q : Nat) : Nat := q % 8
def queuePort (q : Nat) : Nat := q / 8 % 4

/-- Segment bytes in a queue. -/
def queueBytes (q : Nat) (s : State) : Nat := (getQueue q s).segs.foldl (fun a x => a + segLen x.seg) 0

/-- Count segments dropped from a queue. -/
def countDrops (q n : Nat) (s : State) : State := if n = 0 then s else addN (inst128 O.QUEUE_DROPS q) n s

/-- Whether a segment fits under the queue's limit (R276). -/
def queueRoom (q : Nat) (g : Segment) (s : State) : Bool :=
  queueBytes q s + segLen g ≤ getN (O.QMAX_KIB + queueCls q) s * 1024

/-- Release the crate a queued segment holds. -/
def releaseSeg (x : TxSeg) (s : State) : State := if x.crate = 0 then s else letGo x.crate 0x3000 s

/-- Put a segment in its queue now, stamped with the time base (R275). -/
def pushSeg (q : Nat) (x : TxSeg) (s : State) : State :=
  let t := getQueue q s
  setQueue q { t with segs := t.segs ++ [{ x with stamp := timeBase s }] } s

/-- The outcome of an enqueue: queued, dropped, or waiting for room (R276). -/
inductive EnqResult where
  | queued | dropped | waits
  deriving DecidableEq, Repr

/-- Enqueue one segment in one queue (R274, R276). -/
def enqueueOne (q : Nat) (x : TxSeg) (chan : Option Nat) (s : State) : EnqResult × State :=
  let cls := queueCls q
  let eth := cls == 5 || cls == 7
  if portZ4 (queuePort q) s && !eth then
    (.dropped, releaseSeg x (addN (O.LP_CLASS_DROPS + queuePort q) 1 s))
  else if queueRoom q x.seg s && (eth || !(s.sched.waiting.any fun w => w.q == q)) then
    (.queued, pushSeg q x s)
  else if eth then
    (.dropped, releaseSeg x (logLimited 1 (markKey 0x2C06 q) 0x2C06 q (countDrops q 1 s)))
  else (.waits, { s with sched := { s.sched with waiting := s.sched.waiting ++ [⟨q, x, chan⟩] } })

/-- The port that protects a port, while the bridge copies (R443, R444). -/
def bridgeOf (n : Nat) (s : State) : Option Nat :=
  let m := getN (O.PROT_PAIR + n) s
  if m < 4 ∧ m ≠ n ∧ (getPort n s).bridged then some m else none

/-- Enqueue a segment at a port, with the copy a bridged pair makes (R443), which holds a reference of its own. -/
def enqueueSeg (cls port tenant : Nat) (x : TxSeg) (chan : Option Nat) (s : State) : EnqResult × State :=
  match bridgeOf port s with
  | none => enqueueOne (queueOf cls port tenant) x chan s
  | some m =>
    let (r, t) := enqueueOne (queueOf cls port tenant) x chan (refUp x.crate s)
    (r, (enqueueOne (queueOf cls m tenant) x none t).2)

/-- The bytes of a segment go into its crate, and the segment into its queue. -/
def enqueueCrate (cls port tenant : Nat) (seg : Segment) (relayed : Bool) (h : Nat) (s : State) : State :=
  (enqueueSeg cls port tenant { seg := seg, relayed := relayed, crate := h } none (writeCrate h 0 (clean (segBytes seg)) s)).2

/-- A control message or a segment sent again asks for a crate, CONTROL or RESEND, and is queued once it has one (R228; log entry 105). -/
def enqueueOwn (prio : Fin 3) (cls port tenant : Nat) (seg : Segment) (relayed : Bool) (s : State) : State :=
  crateFor { size := segLen seg, loc := 3, prio := prio, spill := true, nowait := false, die := 0, owner := 0x3000, tenant := Fin.ofNat 64 tenant }
    (.segment cls port tenant seg relayed) (enqueueCrate cls port tenant seg relayed) s

/-- Remove the queued segments a test names, counting them (R296). Segments already selected leave unchanged. -/
def purgeSegs (p : Segment → Bool) (s : State) : State :=
  let s1 := s.sched.queues.foldl (fun u e =>
    let gone := e.2.segs.filter fun x => p x.seg
    if gone.isEmpty then u
    else countDrops e.1 gone.length
      (gone.foldl (fun w x => releaseSeg x w) (setQueue e.1 { e.2 with segs := e.2.segs.filter fun x => !(p x.seg) } u))) s
  let s2 := (s1.sched.waiting.filter fun w => p w.seg.seg).foldl (fun w x => releaseSeg x.seg w) s1
  { s2 with sched := { s2.sched with
      waiting := s2.sched.waiting.filter (fun w => !(p w.seg.seg)) } }

/-- Remove the segments selected and not yet in a frame that a test names, counting them as their queues' drops. -/
def purgePicked (p : Nat → Segment → Bool) (s : State) : State :=
  let t := s.sched.picked.foldl (fun u e => (e.2.filter fun x => p (queueOf x.seg.sc e.1 x.seg.job) x.seg).foldl (fun w x =>
    releaseSeg x (countDrops (queueOf x.seg.sc e.1 x.seg.job) 1 w)) u) s
  { t with sched := { t.sched with
      picked := t.sched.picked.filterMap fun e =>
        let rest := e.2.filter fun x => !(p (queueOf x.seg.sc e.1 x.seg.job) x.seg)
        if rest.isEmpty then none else some (e.1, rest) } }

/-! ### Charging (R280, R281) -/

/-- The counted length of a segment on a port (R281). -/
def countedLen (n : Nat) (g : Segment) (s : State) : Nat :=
  let v := getN (O.LP_OVH + n) s
  let b := segLen g + v % 256
  b + b * (v / 256 % 256) / 256

/-- Charge a shaper. -/
def chargeShaper (k len : Nat) (s : State) : State :=
  if shaperRate k s = 0 then s else setTokens k (shaperTokens k s - (len * 65536 : Nat)) s

/-! ### Credit (R288 to R293) -/

/-- No credit yet. -/
def CreditTx.none0 : CreditTx := {}

/-- Nothing received yet. -/
def CreditRx.none0 : CreditRx := {}

/-- The key of a group and site. -/
def pairKey (group site : Nat) : Nat := group * 32 + site

/-- What the sender holds of a pair. -/
def getCreditTx (g site : Nat) (s : State) : CreditTx := smGet (fun _ => CreditTx.none0) (pairKey g site) s.sched.creditTx

/-- Store it. -/
def setCreditTx (g site : Nat) (x : CreditTx) (s : State) : State :=
  { s with sched := { s.sched with creditTx := smPut (fun _ => CreditTx.none0) (pairKey g site) x s.sched.creditTx } }

/-- What the receiver holds of a pair. -/
def getCreditRx (g site : Nat) (s : State) : CreditRx := smGet (fun _ => CreditRx.none0) (pairKey g site) s.sched.creditRx

/-- Store it. -/
def setCreditRx (g site : Nat) (x : CreditRx) (s : State) : State :=
  { s with sched := { s.sched with creditRx := smPut (fun _ => CreditRx.none0) (pairKey g site) x s.sched.creditRx } }

/-- The width of the cumulative counts. -/
def w48 : Nat := 2 ^ 48

/-- Whether `a` is at or below `b` by the signed 48-bit difference (R288). -/
def le48 (a b : Nat) : Bool := (b + w48 - a % w48) % w48 < 2 ^ 47

/-- Whether a segment goes against blind credit (R288). -/
def segBlind (g : Segment) (s : State) : Bool :=
  let c := getCreditTx g.group g.dst s
  !(c.heard && g.seq ≤ c.postedSeq)

/-- Whether the sender holds credit for a segment (R290); a relay holds none of its own (R294). -/
def hasCredit (x : TxSeg) (s : State) : Bool :=
  if x.relayed || x.seg.kind != kColl then true
  else
    let c := getCreditTx x.seg.group x.seg.dst s
    let n := segLen x.seg
    c.heard && (if segBlind x.seg s then le48 (c.sentBlind + n) c.blindLimit else le48 (c.sentPosted + n) c.postedLimit)

/-- Spend the credit of a segment and set its BLIND bit (R288). -/
def spendCredit (x : TxSeg) (s : State) : TxSeg × State :=
  if x.relayed || x.seg.kind != kColl then (x, s)
  else
    let c := getCreditTx x.seg.group x.seg.dst s
    let n := segLen x.seg
    if segBlind x.seg s then
      ({ x with seg := { x.seg with blind := true } },
        setCreditTx x.seg.group x.seg.dst { c with sentBlind := (c.sentBlind + n) % w48 } s)
    else ({ x with seg := { x.seg with blind := false } },
        setCreditTx x.seg.group x.seg.dst { c with sentPosted := (c.sentPosted + n) % w48 } s)

/-- What a clock adds to the wait of a queue's head for credit: the first begins it, and one that has lasted more than 10 µs is counted
in CR_STALLS once (R290, log entry 164). -/
def creditWait (q : Nat) (s : State) : State :=
  let x := getQueue q s
  match x.segs with
  | [] => s
  | h :: _ =>
    if !(queueCls q == 1 || queueCls q == 2) || hasCredit h s then
      (if x.waitSince.isNone then s else setQueue q { x with waitSince := none, stalled := false } s)
    else match x.waitSince with
      | none => setQueue q { x with waitSince := some s.time.clocks } s
      | some t =>
        if x.stalled || s.time.clocks + 1 - t ≤ 12500 then s
        else addN O.CR_STALLS 1 (setQueue q { x with stalled := true } s)

/-- The same for every queue. -/
def creditWaits (s : State) : State := s.sched.queues.foldl (fun u e => creditWait e.1 u) s

/-- Restart every count of a group at zero (R293). -/
def resetCredit (g : Nat) (s : State) : State :=
  { s with sched := { s.sched with
      creditTx := s.sched.creditTx.filter (fun p => p.1 / 32 != g),
      creditRx := s.sched.creditRx.filter (fun p => p.1 / 32 != g) } }

/-! ### Selection (R277, R278) -/

/-- Whether a class is held against credit. -/
def creditClass (cls : Nat) : Bool := cls == 1 || cls == 2

/-- Whether the head of a queue is eligible (R277), the class and port shapers apart. -/
def queueEligible (q : Nat) (s : State) : Bool :=
  match (getQueue q s).segs with
  | [] => false
  | x :: _ => 0 < shaperTokens q s && (!creditClass (queueCls q) || hasCredit x s)

/-- Whether a class of a port may be selected now: its shaper and, but for SC0, the port's. -/
def classOpen (port cls : Nat) (s : State) : Bool :=
  0 < shaperTokens (2048 + port * 8 + cls) s && (cls == 0 || 0 < shaperTokens (2080 + port) s)

/-- The length counted for the head of a queue. -/
def headLen (q : Nat) (s : State) : Nat :=
  match (getQueue q s).segs with
  | [] => 0
  | x :: _ => countedLen (queuePort q) x.seg s

/-- Deficit round-robin over the 64 tenant queues of a class (R278): the queue selected, with deficits and pointer
as the round leaves them. The pointer is the next to be examined. -/
def drrTenant (port cls : Nat) : Nat → Nat → State → Option Nat × State
  | 0, _, s => (none, s)
  | fuel + 1, p, s =>
    let q := (p % 64) * 32 + port * 8 + cls
    if !queueEligible q s then drrTenant port cls fuel (p + 1) s
    else
      let x := getQueue q s
      let len := headLen q s
      if x.deficit < len then
        drrTenant port cls fuel (p + 1)
          (setQueue q { x with deficit := x.deficit + viewWeight (getN (shaperKey q) s) * 8192 } s)
      else (some q, { s with sched := { s.sched with
        tenantRr := smPut (fun _ => 0) (port * 8 + cls) (p % 64) s.sched.tenantRr } })

/-- The queue the scheduler would take in a class. -/
def classPick (port cls : Nat) (s : State) : Option Nat × State :=
  if !classOpen port cls s then (none, s)
  else if !((List.range 64).any fun t => queueEligible (t * 32 + port * 8 + cls) s) then (none, s)
  else drrTenant port cls 192 (smGet (fun _ => 0) (port * 8 + cls) s.sched.tenantRr) s

/-- The level-3 classes in their circular order. -/
def level3 (i : Nat) : Nat := match i % 3 with | 0 => 1 | 1 => 4 | _ => 5

/-- Deficit round-robin over the level-3 classes (R278). -/
def drrClass (port : Nat) : Nat → Nat → State → Option Nat × State
  | 0, _, s => (none, s)
  | fuel + 1, i, s =>
    let cls := level3 i
    match classPick port cls s with
    | (none, _) => drrClass port fuel (i + 1) s
    | (some q, t) =>
      let k := port * 8 + cls
      let d := smGet (fun _ => 0) k s.sched.classDeficit
      let len := headLen q s
      if d < len then
        let d' := d + viewWeight (getN (O.CLASS_SHAPER + k) s) * 8192
        drrClass port fuel (i + 1)
          { s with sched := { s.sched with classDeficit := smPut (fun _ => 0) k d' s.sched.classDeficit } }
      else (some q, { t with sched := { t.sched with
        classDeficit := smPut (fun _ => 0) k (d - len) t.sched.classDeficit,
        classRr := smPut (fun _ => 0) port (i % 3) t.sched.classRr } })

/-- The first class of a list that has a selection. -/
def firstClass (port : Nat) (s : State) : List Nat → Option (Nat × State)
  | [] => none
  | c :: cs => match classPick port c s with
    | (some q, t) => some (q, t)
    | (none, _) => firstClass port s cs

/-- A port in mode Z4 drops the queued segments of every class but SC5 and SC7 (R274). -/
def dropClasses (port : Nat) (s : State) : State :=
  if !portZ4 port s then s
  else s.sched.queues.foldl (fun u e =>
    if queuePort e.1 ≠ port ∨ queueCls e.1 = 5 ∨ queueCls e.1 = 7 then u
    else addN (O.LP_CLASS_DROPS + port) e.2.segs.length
      (e.2.segs.foldl (fun w x => releaseSeg x w) (setQueue e.1 TxQueue.empty u))) s

/-- The queue to serve next (Table 10.2). -/
def schedPick (port : Nat) (s0 : State) : Option (Nat × State) :=
  let s := dropClasses port s0
  match firstClass port s [0, 3, 2, 6] with
  | some r => some r
  | none => match drrClass port 12 (smGet (fun _ => 0) port s.sched.classRr) s with
    | (some q, t) => some (q, t)
    | (none, _) => firstClass port s [7]

/-- Sojourn of a stamp now, in units of 64 ns. -/
def sojourn64 (stamp : Nat) (s : State) : Nat := (timeBase s - stamp) / 65536 / 64

/-- Take the head of a queue: its queue, class and port shapers (the queues of SC0, SC3 and SC6 are no tenant's, log entry 163), credit,
deficit and QUEUE_SOJ_MAX (R278, R280, R288, R295). -/
def takeHead (q : Nat) (s : State) : Option (TxSeg × State) :=
  match (getQueue q s).segs with
  | [] => none
  | x :: rest =>
    let port := queuePort q
    let cls := queueCls q
    let len := countedLen port x.seg s
    let t := getQueue q s
    let s1 := setQueue q { segs := rest, deficit := t.deficit - len } s
    let s2 := chargeShaper (2080 + port) len (chargeShaper (2048 + port * 8 + cls) len (chargeShaper q len s1))
    let s3 := maxN (inst128 O.QUEUE_SOJ_MAX q) (min (2 ^ 32 - 1) (sojourn64 x.stamp s2)) s2
    let s4 := if ((List.range 64).any fun k => !(getQueue (k * 32 + port * 8 + cls) s3).segs.isEmpty) then s3
      else { s3 with sched := { s3.sched with classDeficit := smErase (port * 8 + cls) s3.sched.classDeficit } }
    some (if creditClass cls then spendCredit x s4 else (x, s4))

/-- The segments selected for a port and not yet in a frame. -/
def getPicked (port : Nat) (s : State) : List TxSeg := smGet (fun _ => []) port s.sched.picked

/-- Store them. -/
def setPicked (port : Nat) (xs : List TxSeg) (s : State) : State :=
  { s with sched := { s.sched with picked := smPut (fun _ => []) port xs s.sched.picked } }

/-- One selection of a port's scheduler (R278, R279). -/
def schedSelect (port : Nat) (s : State) : State :=
  match schedPick port s with
  | none => s
  | some (q, t) => match takeHead q t with
    | none => s
    | some (x, u) => setPicked port (getPicked port u ++ [x]) u

/-- The bytes segments take in a payload, each from an 8-byte boundary. -/
def payloadLen (xs : List TxSeg) : Nat := xs.foldl (fun a x => (a + 7) / 8 * 8 + segLen x.seg) 0

/-- Select until the payload is closed or nothing is eligible (R279). -/
def fillPicked (port : Nat) : Nat → State → State
  | 0, s => s
  | fuel + 1, s =>
    if 8112 < payloadLen (getPicked port s) then s
    else
      let t := schedSelect port s
      if (getPicked port t).length = (getPicked port s).length then t else fillPicked port fuel t

/-- The segments of a frame: from the front of the selection, as many as fit (R279). -/
def fitSegs : Nat → List TxSeg → List TxSeg × List TxSeg
  | _, [] => ([], [])
  | used, x :: xs =>
    let at0 := (used + 7) / 8 * 8
    if at0 + segLen x.seg ≤ 8112 then
      let (a, b) := fitSegs (at0 + segLen x.seg) xs
      (x :: a, b)
    else ([], x :: xs)

/-! ### The batch of shapers and policers (R285, Tables 10.3 and 10.4) -/

/-- One entry of SCHED_BATCH. -/
structure BatchEntry where
  kind : Nat
  flags : Nat
  target : Nat
  rate : Nat
  burst : Nat
  weight : Nat
  reserved : Nat
  deriving DecidableEq, Repr

/-- The entries of a batch. -/
def batchEntries (bs : List Byte) : List BatchEntry :=
  (List.range (bs.length / 16)).map fun i =>
    let e := (bs.drop (16 * i)).take 16
    let f (o n : Nat) : Nat := natOfLE ((e.drop o).take n)
    ⟨f 0 1, f 1 1, f 2 2, f 4 4, f 8 2, f 10 1, f 11 5⟩

/-- How many targets a kind has. -/
def batchTargets : Nat → Nat
  | 1 => 2048 | 2 => 32 | 3 => 4 | 4 => 256 | _ => 0

/-- The rule of Table 10.4 a batch breaks first, or 0. -/
def batchRule (bs : List Byte) : Nat :=
  let es := batchEntries bs
  if bs.length < 16 ∨ 4096 < bs.length ∨ bs.length % 16 ≠ 0 then 0x2C01
  else if es.any (fun e => batchTargets e.kind ≤ e.target) then 0x2C02
  else if es.any (fun e => 12800000 < e.rate || 16384 < e.burst || e.burst < (if e.kind = 4 then 2 else 16)) then 0x2C03
  else if es.any (fun e =>
      let weighted := e.kind == 1 || (e.kind == 2 && (e.target % 8 == 1 || e.target % 8 == 4 || e.target % 8 == 5))
      if weighted then e.weight == 0 else e.weight != 0) then 0x2C04
  else if es.any (fun e => 1 < (es.filter fun d => d.kind == e.kind && d.target == e.target).length) then 0x2C05
  else if es.any (fun e => e.reserved != 0 || 3 < e.flags) then 0x2C06
  else 0

/-- Apply one entry (R282, R285, R286); on A1 a full reset of a shaper with a burst above 8 MiB starts at
2 × burst − 8,388,608 bytes (R555). -/
def applyBatchEntry (e : BatchEntry) (s : State) : State :=
  let full := bitOf e.flags 0
  let bytes := e.burst * 1024
  if e.kind = 4 then
    let v := e.rate * 2 ^ 32 + e.burst * 2 ^ 16 + 2 * ofBool (bitOf e.flags 1) + ofBool full
    let t := setN (inst128 O.POLICER e.target) v s
    let b : Bucket := ⟨if full then ((bytes * 65536 : Nat) : Int) else 0, s.time.clocks⟩
    let ps := if getN (inst128 O.POLICER e.target) s / 2 = v / 2 then t.sched.policers
      else smPut (fun _ => (none : Option Bucket)) e.target (some b) t.sched.policers
    { t with sched := { t.sched with policers := ps, tornDown := clrBit t.sched.tornDown (e.target / 4) } }
  else
    let k := if e.kind = 1 then e.target else if e.kind = 2 then 2048 + e.target else 2080 + e.target
    let v := e.rate * 2 ^ 32 + e.burst * 2 ^ 16 + e.weight * 256 + 2 + ofBool full
    let old := getN (shaperKey k) s
    let t := setN (shaperKey k) v s
    if viewRate old = e.rate ∧ viewBurst old = e.burst then t
    else
      let count : Nat := if full then (if 8192 < e.burst then 2 * bytes - 8388608 else bytes) else 0
      setTokens k (count * 65536 : Nat) t

/-- Apply a whole batch at one instant. -/
def applyBatch (bs : List Byte) (s : State) : State := (batchEntries bs).foldl (fun u e => applyBatchEntry e u) s

/-! ### Policers (R286) -/

/-- The count of a policer now, in units of 2⁻¹⁶ bytes; a policer no batch has named stands at zero. -/
def policerTokens (p : Nat) (s : State) : Int :=
  let v := getN (inst128 O.POLICER p) s
  match smGet (fun _ => (none : Option Bucket)) p s.sched.policers with
  | none => 0
  | some b => min ((viewBurst v * 1024 * 65536 : Nat) : Int) (b.tokens + tokensOver (viewRate v) (s.time.clocks - b.clk))

/-- A packet is dropped by policer `p`: counted, and logged after one second without a drop. -/
def polDrop (p : Nat) (s : State) : State :=
  let quiet := match smGet (fun _ => (none : Option Nat)) p s.sched.polLastDrop with
    | none => true
    | some c => clkSec ≤ s.time.clocks - c
  let s1 := addN (inst128 O.POL_DROPS p) 1 s
  let s2 := { s1 with sched := { s1.sched with
    polLastDrop := smPut (fun _ => (none : Option Nat)) p (some s.time.clocks) s1.sched.polLastDrop } }
  if quiet then logEvent 0x2C02 p s2 else s2

/-- Pass or drop a packet of `len` bytes; the policers of a tenant torn down pass nothing (Table 10.6). -/
def police (tenant port len : Nat) (s : State) : Bool × State :=
  let p := tenant * 4 + port
  let v := getN (inst128 O.POLICER p) s
  if bitOf s.sched.tornDown tenant then (false, polDrop p s)
  else if !bitOf v 1 then (true, s)
  else
    let t := policerTokens p s
    let put (x : Int) (u : State) : State :=
      { u with sched := { u.sched with
          policers := smPut (fun _ => (none : Option Bucket)) p (some ⟨x, u.time.clocks⟩) u.sched.policers } }
    if ((len * 65536 : Nat) : Int) ≤ t then (true, put (t - (len * 65536 : Nat)) s) else (false, polDrop p (put t s))

/-! ### Sampling (R295) -/

/-- QUEUE_STATUS of a queue sampled now (Table 10.9). -/
def queueSample (q : Nat) (s : State) : Nat :=
  match (getQueue q s).segs with
  | [] => 0
  | x :: _ =>
    min 0xFFFFFF (queueBytes q s / 256) * 2 ^ 40 + min 0xFFFFFF (sojourn64 x.stamp s) * 2 ^ 16
      + ofBool (creditClass (queueCls q) && !hasCredit x s)

/-- Latch one queue and raise its alarm. -/
def sampleQueue (q : Nat) (s : State) : State :=
  let s1 := setN (inst128 O.QUEUE_STATUS q) (queueSample q s) s
  match (getQueue q s).segs with
  | [] => s1
  | x :: _ =>
    let soj := sojourn64 x.stamp s
    let alarm := getN (O.CLASS_ALARM_US + queueCls q) s
    if alarm ≠ 0 ∧ alarm * 1000 < soj * 64 then
      logLimited 1 (markKey 0x2C01 q) 0x2C01 (q * 2 ^ 48 + min 0xFFFFFF soj) s1
    else s1

/-- The queues that hold a segment or show a sample. -/
def busyQueues (s : State) : List Nat :=
  (List.range 2048).filter fun q => !(getQueue q s).segs.isEmpty || getN (inst128 O.QUEUE_STATUS q) s != 0

end Sys2Proof.Machine
end

