-- ==== Sys2Proof/Machine/LineOps.lean ====
section
/-! DEFINITION. Defects and loss reports (R319 to R321, R339 to R342), the re-send store (R332 to R336),
switching requests (R440), key slots (R356) and the frame a carrier sends (R298 to R310, R348). -/

namespace Sys2Proof.Machine

/-! ### Loss reports to send (R339, R340) -/

/-- Queue a report; at 256 the oldest is dropped (R339). -/
def queueReport (n : Nat) (r : LossReport) (s : State) : State :=
  let p := getPort n s
  if p.lrQ.length < 256 then setPort n { p with lrQ := p.lrQ ++ [r] } s
  else logLimited 1 (markKey 0x2304 n) 0x2304 (n * 2 ^ 56)
    (addN (O.LR_QUEUE_DROPS + n) 1 (setPort n { p with lrQ := p.lrQ.tail ++ [r] } s))

/-- The distance from one FSEQ to another (R299). -/
def fseqDiff (a b : Nat) : Nat := (b + w48 - a % w48) % w48

/-- Whether a lost frame due lies within 64 frames of a base of the same carrier. -/
def LossDue.near (car base : Nat) (d : LossDue) : Bool :=
  d.carrier == car && d.count == 0 && fseqDiff base d.base < 64

/-- Queue one report for a due entry, and count it against every due frame it covers. -/
def reportDue (n : Nat) (d : LossDue) (s : State) : State :=
  let p := getPort n s
  let spend (x : LossDue) : LossDue := { x with left := x.left - 1 }
  if d.count ≠ 0 then
    let p' := { p with lrDue := (p.lrDue.map fun x => if x == d then spend x else x).filter fun x => x.left != 0 }
    queueReport n ⟨d.carrier, true, d.base, d.count⟩ (setPort n p' s)
  else
    let hit := p.lrDue.filter (LossDue.near d.carrier d.base)
    let bits := hit.foldl (fun m x => setBit m (fseqDiff d.base x.base)) 1
    let p' := { p with lrDue :=
      (p.lrDue.map fun x => if x.near d.carrier d.base then spend x else x).filter fun x => x.left != 0 }
    queueReport n ⟨d.carrier, false, d.base, bits⟩ (setPort n p' s)

/-- A lost frame, or a closed range, of a far carrier is due to be reported: the first report now. -/
def lossDetermined (n car base count : Nat) (s : State) : State :=
  let d : LossDue := ⟨car, base, count, getN O.LR_REPEAT s⟩
  let p := getPort n s
  reportDue n d (setPort n { p with lrDue := p.lrDue ++ [d] } s)

/-! ### Defects (R319 to R321) -/

/-- The defect bits of Table 11.12. -/
def dLos : Nat := 0
def dLock : Nat := 1
def dLof : Nat := 2
def dFecf : Nat := 3
def dAuth : Nat := 4
def dDeg : Nat := 5
def dRdi : Nat := 6

/-- What is reported of a set of raw defects: the lowest only (R320). -/
def reportedOf (raw : Nat) : Nat :=
  match (List.range 7).find? fun k => bitOf raw k with
  | some k => 2 ^ k
  | none => 0

/-- The windows of FECF, AUTH, DEG and RDI are emptied while a lower defect is raw (R320). -/
def Carrier.emptyWindows (x : Carrier) : Carrier :=
  let below (k : Nat) : Bool := x.raw % 2 ^ k != 0
  let x1 := if below dFecf then { x with fecfWin := [], fecfRun := 0 } else x
  let x2 := if below dAuth then { x1 with authWin := [], authRun := 0 } else x1
  let x3 := if below dDeg then { x2 with degSet := 0, degClr := 0 } else x2
  if below dRdi then { x3 with rdiRun := {} } else x3

/-- Bits set in one set and not in another. -/
def newBits (a b : Nat) : List Nat := (List.range 7).filter fun k => bitOf b k && !bitOf a k

/-- The consequences of a change of the raw defects of a carrier: what is reported, the latch, the ledger's
flags, the events, the hold-off of R441 and the open range of R340. -/
def defectsChanged (c : Nat) (raw : Nat) (s : State) : State :=
  let x := getCar c s
  let rep := reportedOf raw
  let signalFail (r : Nat) : Bool := r % 32 != 0
  let hold := signalFail x.reported && !signalFail rep && x.cstate == .active
  let y := { x with raw := raw, reported := rep, sfHold := x.sfHold || hold,
                    ledger := { x.ledger with defectSecs := x.ledger.defectSecs ||| rep } }
  let s1 := setCar c y.emptyWindows s
  let s2 := setN (O.DEFECTS + c) (raw * 256 + rep) s1
  let s3 := setN (O.DEFECT_LATCH + c) (getN (O.DEFECT_LATCH + c) s2 ||| rep) s2
  let s4 := (newBits x.reported rep).foldl (fun u k =>
    logLimited 4 (markKey 0x2101 (c * 8 + k)) 0x2101 (c * 2 ^ 56 + k) u) s3
  let s5 := (newBits rep x.reported).foldl (fun u k =>
    logLimited 4 (markKey 0x2102 (c * 8 + k)) 0x2102 (c * 2 ^ 56 + k) u) s4
  if rep % 16 != 0 && x.openRange.isNone && x.runMode != modeZ4 then
    match x.lastGood, portOfCar c s5 with
    | some g, some n =>
      let base := (g + 1) % w48
      queueReport n ⟨x.rxCar, true, base, 0⟩ (modCar c (fun z => { z with openRange := some base }) s5)
    | _, _ => s5
  else s5

/-- Set or clear one raw defect. -/
def setRaw (c k : Nat) (b : Bool) (s : State) : State :=
  let raw := putBit (getCar c s).raw k b
  if raw = (getCar c s).raw then s else defectsChanged c raw s

/-- The aligner leaves SYNC or drops its candidates (Table 11.10). -/
def alignerHunt (c : Nat) (s : State) : State :=
  let x := getCar c s
  let led := if x.fa = 2 then { x.ledger with huntEntries := x.ledger.huntEntries + 1 } else x.ledger
  let y := { x with fa := 0, cands := [], badCount := 0, prevStamp := none, prevBip := none, prevRefl := none }
  let z := { y with rxLocked := false, swRun := {}, rdiRun := {}, rdegRun := {}, farDrainRun := 0, ledger := led }
  let s1 := setCar c z s
  setN (O.FA_STATE + c) 0 s1

/-- LOS or LOCK becomes raw: hunting halts, and LOF is raw too. -/
def opticalDefect (c k : Nat) (s : State) : State :=
  setRaw c dLof true (setRaw c k true (alignerHunt c s))

/-! ### Switching requests (R440, R441) -/

/-- Whether a pair drains: neither end then passes its signal fail on (R391). -/
def carDrains (x : Carrier) : Bool := x.drainReason != 0 || x.partnerDrain

/-- Whether SF names a carrier. -/
def namedSf (x : Carrier) : Bool :=
  !carDrains x && (x.reported % 32 != 0 || x.sfHold || (x.inService && x.cstate != .active))

/-- Whether SD names a carrier. -/
def namedSd (x : Carrier) (s : State) : Bool := bitOf x.reported dDeg && getN O.PROT_SD_REMOVE s == 1

/-- The pair a port belongs to: working port and protecting port. -/
def pairOf (n : Nat) (s : State) : Option (Nat × Nat) :=
  (List.range 4).findSome? fun k =>
    let m := getN (O.PROT_PAIR + k) s
    if m < 4 && m != k && (k == n || m == n) then some (k, m) else none

/-- SWITCH of a port now (Tables 11.6 and 16.8). -/
def swTx (n : Nat) (s : State) : Nat :=
  let p := getPort n s
  let cs := carsOf n s
  let mask (f : Nat → Bool) : Nat := (cs.filter f).foldl (fun a c => a + 2 ^ c) 0
  let forced := mask fun c => bitOf p.forced c
  let sf := mask fun c => namedSf (getCar c s)
  let sd := mask fun c => namedSd (getCar c s) s
  let dr := mask fun c => (getCar c s).drainReason != 0
  let req :=
    if p.lockoutCmd then 5 else if forced ≠ 0 then 4 else if sf ≠ 0 then 1 else if sd ≠ 0 then 2
    else if dr ≠ 0 then 3 else 0
  let select := match pairOf n s with
    | some (k, _) => n == k && lpActive n s == 0
    | none => false
  req * 4096 + 2048 * ofBool p.bridged + 1024 * ofBool select + (forced ||| sf ||| sd ||| dr)

/-- Act on the accepted SWITCH of a port: carriers named leave LP_ACTIVE, those no longer named return. -/
def applySwitch (n v : Nat) (s : State) : State :=
  let req := v / 4096
  (carsOf n s).foldl (fun u c =>
    let x := getCar c u
    let named := x.rxSeen && bitOf (v % 256) x.rxCar
    let y := { x with swOut := named, partnerDrain := named && (req == 3 || x.partnerDrain) }
    let t := setCar c y u
    if named && !x.swOut then logEvent 0x8810 (c * 2 ^ 56 + req) t
    else if !named && x.swOut then logEvent 0x8811 (c * 2 ^ 56) t
    else t) s

/-! ### Key slots (Table 13.4) -/

/-- A transmit slot. -/
def LinePort.txSlot (p : LinePort) (i : Nat) : KeySlot := if i = 0 then p.tx0 else p.tx1

/-- Store a transmit slot. -/
def LinePort.setTx (i : Nat) (k : KeySlot) (p : LinePort) : LinePort := if i = 0 then { p with tx0 := k } else { p with tx1 := k }

/-- A receive slot. -/
def LinePort.rxSlot (p : LinePort) (i : Nat) : KeySlot := if i = 0 then p.rx0 else p.rx1

/-- Store a receive slot. -/
def LinePort.setRx (i : Nat) (k : KeySlot) (p : LinePort) : LinePort := if i = 0 then { p with rx0 := k } else { p with rx1 := k }

/-- A zeroised slot. -/
def KeySlot.empty : KeySlot := {}

/-- The CURRENT transmit slot. -/
def LinePort.curTx (p : LinePort) : Option Nat :=
  if p.tx0.kstate = 3 then some 0 else if p.tx1.kstate = 3 then some 1 else none

/-- The CURRENT receive slot. -/
def LinePort.curRx (p : LinePort) : Option Nat :=
  if p.rx0.kstate = 3 then some 0 else if p.rx1.kstate = 3 then some 1 else none

/-- Whether a port may send DATA frames: a key is CURRENT, or its first key's change has reached T, and the
frame limit does not hold it (R302, R366). -/
def txKeyNow (p : LinePort) (dep : Nat) : Option Nat :=
  if p.phase = 4 then (if p.switchAt ≠ 0 && p.switchAt ≤ dep then some p.changeTo else none)
  else if p.phase = 2 && p.switchAt ≤ dep then some p.changeTo
  else p.curTx

/-! ### The re-send store (R332 to R336) -/

/-- The bytes of an entry. -/
def KeptFrame.bytes (k : KeptFrame) : Nat := k.segs.foldl (fun a g => a + segLen g.seg) 0

/-- The bytes of a port's live entries. -/
def keptBytes (ks : List KeptFrame) : Nat := ks.foldl (fun a k => a + k.bytes) 0

/-- Release the oldest entries until the rest fits: those that went, and the rest. -/
def evictTo (room : Nat) : List KeptFrame → List KeptFrame × List KeptFrame
  | [] => ([], [])
  | k :: ks => if keptBytes (k :: ks) ≤ room then ([], k :: ks)
    else let (n, r) := evictTo room ks; (k :: n, r)

/-- Store a port's entries and RS_USED_BYTES. -/
def setKept (n : Nat) (ks : List KeptFrame) (s : State) : State :=
  setN (O.RS_USED_BYTES + n) (keptBytes ks) (modPort n (fun p => { p with kept := ks }) s)

/-- The index record of a released entry: an entry with no segment leaves none. -/
def goneOf (byClose : Bool) (ks : List KeptFrame) : List GoneFrame :=
  (ks.filter fun k => !k.segs.isEmpty).map fun k => ⟨k.carrier, k.fseq, if byClose then k.segs.length else 0⟩

/-- Entries of a port were released. -/
def addGone (n : Nat) (gs : List GoneFrame) (s : State) : State :=
  if gs.isEmpty then s else modPort n (fun p => { p with gone := p.gone ++ gs }) s

/-- Make room in a port's log (R336). -/
def evictPort (n room : Nat) (s : State) : State :=
  let (out, ks) := evictTo room (getPort n s).kept
  let k := out.length
  if k = 0 then s
  else
    let recent := ((getPort n s).evictClks.filter fun c => s.time.clocks - c < clkSec)
      ++ List.replicate k s.time.clocks
    let s1 := modPort n (fun p => { p with evictClks := recent }) (addGone n (goneOf false out) (setKept n ks s))
    logLimited 1 (markKey 0x2303 n) 0x2303 (n * 2 ^ 56 + recent.length % 2 ^ 32) (addN (O.RS_EVICT + n) k s1)

/-- The records the frame index of a carrier holds: those of its last 2²⁰ frames (R332). -/
def indexed (car fseq next : Nat) (g : GoneFrame) : Bool := g.carrier != car || (g.fseq != fseq && decide (fseqDiff g.fseq next ≤ 2 ^ 20))

/-- Keep what a frame carried (R332, R341 point 5). -/
def keepFrame (n c fseq : Nat) (xs : List TxSeg) (s : State) : State :=
  let kept := (xs.filter fun x => x.seg.kind == kColl || x.seg.kind == kXfer).map fun x =>
    (⟨x.seg, x.relayed, false⟩ : KeptSeg)
  let k : KeptFrame := { carrier := c, fseq := fseq, clk := s.time.clocks, segs := kept }
  let s1 := evictPort n (rsShare n s - k.bytes) s
  modPort n (fun p => { p with gone := p.gone.filter (indexed c fseq ((fseq + 1) % w48)) })
    (setKept n ((getPort n s1).kept ++ [k]) s1)

/-- Recompute the line (R333: a smaller share evicts the oldest entries). -/
def settleLine (s : State) : State :=
  (List.range 4).foldl (fun u n => evictPort n (rsShare n u)
    (setN (O.SW_TX + n) (swTx n u) u)) (refreshLine s)

/-- Release the entries whose age has reached hold_n (R335). -/
def releaseAged (n : Nat) (s : State) : State :=
  let hold := holdNs n s
  let (ks, out) := (getPort n s).kept.partition fun k => (s.time.clocks - k.clk) * 4 < hold * 5
  addGone n (goneOf false out) (setKept n ks s)

/-- Close a kept segment of this gateway's own that a test names. -/
def KeptSeg.closeIf (test : Segment → Bool) (g : KeptSeg) : KeptSeg :=
  if !g.relayed && test g.seg then { g with closed := true } else g

/-- Close kept segments a test names, relayed ones apart; an entry with nothing open left is released (R335). -/
def closeKept (test : Segment → Bool) (s : State) : State :=
  (List.range 4).foldl (fun u n =>
    let ks := (getPort n u).kept.map fun k => { k with segs := k.segs.map (KeptSeg.closeIf test) }
    let (stay, out) := ks.partition fun k => k.segs.isEmpty || k.segs.any fun g => !g.closed
    addGone n (goneOf true out) (setKept n stay u)) s

/-- The re-send store of a port starts empty (Table 12.4). -/
def emptyStore (n : Nat) (s : State) : State := modPort n (fun p => { p with gone := [] }) (setKept n [] s)

/-- Whether a report names a frame of a carrier (R338). -/
def reportHas (r : LossReport) (car fseq : Nat) : Bool :=
  car == r.carrier &&
    (let d := fseqDiff r.base fseq
     if !r.range then decide (d < 64) && bitOf r.map d
     else if r.map = 0 then decide (d < 2 ^ 47) else decide (d < r.map))

/-- The frames a report names of those kept (R341). -/
def reportNames (r : LossReport) (k : KeptFrame) : Bool := reportHas r k.carrier k.fseq

/-- How many frames a report names, of those sent on its carrier. -/
def reportCount (r : LossReport) (next : Nat) : Nat :=
  let sent := fseqDiff r.base next
  if !r.range then ((List.range 64).filter fun i => bitOf r.map i && i < sent).length
  else if 2 ^ 47 ≤ sent then 0
  else if r.map = 0 then sent else min r.map sent

/-- The first of some frames, counted from a report's BASE_FSEQ. -/
def firstGone (base : Nat) (gs : List GoneFrame) : Nat :=
  (base + gs.foldl (fun m g => min m (fseqDiff base g.fseq)) (w48 - 1)) % w48

/-- Re-send one segment of a kept frame in SC3 (R341 point 4). -/
def resendSeg (n : Nat) (g : KeptSeg) (s : State) : State :=
  if g.closed then addN (O.RS_NOT_OPEN + n) 1 s
  else addN (O.RS_RESENT_SEGS + n) 1
    (enqueueOwn 2 3 n 0 { g.seg with resend := true } g.relayed s)

/-- The frames a report names whose entries were released (R341 point 3): those that went by age or for want of room count in
RS_MISS, the segments of those that were closed in RS_NOT_OPEN; each is counted once (log entry 130). -/
def reportGone (n : Nat) (r : LossReport) (s : State) : State :=
  let gs := (getPort n s).gone
  let named := gs.filter fun g => reportHas r g.carrier g.fseq
  let missing := named.filter fun g => g.closed == 0
  let s1 := modPort n (fun p => { p with gone := gs.filter fun g => !reportHas r g.carrier g.fseq }) s
  let s2 := addN (O.RS_NOT_OPEN + n) (named.foldl (fun a g => a + g.closed) 0) s1
  if missing.isEmpty then s2
  else logLimited 1 (markKey 0x2302 n) 0x2302 (n * 2 ^ 56 + r.carrier * 2 ^ 53 + firstGone r.base missing)
    (addN (O.RS_MISS + n) missing.length s2)

/-- Serve a report from what port `n` sent on the carrier (R341). -/
def serveLoss (r : LossReport) (n : Nat) (s : State) : State :=
  let ks := (getPort n s).kept
  let fresh := (ks.filter (reportNames r)).filter fun k => !k.resent
  if ks.any (reportNames r) || (getPort n s).gone.any (fun g => reportHas r g.carrier g.fseq) then
    let t := setKept n (ks.map fun k => if reportNames r k then { k with resent := true } else k) (reportGone n r s)
    fresh.foldl (fun u k => k.segs.foldl (fun w g => resendSeg n g w) u) t
  else s

/-- Act on a loss report taken on port `n` (R341); the caller has checked CARRIER (R342). The entries of a carrier that has moved between
ports are with the port its frames left on (Table 12.4). -/
def takeLossReport (n : Nat) (r : LossReport) (s : State) : State :=
  let s0 := addN (O.LR_RX + n) 1 s
  let s1 := if r.range ∧ r.map = 0 then logEvent 0x2301 (n * 2 ^ 56 + r.carrier * 2 ^ 53 + r.base) s0 else s0
  (n :: (List.range 4).filter (· != n)).foldl (fun u k => serveLoss r k u) s1

/-! ### The frame (R298 to R310) -/

/-- The check of a header (R301). -/
def headerBytes (fseq car ftype keyIdx : Nat) : List Byte :=
  let h := bytesBE 6 fseq ++ bytesBE 1 (car * 32 + ftype * 2 + keyIdx % 2) ++ List.replicate 5 0#8
  h ++ bytesBE 4 (crc32c h)

/-- One step of the scrambler (R303): the sequence bits so far, newest first, 58 of them. -/
def scrambleBits : Nat → List Bool → List Bool
  | 0, _ => []
  | n + 1, w =>
    let b := xor (w.getD 38 false) (w.getD 57 false)
    b :: scrambleBits n (b :: w.take 57)

/-- The bytes the scrambler adds to a frame's bytes 64 to 8,191. -/
def scrambleSeq (car fseq : Nat) : List Byte :=
  let seed := 2 ^ 57 + car % 8 * 2 ^ 54 + fseq % w48
  let bits := scrambleBits (8 * 8128) (bitsLsb58 seed)
  packMsb 8128 bits
where
  /-- Seed bit j as x at −1 − j. -/
  bitsLsb58 (seed : Nat) : List Bool := (List.range 58).map (bitOf seed)
  /-- Bytes of bits, most significant first. -/
  packMsb : Nat → List Bool → List Byte
    | 0, _ => []
    | n + 1, bs => BitVec.ofNat 8 ((bs.take 8).foldl (fun a b => 2 * a + ofBool b) 0) :: packMsb n (bs.drop 8)

/-- Scramble or descramble the bytes after the overhead. -/
def scramble (car fseq : Nat) (tail : List Byte) : List Byte := xorBytes tail (scrambleSeq car fseq)

/-- BIP-32 of a body (R308). -/
def bip32 (body : List Byte) : Nat := (piecesOf 4 2049 body).foldl (fun a w => a ^^^ natOfBE w) 0

/-- One payload of segments (R315): each from an 8-byte boundary, zero filled, an END after the last. -/
def payloadBytes (xs : List TxSeg) : List Byte :=
  let b := xs.foldl (fun a x =>
    a ++ List.replicate ((a.length + 7) / 8 * 8 - a.length) 0#8 ++ segBytes x.seg) []
  b ++ List.replicate (8112 - b.length) 0#8

/-- The IV of a frame (Table 13.1). -/
def frameIv (salt : List Byte) (port car fseq : Nat) : List Byte :=
  salt ++ bytesBE 8 (port % 4 * 2 ^ 62 + car % 8 * 2 ^ 59 + fseq % w48)

/-- The AAD of a frame (Table 13.2) from its header, its overhead and the stamp of the frame before. -/
def frameAad (header overhead : List Byte) (prevStamp : Nat) : List Byte :=
  header ++ overhead.take 2 ++ List.replicate 6 0#8 ++ overhead.drop 8 ++ bytesBE 6 prevStamp ++ [0#8, 0#8]

/-- A LOSS_REPORT as a control-lane message (Table 12.3). -/
def lossMsg (r : LossReport) : List Byte :=
  2#8 :: bytesBE 1 (r.carrier % 8 * 32 + 16 * ofBool r.range) ++ bytesBE 6 r.base ++ bytesBE 8 r.map

/-- A KEY_CHANGE message (Table 13.6). -/
def keyMsgBytes (k : KeyMsg) : List Byte :=
  3#8 :: bytesBE 1 k.kcType ++ bytesBE 1 k.slot ++ bytesBE 4 k.keyId ++ bytesBE 6 k.t ++ bytesBE 1 k.status ++ [0#8, 0#8]

/-- A MARGIN message (Table 14.7). -/
def marginBytes (m : MarginMsg) : List Byte :=
  4#8 :: bytesBE 1 m.mgType ++ bytesBE 1 m.round ++ bytesBE 1 m.mode ++ bytesBE 1 m.modes
    ++ bytesBE 2 (ofSigned 16 m.snr) ++ bytesBE 2 (ofSigned 16 m.qmargin) ++ bytesBE 2 m.target
    ++ bytesBE 1 (ofBool m.pass + 2 * ofBool m.verify) ++ List.replicate 4 0#8

/-- A CRIER message (Table 16.5). -/
def crierBytes (m : CrierMsg) : List Byte :=
  5#8 :: bytesBE 1 m.clType ++ bytesBE 1 m.site ++ bytesBE 2 m.group ++ bytesBE 1 m.place ++ bytesBE 2 m.gen
    ++ List.replicate 8 0#8

/-- The place this gateway serves: its own, or the adopted one of a promoted spare. -/
def servedPlace (s : State) : Nat :=
  let a := getN O.CR_ADOPTED_PLACE s
  if a = 0xFF then getN O.BG_PLACE s else a

/-- An IDENT (Table 11.9). -/
def identMsg (n : Nat) (s : State) : List Byte :=
  1#8 :: bytesBE 1 (getN O.SITE_ID s) ++ bytesBE 2 (getN O.BG_GROUP_ID s) ++ bytesBE 1 (servedPlace s)
    ++ bytesBE 1 n ++ bytesBE 1 (lpCarriers n s) ++ List.replicate 9 0#8

/-- The CRIER body that tells a promotion (Table 16.5): the adopted place, and CR_PROMO_GEN after it. -/
def promotedMsg (ty : Nat) (s : State) : CrierMsg :=
  { clType := ty, site := getN O.SITE_ID s, group := getN O.BG_GROUP_ID s, place := servedPlace s, gen := getN O.CR_PROMO_GEN s }

/-- EMPTY. -/
def emptyMsg : List Byte := List.replicate 16 0#8

/-- The control-lane message of a frame (R310), and the state without it in its queue. -/
def takeCtrl (c : Nat) (port : Option Nat) (data : Bool) (s : State) : List Byte × State :=
  let x := getCar c s
  let own : List Byte × State :=
    if x.identDue then
      (match port with | some n => identMsg n s | none => emptyMsg, setCar c { x with identDue := false } s)
    else match x.test.msg with
      | some m =>
        if x.test.msgDue then (marginBytes m, setCar c { x with test := { x.test with msgDue := false } } s) else (emptyMsg, s)
      | none => (emptyMsg, s)
  match port with
  | none => own
  | some n =>
    if !data then own
    else if x.crierDue then (crierBytes (promotedMsg 1 s), setCar c { x with crierDue := false } s)
    else
      let p := getPort n s
      match p.crierQ, p.kcQ, p.lrQ with
      | m :: r, _, _ => (crierBytes m, setPort n { p with crierQ := r } s)
      | [], k :: r, _ => (keyMsgBytes k, setPort n { p with kcQ := r } s)
      | [], [], l :: r => (lossMsg l, addN (O.LR_SENT + n) 1 (setPort n { p with lrQ := r } s))
      | [], [], [] => own

/-- DEFIND of a carrier's frame (Table 11.8). -/
def defind (x : Carrier) (s : State) : Nat :=
  let rdi := x.reported % 32
  let cause := match (List.range 5).find? fun k => bitOf rdi k with | some k => k + 1 | none => 0
  ofBool (rdi != 0) * 2 ^ 15 + cause * 2 ^ 12 + ofBool (bitOf x.reported dDeg) * 2 ^ 11
    + ofBool x.refl.isSome * 2 ^ 10 + ofBool (bitOf (getN O.TIME_FLAGS s) 8) * 2 ^ 9 + ofBool (carDrains x) * 2 ^ 8

/-- How late the departure stamp of a carrier's next frame is, in units of 2^-16 ns: not at all but for the first frame after
the shutter opens from LOCKING on stepping A1, whose stamp is late by a free value of up to one frame period (R552, KL-01). -/
def stampLate (c : Nat) (s : State) : Nat :=
  let x := getCar c s
  if x.firstFrame ∧ getN O.STEPPING s = 0xA1 then freeAt 84 s % (framePs x.runMode * 65536 / 1000 + 1) else 0

/-- The overhead of a frame (Table 11.5). -/
def overheadBytes (sw dep refl bip dfi : Nat) (ctrl : List Byte) : List Byte :=
  bytesBE 2 sw ++ bytesBE 6 dep ++ bytesBE 6 refl ++ bytesBE 4 bip ++ bytesBE 2 dfi ++ ctrl ++ List.replicate 12 0#8

/-- The body of a frame as it leaves the framer. -/
def frameBody (header overhead payload : List Byte) (key : Option KeySlot) (port car fseq prevStamp : Nat) : List Byte :=
  let tail := match key with
    | some k =>
      let iv := frameIv k.salt port car fseq
      let ct := gcmCrypt k.key iv payload
      ct ++ gcmTag k.key iv (frameAad header overhead prevStamp) ct
    | none => List.replicate 8128 0#8
  header ++ overhead ++ scramble car fseq tail

/-- Whether a carrier is in its margin test, and so sends PROBE (R302, R389). -/
def inMarginTest (x : Carrier) : Bool :=
  (x.cstate == .acquiring || x.cstate == .probing) && !x.test.verify

end Sys2Proof.Machine
end

