-- ==== Sys2Proof/Machine/CollGeo.lean ====
section
/-! DEFINITION. Collective groups and collectives as this gateway sees them: accessors, geometry (R90 to R94), and the crates of a
chunk of an output. -/

namespace Sys2Proof.Machine

/-- Blocks an encoder wrote of so many bytes taken in, each with whether it is RAW, are counted (R207). -/
def noteEncode (taken : Nat) (bs : List (List Byte × Bool)) (s : State) : State :=
  addN O.XC_ENC_IN_BYTES taken (addN O.XC_ENC_OUT_BYTES (bs.foldl (fun n b => n + b.1.length) 0)
    (addN O.XC_ENC_RAW (bs.filter (·.2)).length (addN O.XC_ENC_BLOCKS bs.length s)))

/-! ### Accessors -/

/-- A CLOSED group. -/
def Group.closed0 : Group := {}

/-- A group. -/
def getGroup (g : Nat) (s : State) : Group := smGet (fun _ => Group.closed0) g s.coll.groups

/-- Store a group. -/
def setGroup (g : Nat) (x : Group) (s : State) : State :=
  { s with coll := { s.coll with groups := smPut (fun _ => Group.closed0) g x s.coll.groups } }

/-- Change a group. -/
def modGroup (g : Nat) (f : Group → Group) (s : State) : State := setGroup g (f (getGroup g s)) s

/-- This gateway's site. -/
def selfSite (s : State) : Nat := getN O.SITE_ID s

/-- OPENING or OPEN. -/
def Group.isOpen (x : Group) : Bool := x.gstate == 1 || x.gstate == 2

/-- The members but one. -/
def Group.others (x : Group) (me : Nat) : List Nat := (bitsSet 32 x.members).filter (· != me)

/-- Every member is present. -/
def Group.allPresent (x : Group) : Bool := x.members &&& x.present == x.members

/-- Whether this gateway is the spare of its board group. -/
def isSpareGw (s : State) : Bool := getN O.BG_PLACE s == 8

/-- Whether the spare serves no place: it stays in READY and takes part in no collective (R15). -/
def spareIdle (s : State) : Bool := isSpareGw s && getN O.CR_STATE s != 3

/-- Whether this gateway takes no part in a group: a relay only (R76), or a spare that serves no place (R15, log entry 140). -/
def relayOnly (g : Nat) (s : State) : Bool := !bitOf (getGroup g s).members (selfSite s) || spareIdle s

/-- A final state. -/
def Coll.isFinal (c : Coll) : Bool :=
  match c.cstate with
  | .confirmed | .failed | .cancelled | .replaced => true
  | _ => false

/-- Whether two records are of one collective. -/
def Coll.same (g seq ep : Nat) (c : Coll) : Bool := c.group == g && c.seq == seq && c.epoch == ep

/-- A collective by its identity. -/
def findColl (g seq ep : Nat) (s : State) : Option Coll := s.coll.colls.find? (Coll.same g seq ep)

/-- Change a collective. -/
def modColl (g seq ep : Nat) (f : Coll → Coll) (s : State) : State :=
  { s with coll := { s.coll with colls := s.coll.colls.map fun c => if c.same g seq ep then f c else c } }

/-- The open collectives of a group. -/
def openColls (g : Nat) (s : State) : List Coll := s.coll.colls.filter fun c => c.group == g && !c.isFinal

/-- COLL_OPEN. -/
def collOpenCount (s : State) : Nat := (s.coll.colls.filter fun c => !c.isFinal).length

/-! ### Geometry (R90 to R94) -/

/-- The member count. -/
def Group.n (x : Group) : Nat := x.ring.length

/-- The ring position of a site. -/
def Group.posOf (x : Group) (site : Nat) : Nat := (x.ring.findIdx? (· == site)).getD 0

/-- The site at a position, wrapping. -/
def Group.siteAt (x : Group) (p : Nat) : Nat := x.ring.getD (p % x.n) 0xFF

/-- K (R90). -/
def chunkCount (x : Group) (len : Nat) : Nat := max ((len + x.chunk - 1) / x.chunk) (x.n * x.dirs)

/-- Lc (R90). -/
def chunkLenOf (k len : Nat) : Nat := 256 * ((len + 256 * k - 1) / (256 * k))

/-- The byte range of a chunk. -/
def Coll.range (c : Coll) (k : Nat) : Nat × Nat :=
  (min (k * c.lc) c.posting.length, min ((k + 1) * c.lc) c.posting.length)

/-- The length of a chunk. -/
def Coll.chunkBytes (c : Coll) (k : Nat) : Nat := (c.range k).2 - (c.range k).1

/-- The owner's position. -/
def Group.ownerPos (x : Group) (k : Nat) : Nat := k % x.n

/-- The direction of a chunk. -/
def Group.dirOf (x : Group) (k : Nat) : Nat := k / x.n % x.dirs

/-- The position after another in a chunk's direction (R91). -/
def Group.nextPos (x : Group) (k p : Nat) : Nat := if x.dirOf k = 0 then (p + 1) % x.n else (p + x.n - 1) % x.n

/-- The position before another in a chunk's direction. -/
def Group.prevPos (x : Group) (k p : Nat) : Nat := if x.dirOf k = 0 then (p + x.n - 1) % x.n else (p + 1) % x.n

/-- How many hops a ring chunk has made when it reaches a position (R93). -/
def hopOf (x : Group) (op k p : Nat) : Nat :=
  let start := if op = 1 then x.nextPos k (x.ownerPos k) else x.ownerPos k
  if x.dirOf k = 0 then (p + x.n - start) % x.n else (start + x.n - p) % x.n

/-- The sites this member receives a chunk from, in delivery order (R93, R94, R166). -/
def Coll.sources (c : Coll) (x : Group) (me k : Nat) : List Nat :=
  let p := x.posOf me
  let o := x.ownerPos k
  if c.chunkBytes k = 0 then []
  else if c.op = 1 then
    if c.ring then (if hopOf x 1 k p = 0 then [] else [x.siteAt (x.prevPos k p)])
    else if p = o then (List.range (x.n - 1)).map fun j => x.siteAt (o + 1 + j) else []
  else if p = o then []
  else if c.ring then [x.siteAt (x.prevPos k p)] else [x.siteAt o]

/-- The items this member receives, in delivery order (R166). -/
def Coll.expected (c : Coll) (x : Group) (me : Nat) : List (Nat × Nat) :=
  (List.range c.k).flatMap fun k => (c.sources x me k).map fun src => (k, src)

/-- Whether this member owns a chunk. -/
def owns (x : Group) (me k : Nat) : Bool := x.ownerPos k == x.posOf me

/-- The chunks this member finishes, in the order SEND_READY counts them (R166). -/
def Coll.finishes (c : Coll) (x : Group) (me : Nat) : List Nat :=
  (List.range c.k).filter fun k => c.chunkBytes k != 0 && (c.op == 1 || owns x me k)

/-- Where this member's finished chunk goes; an owned chunk of a reduce-scatter goes nowhere. -/
def Coll.dests (c : Coll) (x : Group) (me k : Nat) : List Nat :=
  let p := x.posOf me
  if c.op = 1 then
    if owns x me k then [] else if c.ring then [x.siteAt (x.nextPos k p)] else [x.siteAt (x.ownerPos k)]
  else if c.ring then [x.siteAt (x.nextPos k p)] else x.others me

/-- The service class of a collective: SC2 below the crossover (Table 1.2). -/
def Coll.sc (c : Coll) (x : Group) : Nat := if c.posting.length < x.crossover then 2 else 1

/-! ### The crates of a chunk -/

/-- Whether a collective's bytes land in its output list as they are: those of an all-gather do, raw elements and LR factor elements
alike; XC blocks are decoded first (R90, R95). -/
def Coll.landsInList (c : Coll) : Bool := c.op == 2 && c.xcRanges.isEmpty

/-- An item nothing has landed of. -/
def Item.new0 : Item := {}

/-- The key of an item. -/
def itemKey (k src : Nat) : Nat := k * 32 + src

/-- An item of a collective. -/
def Coll.item (c : Coll) (k src : Nat) : Item := smGet (fun _ => Item.new0) (itemKey k src) c.items

/-- Store an item. -/
def Coll.setItem (k src : Nat) (it : Item) (c : Coll) : Coll :=
  { c with items := smPut (fun _ => Item.new0) (itemKey k src) it c.items }

end Sys2Proof.Machine
end

