-- ==== Sys2Proof/Machine/ChunkUse.lean ====
section
/-! DEFINITION. The USED flag of chunks (R98), which reads of their crates set. -/

namespace Sys2Proof.Machine

/-- Whether a crate belongs to an incomplete chunk's item: it holds landed bytes of it, or the chunk's part of the output list names
it, landed or not. -/
def Coll.touches (h : Nat) (es : List (Nat × Nat)) (c : Coll) (k : Nat) (it : Item) : Bool :=
  !it.complete && (it.pieces.any (fun p => p.handles.contains h)
    || (c.landsInList && (listTouched es (c.range k).1 (c.chunkBytes k)).any fun e => e.2 == h))

/-- The entries of a collective's output list. -/
def Coll.outEntries (c : Coll) (s : State) : List (Nat × Nat) :=
  match readList c.posting.outList s with | some l => l.entries | none => []

/-- A collective after a read of crate `h`: the items of its incomplete chunks that have to do with it are USED. -/
def Coll.noteUse (h : Nat) (s : State) (c : Coll) : Coll :=
  if c.isFinal then c
  else
    let es := c.outEntries s
    (c.expected (getGroup c.group s) (selfSite s)).foldl (fun d e =>
      let it := d.item e.1 e.2
      if d.touches h es e.1 it then d.setItem e.1 e.2 { it with used := true } else d) c

/-- Set USED on every incomplete chunk a crate belongs to (R98, R151). -/
def markUsed (h : Nat) (s : State) : State :=
  { s with coll := { s.coll with colls := s.coll.colls.map (Coll.noteUse h s) } }

/-- A read of device memory is a read of the crates it touches. -/
def markUsedAt (a n : Nat) (s : State) : State :=
  if s.coll.colls.isEmpty then s
  else (((List.range ((n + 255) / 256 + 1)).filterMap fun i => crateOfAddr (min (a + 256 * i) (a + n - 1)) s).eraseDups).foldl
    (fun u h => markUsed h u) s

end Sys2Proof.Machine
end

