-- ==== Sys2Proof/Machine/Flags.lean ====
section
/-! DEFINITION. The exception flags of the vector unit (Table 6.3) and the rounding attributes
(Table 6.2). -/

namespace Sys2Proof.Machine

/-- The flags an arithmetic operation raises (Table 6.3). -/
structure FpFlags where
  sat : Bool := false
  nv : Bool := false
  dz : Bool := false
  ovf : Bool := false
  unf : Bool := false
  nx : Bool := false
  deriving DecidableEq, Repr

/-- No flag. -/
def FpFlags.none : FpFlags := {}

/-- Both operations' flags. -/
def FpFlags.or (a b : FpFlags) : FpFlags :=
  ⟨a.sat || b.sat, a.nv || b.nv, a.dz || b.dz, a.ovf || b.ovf, a.unf || b.unf, a.nx || b.nx⟩

/-- The flags as bits [5:0] of CSR FFLAGS (Table 6.3). -/
def FpFlags.bits (f : FpFlags) : Nat :=
  32 * ofBool f.sat + 16 * ofBool f.nv + 8 * ofBool f.dz + 4 * ofBool f.ovf + 2 * ofBool f.unf + ofBool f.nx

/-- OR flags into the six flag bits of an FFLAGS value (R182). -/
def orFlags (fflags : Nat) (f : FpFlags) : Nat := Nat.lor (fflags % 64) f.bits

/-- The rounding attributes of IEEE 754-2019, in the order of Table 6.2. -/
inductive Rounding where
  | tiesToEven | towardZero | towardNegative | towardPositive | tiesToAway
  deriving DecidableEq, Repr

/-- The attribute of an RM or RMODE value 0 to 4. -/
def Rounding.ofCode : Nat → Option Rounding
  | 0 => some .tiesToEven
  | 1 => some .towardZero
  | 2 => some .towardNegative
  | 3 => some .towardPositive
  | 4 => some .tiesToAway
  | _ => none

/-- The attribute an instruction's RM field selects, with CSR RMODE (Table 6.2); `none` for 5 and 6. -/
def Rounding.select (rm rmode : Nat) : Option Rounding :=
  if rm = 7 then Rounding.ofCode rmode else Rounding.ofCode rm

/-- Whether a magnitude whose dropped part is `rem` out of `full` rounds up in magnitude; `odd` tells
whether the kept part is odd. -/
def Rounding.up (r : Rounding) (neg odd : Bool) (rem full : Nat) : Bool :=
  match r with
  | .tiesToEven => decide (full < 2 * rem) || (decide (2 * rem = full) && odd)
  | .towardZero => false
  | .towardNegative => neg && decide (0 < rem)
  | .towardPositive => !neg && decide (0 < rem)
  | .tiesToAway => decide (full ≤ 2 * rem) && decide (0 < rem)

end Sys2Proof.Machine
end

