-- ==== Sys2Proof/Machine/Formats.lean ====
section
/-! DEFINITION. Number formats and arithmetic (R180 to R195): the exact value of each code, one
rounding into each format, the IEEE operations of the vector unit and the group sums of the
matrix unit. -/

namespace Sys2Proof.Machine

/-- An exact value: a NaN, an infinity, or `(-1)^neg * m * 2^e`. -/
inductive FVal where
  | nan (signalling : Bool)
  | inf (neg : Bool)
  | fin (neg : Bool) (m : Nat) (e : Int)
  deriving DecidableEq, Repr

/-- A floating format with an implicit leading bit: exponent and mantissa widths and bias. -/
structure FloatFmt where
  eb : Nat
  mb : Nat
  bias : Nat
  deriving DecidableEq, Repr

def fp64 : FloatFmt := ⟨11, 52, 1023⟩
def fp32 : FloatFmt := ⟨8, 23, 127⟩
def fp16 : FloatFmt := ⟨5, 10, 15⟩
def jf16 : FloatFmt := ⟨8, 7, 127⟩
def jf8 : FloatFmt := ⟨4, 3, 8⟩
def jf8e : FloatFmt := ⟨5, 2, 15⟩
/-- The element formats of the block formats (Table 6.5), without their scale. -/
def jb6 : FloatFmt := ⟨3, 2, 3⟩
def jb4 : FloatFmt := ⟨2, 1, 1⟩

/-- The floating format of a format code that has one (Table 6.1). -/
def floatFmt : Nat → Option FloatFmt
  | 0 => some fp32
  | 1 => some fp16
  | 2 => some jf16
  | 3 => some jf8
  | 4 => some jf8e
  | 9 => some fp64
  | _ => none

/-- Whether a format code is a block format (Table 6.1). -/
def isBlockFmt (f : Nat) : Bool := 5 ≤ f && f ≤ 8

/-- Bytes of one element of a floating format code; 0 for the block formats. -/
def elemBytes : Nat → Nat
  | 0 => 4 | 1 => 2 | 2 => 2 | 3 => 1 | 4 => 1 | 9 => 8 | _ => 0

/-- The value of the finite code with the fields given, subnormals included. -/
def FloatFmt.finite (f : FloatFmt) (neg : Bool) (ex man : Nat) : FVal :=
  if ex = 0 then .fin neg man (1 - (f.bias : Int) - f.mb)
  else .fin neg (2 ^ f.mb + man) ((ex : Int) - f.bias - f.mb)

/-- The value of an IEEE-shaped code: all-ones exponent for infinities and NaNs, the NaN quiet when
its top mantissa bit is set. -/
def FloatFmt.decode (f : FloatFmt) (code : Nat) : FVal :=
  let neg := bitOf code (f.eb + f.mb)
  let ex := field code (f.eb + f.mb - 1) f.mb
  let man := code % 2 ^ f.mb
  if ex = 2 ^ f.eb - 1 then
    if man = 0 then .inf neg else .nan (decide (man < 2 ^ (f.mb - 1)))
  else f.finite neg ex man

/-- The exact value of a code in a floating format code of Table 6.1, after the input flush of R183. -/
def decodeElem (fmt code : Nat) : FVal :=
  match fmt with
  | 0 => fp32.decode (code % 2 ^ 32)
  | 1 => fp16.decode (code % 2 ^ 16)
  | 2 => match jf16.decode (code % 2 ^ 16) with
         | .fin neg m e => if field code 14 7 = 0 then .fin neg 0 0 else .fin neg m e
         | v => v
  | 3 => if code % 256 = 0x80 then .nan false
         else jf8.finite (bitOf code 7) (field code 6 3) (code % 8)
  | 4 => jf8e.decode (code % 256)
  | 9 => fp64.decode (code % 2 ^ 64)
  | _ => .nan false

/-- The value of a block element code before its scale (Table 6.5). -/
def blockElem (fmt code : Nat) : FVal :=
  match fmt with
  | 5 => jb6.finite (bitOf code 5) (field code 4 2) (code % 4)
  | 6 => jb4.finite (bitOf code 3) (field code 2 1) (code % 2)
  | 7 => let i := toSigned 8 code; .fin (decide (i < 0)) i.natAbs 0
  | _ => let i := toSigned 4 code; .fin (decide (i < 0)) i.natAbs 0

/-- A block element with its scale byte (R186). -/
def scaleBy (x : Nat) : FVal → FVal
  | .fin neg m e => if x = 0xFF then .nan false else .fin neg m (e + x - 127)
  | v => if x = 0xFF then .nan false else v

/-- Whether a value is zero. -/
def FVal.isZero : FVal → Bool
  | .fin _ m _ => m == 0
  | _ => false

/-- Whether a value is a NaN. -/
def FVal.isNan : FVal → Bool
  | .nan _ => true
  | _ => false

/-- Whether a value is a signalling NaN. -/
def FVal.isSnan : FVal → Bool
  | .nan b => b
  | _ => false

/-- The sign bit of a value. -/
def FVal.isNeg : FVal → Bool
  | .fin n _ _ => n
  | .inf n => n
  | .nan _ => false

/-- ⌊log₂ of the magnitude⌋ of a non-zero finite value. -/
def expOf (m : Nat) (e : Int) : Int := (Nat.log2 m : Int) + e

/-- `m * 2^e` as a whole number of units of `2^q`, with what is dropped as `rem` out of `full`. -/
def scaleTo (m : Nat) (e q : Int) : Nat × Nat × Nat :=
  if q ≤ e then (m * 2 ^ (e - q).toNat, 0, 1)
  else let d := 2 ^ (q - e).toNat; (m / d, m % d, d)

/-- One rounding of a non-zero magnitude to units of `2^q`: the units, and whether anything was dropped. -/
def roundUnits (r : Rounding) (neg : Bool) (m : Nat) (e q : Int) : Nat × Bool :=
  let (u, rem, full) := scaleTo m e q
  (if r.up neg (u % 2 == 1) rem full then u + 1 else u, decide (0 < rem))

/-- The least exponent of a normal value. -/
def FloatFmt.emin (f : FloatFmt) : Int := 1 - (f.bias : Int)

/-- The magnitude code (no sign) a non-zero finite value rounds to with the exponent range unbounded
above, whether it is inexact, and whether it is tiny after rounding (R181). -/
def FloatFmt.roundMag (f : FloatFmt) (r : Rounding) (neg : Bool) (m : Nat) (e : Int) : Nat × Bool × Bool :=
  let ex := expOf m e
  let q := max ex f.emin - f.mb
  let (u, nx) := roundUnits r neg m e q
  let code := u + (q - (f.emin - f.mb)).toNat * 2 ^ f.mb
  let tiny := decide (ex < f.emin) &&
    decide ((roundUnits r neg m e (ex - f.mb)).1 < 2 ^ (f.mb + 1) ∨ ex + 1 < f.emin)
  (code, nx, tiny)

/-- Whether overflow under an attribute gives an infinity and not the largest finite (IEEE 754-2019). -/
def Rounding.overflowsToInf (r : Rounding) (neg : Bool) : Bool :=
  match r with
  | .tiesToEven | .tiesToAway => true
  | .towardZero => false
  | .towardNegative => neg
  | .towardPositive => !neg

/-- The sign bit of a code. -/
def FloatFmt.signBit (f : FloatFmt) (neg : Bool) : Nat := if neg then 2 ^ (f.eb + f.mb) else 0

/-- The code of infinity, without sign. -/
def FloatFmt.infCode (f : FloatFmt) : Nat := (2 ^ f.eb - 1) * 2 ^ f.mb

/-- The canonical quiet NaN of an IEEE-shaped format (R181, Table 6.4). -/
def FloatFmt.nanCode (f : FloatFmt) : Nat := f.infCode + 2 ^ (f.mb - 1)

/-- One rounding into an IEEE-shaped format. -/
def FloatFmt.encode (f : FloatFmt) (r : Rounding) : FVal → Nat × FpFlags
  | .nan sn => (f.nanCode, { nv := sn })
  | .inf neg => (f.signBit neg + f.infCode, {})
  | .fin neg m e =>
    if m = 0 then (f.signBit neg, {})
    else
      let (code, nx, tiny) := f.roundMag r neg m e
      if f.infCode ≤ code then
        (f.signBit neg + (if r.overflowsToInf neg then f.infCode else f.infCode - 1), { ovf := true, nx := true })
      else (f.signBit neg + code, { nx := nx, unf := nx && tiny })

/-- One rounding into JF16: a result below the normal range after rounding, which is to eight significant bits (log entry 127),
becomes a signed zero with UF and NX (R183). -/
def encodeJf16 (r : Rounding) (v : FVal) : Nat × FpFlags :=
  match v with
  | .fin neg m e =>
    if m ≠ 0 ∧ (jf16.roundMag r neg m e).2.2 then (jf16.signBit neg, { unf := true, nx := true })
    else jf16.encode r v
  | _ => jf16.encode r v

/-- One rounding into JF8: saturation at 240, no negative zero, one NaN (R184). -/
def encodeJf8 (r : Rounding) (v : FVal) : Nat × FpFlags :=
  match v with
  | .nan sn => (0x80, { nv := sn })
  | .inf neg => (jf8.signBit neg + 0x7F, { sat := true, nx := true })
  | .fin neg m e =>
    if m = 0 then (0, {})
    else
      let (code, nx, tiny) := jf8.roundMag r neg m e
      if 0x7F < code then (jf8.signBit neg + 0x7F, { sat := true, nx := true })
      else if code = 0 then (0, { nx := true, unf := true })
      else (jf8.signBit neg + code, { nx := nx, unf := nx && tiny })

/-- One rounding into a floating format code (Table 6.7). -/
def encodeElem (fmt : Nat) (r : Rounding) (v : FVal) : Nat × FpFlags :=
  match fmt with
  | 0 => fp32.encode r v
  | 1 => fp16.encode r v
  | 2 => encodeJf16 r v
  | 3 => encodeJf8 r v
  | 4 => jf8e.encode r v
  | _ => fp64.encode r v

/-! ### Block formats (R186 to R189) -/

/-- emax of a block format (Table 6.5). -/
def blockEmax : Nat → Int
  | 5 => 4 | 6 => 2 | 7 => 6 | _ => 2

/-- Element width, bytes per block and blocks per group (Table 6.6). -/
def blockGeom : Nat → Nat × Nat × Nat
  | 5 => (6, 24, 80)
  | 6 => (4, 16, 120)
  | 7 => (8, 32, 60)
  | _ => (4, 16, 120)

/-- The largest magnitude among finite non-zero values, as ⌊log₂⌋; `none` when all are zero. -/
def maxExp (vs : List FVal) : Option Int :=
  vs.foldl (fun acc v => match v with
    | .fin _ m e => if m = 0 then acc else match acc with
        | none => some (expOf m e)
        | some x => some (max x (expOf m e))
    | _ => acc) none

/-- The scale byte a block's inputs choose (R189, steps 1 to 3). -/
def chooseScale (fmt : Nat) (vs : List FVal) : Nat :=
  if vs.any (fun v => match v with | .fin _ _ _ => false | _ => true) then 0xFF
  else match maxExp vs with
    | none => 127
    | some e => (min (max (e - blockEmax fmt + 127) 0) 254).toNat

/-- One element narrowed under a chosen scale (R189): its code and flags. -/
def encodeBlockElem (fmt : Nat) (r : Rounding) (x : Nat) (v : FVal) : Nat × FpFlags :=
  if x = 0xFF then (0, { nv := v.isSnan })
  else match v with
  | .fin neg m e =>
    let e' := e - x + 127
    match fmt with
    | 5 | 6 =>
      let f := if fmt = 5 then jb6 else jb4
      let top := 2 ^ (f.eb + f.mb) - 1
      let sgn := f.signBit neg
      if m = 0 then (sgn, {})
      else
        let (code, nx, _) := f.roundMag r neg m e'
        if top < code then (sgn + top, { sat := true, nx := true }) else (sgn + code, { nx := nx })
    | _ =>
      let w := if fmt = 7 then 8 else 4
      let top := 2 ^ (w - 1) - 1
      if m = 0 then (0, {})
      else
        let (u, nx) := roundUnits r neg m e' 0
        let (u', sat) := if top < u then (top, true) else (u, false)
        (ofSigned w (if neg then -(u' : Int) else u'), { nx := nx || sat, sat := sat })
  | _ => (0, {})

/-! ### IEEE operations (R181) -/

/-- Exact sum of two finite values. -/
def addFin (n1 : Bool) (m1 : Nat) (e1 : Int) (n2 : Bool) (m2 : Nat) (e2 : Int) : Int × Int :=
  let e := min e1 e2
  let a : Int := (m1 * 2 ^ (e1 - e).toNat : Nat)
  let b : Int := (m2 * 2 ^ (e2 - e).toNat : Nat)
  ((if n1 then -a else a) + (if n2 then -b else b), e)

/-- The exact sum of two values, a zero sum taking its sign from the attribute; the flag is invalid. -/
def FVal.add (r : Rounding) (a b : FVal) : FVal × FpFlags :=
  match a, b with
  | .nan s1, .nan s2 => (.nan false, { nv := s1 || s2 })
  | .nan s1, _ => (.nan false, { nv := s1 })
  | _, .nan s2 => (.nan false, { nv := s2 })
  | .inf n1, .inf n2 => if n1 = n2 then (.inf n1, {}) else (.nan false, { nv := true })
  | .inf n1, _ => (.inf n1, {})
  | _, .inf n2 => (.inf n2, {})
  | .fin n1 m1 e1, .fin n2 m2 e2 =>
    let (t, e) := addFin n1 m1 e1 n2 m2 e2
    if t = 0 then
      (.fin (if m1 = 0 ∧ m2 = 0 ∧ n1 = n2 then n1 else decide (r = .towardNegative)) 0 0, {})
    else (.fin (decide (t < 0)) t.natAbs e, {})

/-- Negation. -/
def FVal.neg : FVal → FVal
  | .nan s => .nan s
  | .inf n => .inf (!n)
  | .fin n m e => .fin (!n) m e

/-- The exact product. -/
def FVal.mul (a b : FVal) : FVal × FpFlags :=
  match a, b with
  | .nan s1, .nan s2 => (.nan false, { nv := s1 || s2 })
  | .nan s1, _ => (.nan false, { nv := s1 })
  | _, .nan s2 => (.nan false, { nv := s2 })
  | .inf n1, .inf n2 => (.inf (n1 != n2), {})
  | .inf n1, .fin n2 m _ => if m = 0 then (.nan false, { nv := true }) else (.inf (n1 != n2), {})
  | .fin n1 m _, .inf n2 => if m = 0 then (.nan false, { nv := true }) else (.inf (n1 != n2), {})
  | .fin n1 m1 e1, .fin n2 m2 e2 => (.fin (n1 != n2) (m1 * m2) (e1 + e2), {})

/-- The quotient, exact or carrying one sticky bit below every bit a rounding looks at (60 bits more
than any format keeps). -/
def FVal.div (a b : FVal) : FVal × FpFlags :=
  match a, b with
  | .nan s1, .nan s2 => (.nan false, { nv := s1 || s2 })
  | .nan s1, _ => (.nan false, { nv := s1 })
  | _, .nan s2 => (.nan false, { nv := s2 })
  | .inf _, .inf _ => (.nan false, { nv := true })
  | .inf n1, .fin n2 _ _ => (.inf (n1 != n2), {})
  | .fin n1 _ _, .inf n2 => (.fin (n1 != n2) 0 0, {})
  | .fin n1 m1 e1, .fin n2 m2 e2 =>
    if m2 = 0 then
      if m1 = 0 then (.nan false, { nv := true }) else (.inf (n1 != n2), { dz := true })
    else
      let k := 120 + Nat.log2 m2
      let n := m1 * 2 ^ k
      (.fin (n1 != n2) (2 * (n / m2) + (if n % m2 = 0 then 0 else 1)) (e1 - e2 - k - 1), {})

/-- Whole square root by bisection on the bits from `b` down. -/
def isqrtBits (n : Nat) : Nat → Nat → Nat
  | 0, acc => acc
  | b + 1, acc => let t := acc + 2 ^ b; isqrtBits n b (if t * t ≤ n then t else acc)

/-- Whole square root. -/
def isqrt (n : Nat) : Nat := isqrtBits n (Nat.log2 n / 2 + 1) 0

/-- The square root, exact or carrying one sticky bit below every bit a rounding looks at. -/
def FVal.sqrt (a : FVal) : FVal × FpFlags :=
  match a with
  | .nan s1 => (.nan false, { nv := s1 })
  | .inf true => (.nan false, { nv := true })
  | .inf false => (.inf false, {})
  | .fin neg m e =>
    if m = 0 then (.fin neg 0 0, {})
    else if neg then (.nan false, { nv := true })
    else
      let (m', e') := if e % 2 = 0 then (m, e) else (2 * m, e - 1)
      let n := m' * 2 ^ 256
      let q := isqrt n
      (.fin false (2 * q + (if q * q = n then 0 else 1)) (e' / 2 - 128 - 1), {})

/-- Whether one value is below another; neither is a NaN. -/
def FVal.lt (a b : FVal) : Bool :=
  match a, b with
  | .inf n1, .inf n2 => n1 && !n2
  | .inf n1, _ => n1
  | _, .inf n2 => !n2
  | .fin n1 m1 e1, .fin n2 m2 e2 => decide ((addFin n1 m1 e1 (!n2) m2 e2).1 < 0)
  | _, _ => false

/-- The arithmetic vector operations of one element, by the operation's number (Table 5.6). -/
inductive VecOp where
  | add | sub | mul | fma | max | min | div | sqrt
  deriving DecidableEq, Repr

/-- IEEE maximum of two values that are not NaNs, −0 below +0. -/
def FVal.maxNum (a b : FVal) : FVal :=
  if a.lt b then b else if b.lt a then a else if a.isNeg then b else a

/-- IEEE minimum of two values that are not NaNs, −0 below +0. -/
def FVal.minNum (a b : FVal) : FVal :=
  if a.lt b then a else if b.lt a then b else if a.isNeg then a else b

/-- VMAX or VMIN of exactly one NaN and a number: IEEE 754-2019 has an operation that returns the NaN and one that returns the number,
and the spec does not say which is meant; the parity of `open1` chooses (log entry 21). -/
def oneNan (x y : FVal) (open1 : Nat) : FVal × FpFlags :=
  (if open1 % 2 = 0 then .nan false else if x.isNan then y else x, { nv := x.isSnan || y.isSnan })

/-- One element of a vector operation in a format code: the code written and the flags. -/
def vecElem (op : VecOp) (fmt : Nat) (r : Rounding) (a b c : Nat) (open1 : Nat) : Nat × FpFlags :=
  let x := decodeElem fmt a
  let y := decodeElem fmt b
  let z := decodeElem fmt c
  let fin (p : FVal × FpFlags) : Nat × FpFlags :=
    let (code, fl) := encodeElem fmt r p.1
    (code, fl.or p.2)
  match op with
  | .add => fin (FVal.add r x y)
  | .sub => fin (FVal.add r x y.neg)
  | .mul => fin (FVal.mul x y)
  | .div => fin (FVal.div x y)
  | .sqrt => fin (FVal.sqrt x)
  | .fma =>
    let (p, f1) := FVal.mul x y
    let (t, f2) := FVal.add r p z
    fin (t, (f1.or f2).or { nv := z.isSnan })
  | .max =>
    if x.isNan && y.isNan then fin (.nan (x.isSnan || y.isSnan), {})
    else if x.isNan || y.isNan then fin (oneNan x y open1)
    else fin (x.maxNum y, {})
  | .min =>
    if x.isNan && y.isNan then fin (.nan (x.isSnan || y.isSnan), {})
    else if x.isNan || y.isNan then fin (oneNan x y open1)
    else fin (x.minNum y, {})

/-- One addition of two codes in a format code: the adds of VREDSUM and RTREE. -/
def addCodes (fmt : Nat) (r : Rounding) (a b : Nat) : Nat × FpFlags :=
  vecElem .add fmt r a b 0 0

/-- One level of the fixed pairwise tree (R153). -/
def pairLevel (fmt : Nat) (r : Rounding) : List Nat → List Nat × FpFlags
  | a :: b :: rest =>
    let (x, f1) := addCodes fmt r a b
    let (xs, f2) := pairLevel fmt r rest
    (x :: xs, f1.or f2)
  | xs => (xs, {})

/-- The pairwise tree over `n` levels (R153). -/
def pairTree (fmt : Nat) (r : Rounding) : Nat → List Nat → List Nat × FpFlags
  | 0, xs => (xs, {})
  | n + 1, xs =>
    let (ys, f1) := pairLevel fmt r xs
    let (zs, f2) := pairTree fmt r n ys
    (zs, f1.or f2)

/-! ### The matrix unit (R191 to R193) -/

/-- ⌊m * 2^e / 2^q⌋ with sign: truncation toward −∞ (R192). -/
def truncTo (neg : Bool) (m : Nat) (e q : Int) : Int :=
  let (u, rem, _) := scaleTo m e q
  if neg then -((u : Int) + (if 0 < rem then 1 else 0)) else u

/-- The sum S of one group of exact terms (R191, R192). -/
def groupSum (ps : List FVal) : FVal :=
  if ps.any FVal.isNan then .nan false
  else
    let infs := ps.filter fun p => match p with | .inf _ => true | _ => false
    if infs.any FVal.isNeg && infs.any (fun p => !p.isNeg) then .nan false
    else match infs with
    | p :: _ => p
    | [] => match maxExp ps with
      | none => .fin false 0 0
      | some ex =>
        let q := ex - 26
        let t := ps.foldl (fun acc p => match p with
          | .fin n m e => acc + truncTo n m e q
          | _ => acc) (0 : Int)
        .fin (decide (t < 0)) t.natAbs q

/-- Add one group's sum to an FP32 accumulator element with one rounding (R193); a NaN is 0x7FC0_0000
(R191). -/
def accAdd (acc : Nat) (s : FVal) : Nat :=
  (fp32.encode .tiesToEven (FVal.add .tiesToEven (fp32.decode acc) s).1).1

/-- Cut a list into groups of `n`; `fuel` bounds their number. -/
def chunksOf {α : Type} (n : Nat) : Nat → List α → List (List α)
  | 0, _ => []
  | _, [] => []
  | fuel + 1, xs => xs.take n :: chunksOf n fuel (xs.drop n)

/-- One tile element over the K steps of a MOPA: groups of 32 consecutive steps (R192), added in step
order (R193). -/
def mopaElem (acc : Nat) (as bs : List FVal) : Nat :=
  let ps := List.zipWith (fun a b => (FVal.mul a b).1) as bs
  (chunksOf 32 (ps.length + 1) ps).foldl (fun a g => accAdd a (groupSum g)) acc

/-! ### The exponent histogram (R195) -/

/-- What one written element counts as. -/
inductive HistBin where
  | bin (k : Nat) | zero | subnormal | inf | nan
  deriving DecidableEq, Repr

/-- The bin of a value's exponent. -/
def expBin (e : Int) : Nat := (min (max (e + 48) 0) 63).toNat

/-- What an element written in a floating format counts as; `src` is the value it came from. -/
def histElem (fmt code : Nat) (src : FVal) : HistBin :=
  match decodeElem fmt code with
  | .nan _ => .nan
  | .inf _ => .inf
  | .fin _ m e =>
    if m = 0 then (if src.isZero then .zero else .subnormal)
    else match floatFmt fmt with
      | some f => if expOf m e < f.emin then .subnormal else .bin (expBin (expOf m e))
      | none => .bin (expBin (expOf m e))

/-- What an element written in a block format with scale `x` counts as: subnormal elements of JB6 and
JB4 are those below the element format's normal range. -/
def histBlockElem (fmt x code : Nat) (src : FVal) : HistBin :=
  if x = 0xFF then .nan
  else match blockElem fmt code with
  | .fin _ m e =>
    if m = 0 then (if src.isZero then .zero else .subnormal)
    else
      let sub := match fmt with
        | 5 => decide (expOf m e < jb6.emin)
        | 6 => decide (expOf m e < jb4.emin)
        | _ => false
      if sub then .subnormal else .bin (expBin (expOf m e + x - 127))
  | _ => .nan

end Sys2Proof.Machine
end

