-- ==== Sys2Proof/Machine/Tally.lean ====
section
/-! DEFINITION. Stall registers, the unit map and the tally engine (R156 to R166), as operations every
family shares. -/

namespace Sys2Proof.Machine

/-! ### Stalls and units -/

/-- A stall nothing has been placed on. -/
def Stall.idle0 : Stall := {}

/-- A stall by number (R8). -/
def getStall (n : Nat) (s : State) : Stall := smGet (fun _ => Stall.idle0) n s.comp.stalls

/-- Store a stall. -/
def setStall (n : Nat) (x : Stall) (s : State) : State :=
  { s with comp := { s.comp with stalls := smPut (fun _ => Stall.idle0) n x s.comp.stalls } }

/-- A unit-map entry no unit holds. -/
def UnitEnt.free0 : UnitEnt := {}

/-- The unit-map entry of a tag (R160). -/
def getUnit (tag : Nat) (s : State) : UnitEnt := smGet (fun _ => UnitEnt.free0) tag s.comp.unitMap

/-- Store a unit-map entry. -/
def setUnit (tag : Nat) (u : UnitEnt) (s : State) : State :=
  { s with comp := { s.comp with unitMap := smPut (fun _ => UnitEnt.free0) tag u s.comp.unitMap } }

/-- The row of a stall (R8). -/
def stallRow (st : Nat) : Nat := st / 8

/-- The running placement of a number. -/
def getPlacement (n : Nat) (s : State) : Option Placement :=
  (s.comp.placements.find? fun p => p.1 == n).map (·.2)

/-- Replace a running placement. -/
def setPlacement (n : Nat) (p : Placement) (s : State) : State :=
  { s with comp := { s.comp with placements := s.comp.placements.map fun q => if q.1 == n then (n, p) else q } }

/-- The program image a stall runs. -/
def stallProgram (x : Stall) (s : State) : Option Program := (getPlacement x.placement s).map (·.prog)

/-- Scalar register 0. -/
def SReg.zero : SReg := {}

/-- A scalar register; s0 reads zero (Table 5.1). -/
def Stall.rdS (x : Stall) (r : Nat) : SReg := if r = 0 then SReg.zero else smGet (fun _ => SReg.zero) r x.sregs

/-- Write a scalar register; a write of s0 is discarded. -/
def Stall.wrS (r : Nat) (v : SReg) (x : Stall) : Stall :=
  if r = 0 then x else { x with sregs := smPut (fun _ => SReg.zero) r v x.sregs }

/-- A clean zero lane. -/
def Lane.zero : Lane := {}

/-- One lane of a vector register. -/
def Stall.rdLane (x : Stall) (r l : Nat) : Lane := smGet (fun _ => Lane.zero) (r * 64 + l) x.vregs

/-- Write the 64 lanes of a vector register. -/
def Stall.wrVec (r : Nat) (ls : List Lane) (x : Stall) : Stall :=
  { x with vregs := smPutRun (fun _ => Lane.zero) (r * 64) ls x.vregs }

/-- Every lane on: what a mask register holds until it is written (log entry 24). -/
def maskDefault : Nat := 2 ^ 64 - 1

/-- A mask register. -/
def Stall.rdMask (x : Stall) (k : Nat) : Nat := smGet (fun _ => maskDefault) k x.masks

/-- The poisoned bits of a mask register (R145). -/
def Stall.rdMaskP (x : Stall) (k : Nat) : Nat := smGet (fun _ => 0) k x.maskP

/-- Write a mask register. -/
def Stall.wrMask (k v p : Nat) (x : Stall) : Stall :=
  { x with masks := smPut (fun _ => maskDefault) k v x.masks, maskP := smPut (fun _ => 0) k p x.maskP }

/-- One element of an accumulator tile, by row × 64 + column. -/
def Stall.rdTile (x : Stall) (t i : Nat) : Lane := smGet (fun _ => Lane.zero) (t * 2048 + i) x.tiles

/-- Write the 2,048 elements of a tile. -/
def Stall.wrTile (t : Nat) (ls : List Lane) (x : Stall) : Stall :=
  { x with tiles := smPutRun (fun _ => Lane.zero) (t * 2048) ls x.tiles }

/-! ### Tallies (R159 to R162) -/

/-- A tally nothing has allocated: FREE (Table 5.15). -/
def tallyDefault (_ : Nat) : Tally := {}

/-- A tally by number. -/
def getTally (t : Nat) (s : State) : Tally := smGet tallyDefault t s.comp.tallies

/-- Store a tally. -/
def setTally (t : Nat) (x : Tally) (s : State) : State :=
  { s with comp := { s.comp with tallies := smPut tallyDefault t x s.comp.tallies } }

/-- Put a tally into ERROR; one already in ERROR keeps its cause (R164, R217). -/
def tallyError (t cause : Nat) (s : State) : State :=
  let x := getTally t s
  if x.tstate = 1 then setTally t { x with tstate := 2, cause := cause } s else s

/-- The causes of Table 5.15. -/
def tcOwner : Nat := 1
def tcOverflow : Nat := 2
def tcPoison : Nat := 3
def tcFence : Nat := 4

/-- ADD on a HELD tally; past 0xFFFF_FFFF the count stays and the tally enters ERROR (R159). -/
def tallyAdd (t v : Nat) (s : State) : State :=
  let x := getTally t s
  if x.tstate ≠ 1 then s
  else if x.count + v < 2 ^ 32 then setTally t { x with count := x.count + v } s
  else tallyError t tcOverflow s

/-- Count an operation on a FREE tally (R159). -/
def tallyFreeOp (s : State) : State := addN O.TALLY_FREE_OPS 1 s

/-- ADD by a fixed engine: its operations carry tag 0xFF and are not checked (R160). -/
def engineAdd (t v : Nat) (s : State) : State :=
  if (getTally t s).tstate = 0 then tallyFreeOp s else tallyAdd t v s

/-- RESET on a HELD tally (R159). -/
def tallyReset (t : Nat) (s : State) : State :=
  let x := getTally t s
  if x.tstate = 1 then setTally t { x with count := 0 } s else s

/-- The tally number that stands for a tally whose block was returned while a waiter waited: every wait
on it ends with TALLY_ERROR (R164). -/
def deadTally : Nat := 0x100000000

/-- Whether a wait is over with an error: the tally is in ERROR or was returned (R161, R164). -/
def waitFailed (t : Nat) (s : State) : Bool := t == deadTally || (getTally t s).tstate != 1

/-- Whether a wait is satisfied (R159); an error wins (R161). -/
def waitMet (t v : Nat) (s : State) : Bool := !waitFailed t s && v ≤ (getTally t s).count

/-- The stalls and porter channels that wait on a tally (Table 5.15, WAITERS). -/
def tallyWaiters (t : Nat) (s : State) : Nat :=
  (s.comp.stalls.filter fun p => match p.2.waiting with | some (u, _, _) => u == t | none => false).length
    + (s.port.chans.filter fun p => match p.2.waitFor with | some (u, _) => u == t | none => false).length

/-! ### The tally allocator (R163 to R165) -/

/-- Tallies of allocated blocks of a tenant. -/
def tenantTallies (tenant : Nat) (s : State) : Nat :=
  (s.comp.blocks.filter fun b => b.tenant == tenant).foldl (fun a b => a + b.size) 0

/-- Whether a range of tallies meets no allocated block. -/
def blockFree (base size : Nat) (s : State) : Bool :=
  s.comp.blocks.all fun b => b.base + b.size ≤ base || base + size ≤ b.base

/-- The first FREE aligned block of a size at or above `i` and below `hi`. -/
def findBlock (size hi : Nat) (s : State) : Nat → Nat → Option Nat
  | 0, _ => none
  | fuel + 1, i =>
    if hi < i + size then none
    else if blockFree i size s then some i else findBlock size hi s fuel (i + size)

/-- The least power of two at or above `n`, up to 1,024 (R163). -/
def blockSize (n : Nat) : Nat := ((List.range 11).map (2 ^ ·)).find? (n ≤ ·) |>.getD 1024

/-- The part of a die that blocks are handed out from (Table 5.2). -/
def dieTallies (die : Nat) : Nat × Nat := if die = 0 then (1024, 16384) else (16384, 32768)

/-- Where a block of a size lies, the requesting die first (R163; the lowest place, log entry 25). -/
def placeBlock (size die : Nat) (s : State) : Option Nat :=
  let try1 (d : Nat) : Option Nat :=
    let (lo, hi) := dieTallies d
    findBlock size hi s 16385 ((lo + size - 1) / size * size)
  match try1 die with
  | some b => some b
  | none => try1 (1 - die)

/-- Allocate a block (R163): its base, or nothing, with EV-0x5007 when the tenant's quota refuses it. -/
def allocBlock (count tenant die kind : Nat) (owner : BlockOwner) (s : State) : Option Nat × State :=
  let size := blockSize count
  if getN (O.TALLY_QUOTA + tenant) s < tenantTallies tenant s + size then
    (none, logEvent 0x5007 tenant s)
  else match placeBlock size die s with
  | none => (none, s)
  | some b =>
    let held : Tally := { tstate := 1, tenant := tenant, kind := kind }
    (some b, { s with comp := { s.comp with
      blocks := s.comp.blocks ++ [⟨b, size, tenant, owner⟩],
      tallies := smPutRun tallyDefault b (List.replicate size held) s.comp.tallies } })

/-- Whether a number lies in a block. -/
def TallyBlock.has (b : TallyBlock) (t : Nat) : Bool := b.base ≤ t && t < b.base + b.size

/-- Make the waits on a block's tallies waits on a returned tally (R164). -/
def killWaiters (b : TallyBlock) (s : State) : State :=
  { s with
    comp := { s.comp with stalls := s.comp.stalls.map fun p =>
      match p.2.waiting with
      | some (t, v, d) => if b.has t then (p.1, { p.2 with waiting := some (deadTally, v, d) }) else p
      | none => p },
    port := { s.port with chans := s.port.chans.map fun p =>
      match p.2.waitFor with
      | some (t, v) => if b.has t then (p.1, { p.2 with waitFor := some (deadTally, v) }) else p
      | none => p } }

/-- Return a block to FREE (R164): its tallies enter ERROR with cause OWNER, its waiters are woken, and
it is FREE. -/
def freeBlock (base : Nat) (s : State) : State :=
  match s.comp.blocks.find? fun b => b.base == base with
  | none => s
  | some b =>
    let s1 := killWaiters b s
    { s1 with comp := { s1.comp with
      blocks := s1.comp.blocks.filter fun c => c.base != base,
      tallies := s1.comp.tallies.filter fun c => !(b.has c.1) } }

/-- The block that holds a tally, when it is wholly there. -/
def blockOf (t : Nat) (s : State) : Option TallyBlock := s.comp.blocks.find? fun b => b.has t

/-- The tallies from a base to the end of its block: the block's 2ʲ when the base is its first (R156, R163). -/
def blockTallies (base n : Nat) (s : State) : Nat := match blockOf base s with | some b => b.base + b.size - base | none => n

/-- Put every tally of a range into ERROR. -/
def errorRange (base n cause : Nat) (s : State) : State :=
  (List.range n).foldl (fun u i => tallyError (base + i) cause u) s

/-- TALLY_STATUS (Table 5.15). -/
def tallyStatus (t : Nat) (s : State) : Nat :=
  let x := getTally t s
  x.count * 2 ^ 32 + x.tstate * 2 ^ 30 + x.cause * 2 ^ 26 + min 255 (tallyWaiters t s) * 2 ^ 18
    + x.tenant * 2 ^ 12 + x.kind * 2 ^ 10

/-! ### Histogram slots (R195 to R197) -/

/-- The key of a counter: bins 0 to 63, then ZERO, SUBNORMAL, INF, NAN, SAT. -/
def histKey (tag slot k : Nat) : Nat := (tag * 4 + slot) * 128 + k

/-- A counter of a slot. -/
def histGet (tag slot k : Nat) (s : State) : Nat := smGet (fun _ => 0) (histKey tag slot k) s.comp.hist

/-- Count once; a counter stays at 0xFFFF_FFFF (R196). -/
def histBump (tag slot k : Nat) (s : State) : State :=
  { s with comp := { s.comp with
    hist := smPut (fun _ => 0) (histKey tag slot k) (min 0xFFFFFFFF (histGet tag slot k s + 1)) s.comp.hist } }

/-- Clear one slot. -/
def histClear (tag slot : Nat) (s : State) : State :=
  { s with comp := { s.comp with hist := s.comp.hist.filter fun c => c.1 / 128 != tag * 4 + slot } }

/-- The 512 bytes of a slot (Table 6.9). -/
def histBytes (tag slot : Nat) (s : State) : List Byte :=
  (List.range 69).flatMap (fun k => bytesLE 4 (histGet tag slot k s)) ++ List.replicate 236 0

end Sys2Proof.Machine
end

