-- ==== Sys2Proof/Machine/Xc.lean ====
section
/-! DEFINITION. XC, the lossless exponent coding: code tables (R203 to R205), the encoder (R207) and
the decoder with its checks (R208, Table 7.4). -/

namespace Sys2Proof.Machine

/-! ### Code tables -/

/-- The 64 code lengths of a 32-byte table (R204). -/
def xcLengths (tbl : List Byte) : List Nat :=
  tbl.flatMap fun b => [b.toNat % 16, b.toNat / 16]

/-- The 32 bytes of 64 code lengths (R204). -/
def xcPack : List Nat → List Byte
  | a :: b :: r => BitVec.ofNat 8 (a + 16 * b) :: xcPack r
  | _ => []

/-- ROM table 0: every symbol has length 6 (Table 7.2). -/
def xcRom0 : List Byte := List.replicate 32 0x66#8

/-- ROM table 1 (Table 7.2). -/
def xcRom1 : List Byte :=
  xcPack ([2, 2, 3, 3, 4, 4, 5, 5, 7, 7, 7, 7, 7, 7, 8, 8] ++ List.replicate 46 0 ++ [8, 8])

/-- The length of a symbol; 0 when it has no code. -/
def xcLen (lens : List Nat) (sym : Nat) : Nat := lens.getD sym 0

/-- The symbols of one length, in rising order. -/
def xcOfLen (lens : List Nat) (l : Nat) : List Nat :=
  (List.range 64).filter fun s => xcLen lens s == l

/-- The symbols in the canonical order: ascending length, then ascending symbol number. -/
def xcOrder (lens : List Nat) : List (Nat × Nat) :=
  [1, 2, 3, 4, 5, 6, 7, 8].flatMap fun l => (xcOfLen lens l).map fun s => (s, l)

/-- The canonical codes (R204) as (symbol, length, code), from the previous length and code. -/
def xcAssign : Nat → Nat → List (Nat × Nat) → List (Nat × Nat × Nat)
  | _, _, [] => []
  | pl, next, (s, l) :: r =>
    let code := next * 2 ^ (l - pl)
    (s, l, code) :: xcAssign l (code + 1) r

/-- Every code of a table. -/
def xcCodes (lens : List Nat) : List (Nat × Nat × Nat) := xcAssign 0 0 (xcOrder lens)

/-- The conditions R204 sets on a table: 32 bytes, lengths at most 8, ESC has a code, and the lengths fit. -/
def xcTableOk (tbl : List Byte) : Bool :=
  let lens := xcLengths tbl
  tbl.length == 32 && lens.all (· ≤ 8) && xcLen lens 63 != 0 &&
    (lens.foldl (fun a l => if l = 0 then a else a + 2 ^ (8 - l)) 0) ≤ 256

/-! ### Elements -/

/-- Exponent width and mantissa width of an XC format (R200). -/
def xcGeom : Nat → Nat × Nat
  | 0 => (8, 23) | 1 => (5, 10) | _ => (8, 7)

/-- The biased exponent field of an element. -/
def xcExp (fmt c : Nat) : Nat := let (x, w) := xcGeom fmt; field c (x + w - 1) w
/-- The sign of an element. -/
def xcSign (fmt c : Nat) : Bool := let (x, w) := xcGeom fmt; bitOf c (x + w)
/-- The mantissa of an element. -/
def xcMan (fmt c : Nat) : Nat := c % 2 ^ (xcGeom fmt).2

/-- The bits of a number, most significant of `n` first. -/
def bitsMsb : Nat → Nat → List Bool
  | 0, _ => []
  | n + 1, v => bitOf v n :: bitsMsb n v

/-- The bits of a number, least significant first, `n` of them. -/
def bitsLsb : Nat → Nat → List Bool
  | 0, _ => []
  | n + 1, v => (v % 2 == 1) :: bitsLsb n (v / 2)

/-- The number bits stand for, the first bit least significant. -/
def natOfBits : List Bool → Nat
  | [] => 0
  | b :: r => ofBool b + 2 * natOfBits r

/-- Bits packed into bytes, bit i in bit (i mod 8) of byte ⌊i/8⌋, padded with zeros (R201). -/
def packBits : Nat → List Bool → List Byte
  | 0, _ => []
  | _, [] => []
  | fuel + 1, bs => BitVec.ofNat 8 (natOfBits (bs.take 8)) :: packBits fuel (bs.drop 8)

/-- Round up to a multiple of 8. -/
def up8 (n : Nat) : Nat := (n + 7) / 8 * 8

/-! ### Encoding -/

/-- The base exponent of a block (R203). -/
def xcBase (fmt : Nat) (es : List Nat) : Nat :=
  let ones := 2 ^ (xcGeom fmt).1 - 1
  es.foldl (fun m c => let f := xcExp fmt c; if f = 0 ∨ f = ones then m else max m f) 0

/-- The symbol of an element (R203, R207). -/
def xcSymbol (fmt : Nat) (lens : List Nat) (base c : Nat) : Nat :=
  let f := xcExp fmt c
  let ones := 2 ^ (xcGeom fmt).1 - 1
  if f = 0 ∧ xcLen lens 62 ≠ 0 then 62
  else if f = 0 ∨ f = ones ∨ 61 < base - f ∨ xcLen lens (base - f) = 0 then 63
  else base - f

/-- The code bits of a symbol. -/
def xcCodeBits (codes : List (Nat × Nat × Nat)) (sym : Nat) : List Bool :=
  match codes.find? (fun p => p.1 == sym) with
  | some (_, l, c) => bitsMsb l c
  | none => []

/-- The exponent-field sum of Table 7.1. -/
def xcCodeSum (fmt : Nat) (es : List Nat) : Nat := es.foldl (fun a c => a + xcExp fmt c) 0 % 256

/-- The header word of Table 7.1. -/
def xcHeader (fmt kind table base esc len count sum : Nat) : Nat :=
  sum * 2 ^ 56 + base * 2 ^ 48 + table * 2 ^ 44 + fmt * 2 ^ 40 + kind * 2 ^ 38 + esc * 2 ^ 32
    + len * 2 ^ 16 + count

/-- Bytes padded with zeros to a multiple of 8. -/
def padTo8 (bs : List Byte) : List Byte := bs ++ List.replicate (up8 bs.length - bs.length) 0

/-- One block as the encoder writes it (R207): its bytes, and whether it is RAW. -/
def xcEncodeBlock (fmt table : Nat) (tbl : List Byte) (es : List Nat) : List Byte × Bool :=
  let lens := xcLengths tbl
  let codes := xcCodes lens
  let (x, w) := xcGeom fmt
  let base := xcBase fmt es
  let syms := es.map fun c => (xcSymbol fmt lens base c, c)
  let esc := (syms.filter fun p => p.1 == 63).length
  let expBits := syms.flatMap fun p =>
    xcCodeBits codes p.1 ++ (if p.1 = 63 then bitsMsb x (xcExp fmt p.2) else [])
  let planes := packBits (expBits.length + 1) expBits
    ++ packBits (es.length + 1) (es.map (xcSign fmt))
    ++ packBits (es.length * w + 1) (es.flatMap fun c => bitsLsb w (xcMan fmt c))
  let body := padTo8 planes
  let raw := padTo8 (es.flatMap (bytesLE (elemBytes fmt)))
  let sum := xcCodeSum fmt es
  if 32 < esc ∨ raw.length < body.length then
    (bytesLE 8 (xcHeader fmt 1 0 0 0 (8 + raw.length) es.length sum) ++ raw, true)
  else
    (bytesLE 8 (xcHeader fmt 0 table base esc (8 + body.length) es.length sum) ++ body, false)

/-- A whole stream: blocks of `n` elements, the last holding what remains (R207). -/
def xcEncode (fmt table : Nat) (tbl : List Byte) (n : Nat) (es : List Nat) : List (List Byte × Bool) :=
  (chunksOf n (es.length + 1) es).map (xcEncodeBlock fmt table tbl)

/-! ### Decoding -/

/-- One decoded element: its code, and whether a source bit it was read from was poisoned. -/
structure XcElem where
  code : Nat
  poison : Bool
  deriving DecidableEq, Repr

/-- What decoding one block found: its elements and length, or a cause of Table 7.4 with the number of
elements the block claims and its claimed length. -/
inductive XcBlock where
  | ok (es : List XcElem) (len : Nat)
  | bad (cause count len : Nat)
  deriving DecidableEq, Repr

/-- A bit with its poison. -/
abbrev PBit := Bool × Bool

/-- The symbol at the front of a bit string: it, the bits after it and whether a bit of it was poisoned. -/
def xcTakeSymbol (codes : List (Nat × Nat × Nat)) (bits : List PBit) : Option (Nat × List PBit × Bool) :=
  match codes.find? (fun p => decide (p.2.1 ≤ bits.length) && (bits.take p.2.1).map (·.1) == bitsMsb p.2.1 p.2.2) with
  | some (s, l, _) => some (s, bits.drop l, (bits.take l).any (·.2))
  | none => none

/-- The number bits stand for, the first bit most significant. -/
def natOfMsb (bs : List Bool) : Nat := bs.foldl (fun a b => 2 * a + ofBool b) 0

/-- The exponent fields of `n` symbols: the fields with their poison, the escapes and the bits left, or a cause. -/
def xcTakeExps (codes : List (Nat × Nat × Nat)) (x base : Nat) :
    Nat → List PBit → Except Nat (List (Nat × Bool) × Nat × List PBit)
  | 0, bits => .ok ([], 0, bits)
  | n + 1, bits =>
    match xcTakeSymbol codes bits with
    | none => .error (if bits.length < 8 then 2 else 3)
    | some (s, rest, p) =>
      let one : Except Nat (Nat × Bool × Nat × List PBit) :=
        if s = 62 then .ok (0, p, 0, rest)
        else if s = 63 then
          if rest.length < x then .error 2
          else .ok (natOfMsb ((rest.take x).map (·.1)), p || (rest.take x).any (·.2), 1, rest.drop x)
        else if base < s + 1 then .error 4
        else .ok (base - s, p, 0, rest)
      match one with
      | .error c => .error c
      | .ok (f, p', k, rest') =>
        match xcTakeExps codes x base n rest' with
        | .error c => .error c
        | .ok (fs, esc, left) => .ok ((f, p') :: fs, esc + k, left)

/-- Bytes with their poison as bits. -/
def pbits (bs : List (Byte × Bool)) : List PBit :=
  bs.flatMap fun b => (bitsLsb 8 b.1.toNat).map fun t => (t, b.2)

/-- Whether all bits are zero. -/
def allZero (bs : List PBit) : Bool := bs.all fun b => !b.1

/-- Assemble an element from its fields. -/
def xcAssemble (fmt f : Nat) (sign : Bool) (man : Nat) : Nat :=
  let (x, w) := xcGeom fmt
  ofBool sign * 2 ^ (x + w) + f * 2 ^ w + man

/-- Elements from exponent fields, sign bits and mantissa bits. -/
def xcZip (fmt : Nat) : List (Nat × Bool) → List PBit → List PBit → List XcElem
  | [], _, _ => []
  | (f, p) :: fs, sg, mn =>
    let w := (xcGeom fmt).2
    let s := sg.headD (false, false)
    let m := mn.take w
    ⟨xcAssemble fmt f s.1 (natOfBits (m.map (·.1))), p || s.2 || m.any (·.2)⟩ :: xcZip fmt fs sg.tail (mn.drop w)

/-- Elements of `b` bytes each as stored. -/
def xcRawElems (b : Nat) : Nat → List (Byte × Bool) → List XcElem
  | 0, _ => []
  | n + 1, bs => ⟨natOfLE ((bs.take b).map (·.1)), (bs.take b).any (·.2)⟩ :: xcRawElems b n (bs.drop b)

/-- Whether a header breaks check 0x07 of Table 7.4 (`fmt` is the descriptor's format). -/
def xcHeaderBad (fmt h : Nat) : Bool :=
  let count := field h 11 0; let len := field h 31 16; let kind := field h 39 38
  let base := field h 55 48; let hf := field h 43 40
  field h 15 12 != 0 || 1 < kind || hf != fmt || count == 0 || 2048 < count || len % 8 != 0
    || (kind == 1 && (field h 47 44 != 0 || base != 0 || field h 37 32 != 0))
    || (kind == 0 && 2 ^ (xcGeom fmt).1 - 1 ≤ base)

/-- The body of a RAW block of `count` elements (R202). -/
def xcDecodeRaw (fmt count len sum : Nat) (body : List (Byte × Bool)) : XcBlock :=
  let b := elemBytes fmt
  if len ≠ 8 + up8 (count * b) then .bad 2 count len
  else if !allZero (pbits (body.drop (count * b))) then .bad 6 count len
  else
    let es := xcRawElems b count body
    if xcCodeSum fmt (es.map (·.code)) ≠ sum then .bad 1 count len else .ok es len

/-- The body of a coded block (R201, R203). -/
def xcDecodeCoded (fmt count len sum base esc : Nat) (lens : List Nat) (body : List (Byte × Bool)) : XcBlock :=
  let (x, w) := xcGeom fmt
  let sb := (count + 7) / 8
  let mb := (count * w + 7) / 8
  if len < 8 + sb + mb then .bad 2 count len
  else if 32 < esc then .bad 5 count len
  else
    let room := len - 8 - sb - mb
    match xcTakeExps (xcCodes lens) x base count (pbits (body.take room)) with
    | .error c => .bad c count len
    | .ok (fs, k, left) =>
      let used := 8 * room - left.length
      let eb := (used + 7) / 8
      if len ≠ 8 + up8 (eb + sb + mb) then .bad 2 count len
      else if k ≠ esc then .bad 5 count len
      else
        let sg := pbits ((body.drop eb).take sb)
        let mn := pbits ((body.drop (eb + sb)).take mb)
        if !(allZero (left.take (8 * eb - used)) && allZero (sg.drop count) && allZero (mn.drop (count * w))
            && allZero (pbits (body.drop (eb + sb + mb)))) then .bad 6 count len
        else
          let es := xcZip fmt fs sg mn
          if (fs.foldl (fun a p => a + p.1) 0) % 256 ≠ sum then .bad 1 count len else .ok es len

/-- One block at the front of a stream's bytes, against the checks of Table 7.4 other than the stream's own (0x08). A poisoned source word
records no damage (Table 7.7): a block that fails a check and holds a poisoned byte delivers its elements poisoned. The order in which the
checks are made is the model's (log entry 23). -/
def xcDecodeBlock (tables : List (List Byte)) (fmt : Nat) (bs : List (Byte × Bool)) : XcBlock :=
  let h := natOfLE ((bs.take 8).map (·.1))
  let count := field h 11 0
  let len := field h 31 16
  let body := (bs.drop 8).take (len - 8)
  let r :=
    if xcHeaderBad fmt h then XcBlock.bad 7 count len
    else if bs.length < len then .bad 8 count len
    else if field h 39 38 = 1 then xcDecodeRaw fmt count len (field h 63 56) body
    else xcDecodeCoded fmt count len (field h 63 56) (field h 55 48) (field h 37 32)
      (xcLengths (tables.getD (field h 47 44) xcRom0)) body
  match r with
  | .ok es l => if (bs.take 8).any (·.2) then .ok (es.map fun e => { e with poison := true }) l else .ok es l
  | .bad c n l =>
    if (bs.take (max 8 len)).any (·.2) then .ok (List.replicate (min n 2048) ⟨0, true⟩) (max 8 l) else .bad c n l

end Sys2Proof.Machine
end

