-- ==== Sys2Proof/Machine/StallOps.lean ====
section
/-! DEFINITION. What one stall instruction does on the stall it is issued on (R145 to R159, R180 to
R197, R209 to R217): each operation answers the state after it, or the cause and code that end the
unit (Table 5.11). -/

namespace Sys2Proof.Machine

/-- A unit's end: cause of Table 5.11 and TRAP or STOP code. -/
abbrev StopCause := Nat × Nat

/-- The outcome of one instruction on a stall. -/
abbrev StallOut := Except StopCause State

def cStop : Nat := 0x00
def cTrap : Nat := 0x01
def cIllegal : Nat := 0x02
def cStoreRange : Nat := 0x03
def cRowxRange : Nat := 0x04
def cTallyRange : Nat := 0x05
def cTallyError : Nat := 0x06
def cPoison : Nat := 0x07
def cRtreeMismatch : Nat := 0x08
def cWatchdog : Nat := 0x09
def cStoreEcc : Nat := 0x0A
def cFenced : Nat := 0x0B
def cOwnerEnd : Nat := 0x0C

/-- Stop with ILLEGAL. -/
def illegal : StallOut := .error (cIllegal, 0)

/-- Apply a change to the stall and go on to the next instruction. -/
def retire (st : Nat) (f : Stall → Stall) (s : State) : StallOut :=
  let x := f (getStall st s)
  .ok (setStall st { x with pc := x.pc + 1 } s)

/-! ### Stall store (R145, R146) -/

/-- Whether `n` bytes at an address lie in the store a unit may address. -/
def storeReach (store a n : Nat) : Bool :=
  a + n ≤ 0x200000 && (a + n ≤ store || 0x1FFF00 ≤ a || store = 0x1FFF00)

/-- Whether the unit on a stall may address `n` bytes at `a`. -/
def inStore (st a n : Nat) (s : State) : Bool :=
  match stallProgram (getStall st s) s with
  | some p => storeReach p.storeBytes a n
  | none => false

/-- Stall store bytes with their poison. -/
def readStore (st a n : Nat) (s : State) : List (Byte × Bool) := readDevP (stallBase st + a) n s

/-- Store bytes with their poison in a stall store. -/
def writeStore (st a : Nat) (bs : List (Byte × Bool)) (s : State) : State := writeDevP (stallBase st + a) bs s

/-- A number from bytes with poison. -/
def natP (bs : List (Byte × Bool)) : Nat := natOfLE (bs.map (·.1))

/-- Every byte of a number marked alike. -/
def bytesP (n v : Nat) (p : Bool) : List (Byte × Bool) := (bytesLE n v).map fun b => (b, p)

/-! ### Scalar operations -/

/-- The second operand of a scalar instruction (Table 5.6). -/
def scalarB (x : Stall) (o : ScalarOp) : SReg := if o.i then ⟨o.imm.signExtend 64, false⟩ else x.rdS o.sb.val

/-- SD = SA op operand; poison travels with the operands (R145). -/
def scalarBin (st : Nat) (o : ScalarOp) (f : Word64 → Word64 → Word64) (s : State) : StallOut :=
  let x := getStall st s
  let a := x.rdS o.sa.val
  let b := scalarB x o
  retire st (Stall.wrS o.sd.val ⟨f a.v b.v, a.p || b.p⟩) s

/-- The shift distance: the operand mod 64. -/
def shiftBy (b : Word64) : Nat := b.toNat % 64

/-- LDI. -/
def scalarLdi (st : Nat) (o : ScalarOp) (s : State) : StallOut :=
  let old := (getStall st s).rdS o.sd.val
  let v : SReg :=
    if o.cond.getLsbD 0 then ⟨o.imm ++ old.v.extractLsb' 0 32, old.p⟩ else ⟨o.imm.signExtend 64, false⟩
  retire st (Stall.wrS o.sd.val v) s

/-- SA + IMM as an address. -/
def scalarAddr (x : Stall) (o : ScalarOp) : Nat := ((x.rdS o.sa.val).v + o.imm.signExtend 64).toNat

/-- LD: an address that is not 8-byte aligned stops the unit with STORE_RANGE (log entry 26). -/
def scalarLd (st : Nat) (o : ScalarOp) (s : State) : StallOut :=
  let a := scalarAddr (getStall st s) o
  if a % 8 ≠ 0 || !inStore st a 8 s then .error (cStoreRange, 0)
  else
    let bs := readStore st a 8 s
    retire st (Stall.wrS o.sd.val ⟨BitVec.ofNat 64 (natP bs), anyPoison bs⟩) s

/-- ST: R145 names MST, VST and XST as the writes that refuse poison, so ST writes it (log entry 32). -/
def scalarSt (st : Nat) (o : ScalarOp) (s : State) : StallOut :=
  let x := getStall st s
  let a := scalarAddr x o
  let v := x.rdS o.sb.val
  if a % 8 ≠ 0 || !inStore st a 8 s then .error (cStoreRange, 0)
  else retire st id (writeStore st a (bytesP 8 v.v.toNat v.p) s)

/-- Whether COND holds; `none` for a value the table does not list. -/
def branchTaken (cond : Nat) (a b : Word64) : Option Bool :=
  match cond with
  | 0 => some true
  | 1 => some (a == b)
  | 2 => some (a != b)
  | 3 => some (a.slt b)
  | 4 => some (!(a.slt b))
  | 5 => some (a.ult b)
  | 6 => some (!(a.ult b))
  | _ => none

/-- PC + IMM (Table 5.6: branch offsets count instructions). -/
def pcPlus (pc : Nat) (imm : BitVec 32) : Nat := ofSigned 64 ((pc : Int) + imm.toInt)

/-- BR. -/
def scalarBr (st : Nat) (o : ScalarOp) (s : State) : StallOut :=
  let x := getStall st s
  match branchTaken o.cond.toNat (x.rdS o.sa.val).v (x.rdS o.sb.val).v with
  | none => illegal
  | some t => .ok (setStall st { x with pc := if t then pcPlus x.pc o.imm else x.pc + 1 } s)

/-- JAL. -/
def scalarJal (st : Nat) (o : ScalarOp) (s : State) : StallOut :=
  let x := getStall st s
  .ok (setStall st { x.wrS o.sd.val ⟨BitVec.ofNat 64 (x.pc + 1), false⟩ with pc := pcPlus x.pc o.imm } s)

/-- JR. -/
def scalarJr (st : Nat) (o : ScalarOp) (s : State) : StallOut :=
  let x := getStall st s
  .ok (setStall st { x with pc := (x.rdS o.sa.val).v.toNat } s)

/-! ### CSRs (Table 5.7) -/

/-- The exchange allocation of a placement in a row: base and limit. -/
def rowxIn (p : Placement) (row : Nat) : Nat × Nat :=
  match p.rowx.find? fun r => r.1 == row with
  | some (_, b, l) => (b, l)
  | none => (0, 0)

/-- What a CSR reads; CYCLE counts clocks and is left free (log entry 27), and so is a number the table does not list. -/
def csrRead (st n : Nat) (s : State) : Nat :=
  let x := getStall st s
  let p := getPlacement x.placement s
  let u := getUnit x.tag s
  match n with
  | 0x00 => st
  | 0x01 => x.unit
  | 0x02 => match p with | some q => q.tags.length | none => 0
  | 0x03 => stallRow st * 256 + u.rowMem
  | 0x04 => x.tag * 256 + u.gen
  | 0x05 => match p with | some q => q.tallyBase | none => 0
  | 0x06 => match p with | some q => q.tallyCount | none => 0
  | 0x07 => 0x1FFF00
  | 0x08 => match p with | some q => (rowxIn q (stallRow st)).1 | none => 0
  | 0x09 => match p with | some q => (rowxIn q (stallRow st)).2 | none => 0
  | 0x0B => timeLow64 s
  | 0x0C => x.tenant
  | 0x0D => x.rmode
  | 0x0E => x.fflags
  | 0x0F => x.moved
  | _ => freeAt 1 s % 2 ^ 64

/-- CSRR. -/
def scalarCsrr (st : Nat) (o : ScalarOp) (s : State) : StallOut :=
  retire st (Stall.wrS o.sd.val ⟨BitVec.ofNat 64 (csrRead st o.imm.toNat s), false⟩) (freeNext s)

/-- CSRW: RMODE takes 0 to 4, FFLAGS its six bits (R182); nothing else is writable. -/
def scalarCsrw (st : Nat) (o : ScalarOp) (s : State) : StallOut :=
  let v := ((getStall st s).rdS o.sa.val).v.toNat
  match o.imm.toNat with
  | 0x0D => retire st (fun x => if v ≤ 4 then { x with rmode := v } else x) s
  | 0x0E => retire st (fun x => { x with fflags := v % 64 }) s
  | _ => retire st id s

/-! ### Vector operations -/

/-- The elements a register holds in a format (R153). -/
def elemCount (fmt : Nat) : Nat := if fmt = 9 then 32 else 64

/-- The bits of an element in its lane: FP64 spans two lanes, FP16 the low half of one (log entry 28). -/
def Stall.rdElem (x : Stall) (fmt r i : Nat) : Nat × Bool :=
  if fmt = 9 then
    let l := x.rdLane r (2 * i); let h := x.rdLane r (2 * i + 1)
    (l.v.toNat + h.v.toNat * 2 ^ 32, l.p || h.p)
  else
    let l := x.rdLane r i
    (if fmt = 1 then l.v.toNat % 65536 else l.v.toNat, l.p)

/-- The lanes of an element. -/
def elemLanes (fmt v : Nat) (p : Bool) : List Lane :=
  if fmt = 9 then [⟨BitVec.ofNat 32 v, p⟩, ⟨BitVec.ofNat 32 (v / 2 ^ 32), p⟩] else [⟨BitVec.ofNat 32 v, p⟩]

/-- The lanes an element keeps when it is masked off. -/
def Stall.keepLanes (x : Stall) (fmt r i : Nat) : List Lane :=
  if fmt = 9 then [x.rdLane r (2 * i), x.rdLane r (2 * i + 1)] else [x.rdLane r i]

/-- Whether element `i` is on in a mask. -/
def elemOn (m i : Nat) : Bool := bitOf m i

/-- The lanes an element has after an instruction: new ones where the mask is on, those it held where it is off; a poisoned mask bit
poisons them (R145). -/
def Stall.maskedLanes (x : Stall) (mask lf vd i : Nat) (new : List Lane) : List Lane :=
  let ls := if elemOn (x.rdMask mask) i then new else x.keepLanes lf vd i
  if bitOf (x.rdMaskP mask) i then ls.map fun l => { l with p := true } else ls

/-- OR the flags of several operations. -/
def allFlags (fs : List FpFlags) : FpFlags := fs.foldl FpFlags.or {}

/-- The formats of vector arithmetic (Table 6.1). -/
def arithFmt (f : Nat) : Bool := f == 0 || f == 1 || f == 9

/-- Check FMT and RM and run with the rounding attribute; reserved values stop with ILLEGAL (R180,
Table 6.2). -/
def withRm (st : Nat) (o : VectorOp) (fmtOk : Bool) (f : Rounding → State → StallOut) (s : State) : StallOut :=
  match Rounding.select o.rm.val (getStall st s).rmode with
  | none => illegal
  | some r => if fmtOk then f r s else illegal

/-- Write a register and OR the flags. -/
def putVec (st vd : Nat) (ls : List Lane) (fl : FpFlags) (s : State) : StallOut :=
  retire st (fun x => { x.wrVec vd ls with fflags := orFlags x.fflags fl }) s

/-- VADD to VSQRT: element by element where the mask is on. The operands of an operation that reads
fewer are passed all the same and ignored. -/
def vectorArith (op : VecOp) (st : Nat) (o : VectorOp) (s : State) : StallOut :=
  withRm st o (arithFmt o.fmt.val) (fun r s =>
    let x := getStall st s
    let fmt := o.fmt.val
    let m := x.rdMask o.mask.val
    let useB := op != .sqrt
    let useC := op == .fma
    let rs := (List.range (elemCount fmt)).map fun i =>
      if elemOn m i then
        let a := x.rdElem fmt o.va.val i
        let b := x.rdElem fmt o.vb.val i
        let c := x.rdElem fmt o.vc.val i
        let (v, fl) := vecElem op fmt r a.1 b.1 c.1 (Config.freeValue (100 + i) s.freeCtr % 2 ^ (8 * elemBytes fmt))
        (x.maskedLanes o.mask.val fmt o.vd.val i (elemLanes fmt v (a.2 || (useB && b.2) || (useC && c.2))), fl)
      else (x.maskedLanes o.mask.val fmt o.vd.val i [], ({} : FpFlags))
    putVec st o.vd.val (rs.flatMap (·.1)) (allFlags (rs.map (·.2))) (freeNext s)) s

/-- VSPLAT: SA read in FMT, in every lane. -/
def vectorSplat (st : Nat) (o : VectorOp) (s : State) : StallOut :=
  withRm st o (arithFmt o.fmt.val) (fun _ s =>
    let a := (getStall st s).rdS o.sa.val
    let fmt := o.fmt.val
    let v := if fmt = 1 then a.v.toNat % 65536 else a.v.toNat
    putVec st o.vd.val ((List.range (elemCount fmt)).flatMap fun _ => elemLanes fmt v a.p) {} s) s

/-- The attribute VREDSUM rounds with: on A1, RM 7 under RMODE 4 is roundTiesToEven (R557). -/
def redRounding (rm : Nat) (r : Rounding) : Rounding :=
  if rm = 7 ∧ r = .tiesToAway then .tiesToEven else r

/-- VREDSUM (R153): lane 0 is the sum in the fixed tree, the other lanes zero. The flags are those of
the attribute selected (R557). -/
def vectorRedsum (st : Nat) (o : VectorOp) (s : State) : StallOut :=
  withRm st o (arithFmt o.fmt.val) (fun r s =>
    let x := getStall st s
    let fmt := o.fmt.val
    let n := elemCount fmt
    let es := (List.range n).map fun i => x.rdElem fmt o.va.val i
    let levels := if fmt = 9 then 5 else 6
    let sum := (pairTree fmt (redRounding o.rm.val r) levels (es.map (·.1))).1
    let fl := (pairTree fmt r levels (es.map (·.1))).2
    let p := es.any (·.2)
    putVec st o.vd.val
      (elemLanes fmt (sum.headD 0) p ++ List.replicate (64 - (elemLanes fmt 0 p).length) Lane.zero) fl s) s

/-- VCMP: the codes of the comparison in VC[2:0] are not given, so the relation they name is left open
(log entry 29); lanes that are off are not compared and their bits are clear. A bit is poisoned with an operand compared or with its
own mask bit (R145). -/
def vectorCmp (st : Nat) (o : VectorOp) (s : State) : StallOut :=
  withRm st o (arithFmt o.fmt.val) (fun _ s =>
    let x := getStall st s
    let fmt := o.fmt.val
    let m := x.rdMask o.mask.val
    let ps := (List.range (elemCount fmt)).map fun i =>
      let a := decodeElem fmt (x.rdElem fmt o.va.val i).1
      let b := decodeElem fmt (x.rdElem fmt o.vb.val i).1
      let rel := if a.isNan || b.isNan then 3 else if a.lt b then 0 else if b.lt a then 2 else 1
      let q := Config.vcmpRel (o.vc.val % 8) rel (a.isSnan || b.isSnan)
      (elemOn m i && q.1, if elemOn m i then { nv := q.2 || a.isSnan || b.isSnan } else ({} : FpFlags))
    let bits := (ps.zipIdx).foldl (fun acc p => if p.1.1 then acc + 2 ^ p.2 else acc) 0
    let bad (i : Nat) : Bool := bitOf (x.rdMaskP o.mask.val) i
      || (elemOn m i && ((x.rdElem fmt o.va.val i).2 || (x.rdElem fmt o.vb.val i).2))
    let pbits := (List.range (elemCount fmt)).foldl (fun acc i => if bad i then acc + 2 ^ i else acc) 0
    retire st (fun y => { y.wrMask (o.vd.val % 8) bits pbits with fflags := orFlags y.fflags (allFlags (ps.map (·.2))) }) s) s

/-- VSEL: lane by lane, VA where the mask is on and VB where it is off; an FP64 element spans two lanes. -/
def vectorSel (st : Nat) (o : VectorOp) (s : State) : StallOut :=
  withRm st o (o.fmt.val ≤ 9) (fun _ s =>
    let x := getStall st s
    let m := x.rdMask o.mask.val
    let ls := (List.range 64).map fun l =>
      let i := if o.fmt.val = 9 then l / 2 else l
      let v := if elemOn m i then x.rdLane o.va.val l else x.rdLane o.vb.val l
      { v with p := v.p || bitOf (x.rdMaskP o.mask.val) i }
    putVec st o.vd.val ls {} s) s

/-- The format code a lane holds for a memory format: FP32, FP16 and FP64 as themselves, every other
format widened to FP32 (R180). -/
def laneFmt (fmt : Nat) : Nat := if fmt = 1 then 1 else if fmt = 9 then 9 else 0

/-- The effective address of a VLD or VST. -/
def vectorAddr (x : Stall) (o : VectorOp) : Nat := ((x.rdS o.sa.val).v + o.imm.signExtend 64).toNat

/-- A piece of a block stream: the group's base and the block number in it, for an address that is the
first element byte of an even-numbered block (R188). -/
def blockPlace (fmt a : Nat) : Option (Nat × Nat) :=
  let (_, b, per) := blockGeom fmt
  let g := a / 2048 * 2048
  let o := a - g
  if o < 128 then none
  else
    let k := (o - 128) / b
    if (o - 128) % b = 0 ∧ k % 2 = 0 ∧ k + 1 < per then some (g, k) else none

/-- The element codes of a block's bytes: one little-endian bit string of width w (R187). -/
def blockCodes (fmt : Nat) (bs : List (Byte × Bool)) : List (Nat × Bool) :=
  let (w, _, _) := blockGeom fmt
  let v := natP bs
  (List.range 32).map fun i =>
    (field v (w * i + w - 1) (w * i), anyPoison ((bs.drop (w * i / 8)).take ((w * i % 8 + w + 7) / 8)))

/-- The bytes of 32 element codes. -/
def blockPack (fmt : Nat) (cs : List Nat) : List Byte :=
  let (w, b, _) := blockGeom fmt
  bytesLE b ((cs.zipIdx).foldl (fun acc p => acc + p.1 * 2 ^ (w * p.2)) 0)

/-- The value of a block element under a scale byte (R186). -/
def blockVal (fmt x code : Nat) : FVal := if x = 0xFF then .nan false else scaleBy x (blockElem fmt code)

/-- Widening a block element (R189): exact, but infinite above the FP32 range under every rounding attribute. -/
def widenBlock (lf : Nat) (v : FVal) : Nat × FpFlags := encodeElem lf .tiesToEven v

/-- The 64 codes a VLD reads and the values they stand for, in a block format. -/
def loadBlocks (st fmt g k : Nat) (s : State) : List (FVal × Bool) :=
  let (_, b, _) := blockGeom fmt
  [k, k + 1].flatMap fun j =>
    let x := readStore st (g + j) 1 s
    let es := blockCodes fmt (readStore st (g + 128 + j * b) b s)
    es.map fun e => (blockVal fmt (natP x) e.1, e.2 || anyPoison x)

/-- VLD (R188, R190). -/
def vectorLd (st : Nat) (o : VectorOp) (s : State) : StallOut :=
  withRm st o (o.fmt.val ≤ 9) (fun r s =>
    let x := getStall st s
    let fmt := o.fmt.val
    let a := vectorAddr x o
    let m := x.rdMask o.mask.val
    let lf := laneFmt fmt
    let n := elemCount fmt
    let fin (vs : List ((Nat × FpFlags) × Bool)) : StallOut :=
      let ls := (vs.zipIdx).flatMap fun q => x.maskedLanes o.mask.val lf o.vd.val q.2 (elemLanes lf q.1.1.1 q.1.2)
      putVec st o.vd.val ls (allFlags ((vs.zipIdx).map fun q => if elemOn m q.2 then q.1.1.2 else {})) s
    if isBlockFmt fmt then
      match blockPlace fmt a with
      | none => illegal
      | some (g, k) =>
        let (_, b, _) := blockGeom fmt
        if !inStore st (g + k) 2 s || !inStore st a (2 * b) s then .error (cStoreRange, 0)
        else fin ((loadBlocks st fmt g k s).map fun e => (widenBlock lf e.1, e.2))
    else
      let b := elemBytes fmt
      if !inStore st a (n * b) s then .error (cStoreRange, 0)
      else fin ((List.range n).map fun i =>
        let bs := readStore st (a + i * b) b s
        let c := natP bs
        (if fmt = lf then (c, {}) else encodeElem lf r (decodeElem fmt c), anyPoison bs))) s

/-- The bytes of the stall store that a VLD reads. -/
def vldSpan (st : Nat) (o : VectorOp) (s : State) : List (Nat × Nat) :=
  let fmt := o.fmt.val
  let a := vectorAddr (getStall st s) o
  if isBlockFmt fmt then
    (match blockPlace fmt a with | some (g, k) => [(g + k, 2), (a, 2 * (blockGeom fmt).2.1)] | none => [])
  else [(a, elemCount fmt * elemBytes fmt)]

/-- Note a narrowing to JF8e (R556). -/
def noteJf8e (st fmt : Nat) (s : State) : State :=
  if fmt = 4 then setStall st { getStall st s with jf8eSeen := true } s else s

/-- Count one written element in a slot (R195); on A1 a JF8 saturation is not counted in SAT once the
unit has narrowed to JF8e (R556). -/
def histCount (tag slot : Nat) (bin : HistBin) (sat : Bool) (s : State) : State :=
  let k := match bin with | .bin k => k | .zero => 64 | .subnormal => 65 | .inf => 66 | .nan => 67
  let t := histBump tag slot k s
  if sat then histBump tag slot 68 t else t

/-- Whether an element's saturation is counted (R556). -/
def satCounts (x : Stall) (fmt : Nat) (fl : FpFlags) : Bool := fl.sat && !(fmt == 3 && x.jf8eSeen)

/-- One narrowed block: scale byte, codes and flags (R188, R189). -/
def narrowBlock (fmt : Nat) (r : Rounding) (vs : List (FVal × Bool)) : Nat × List (Nat × FpFlags) :=
  let on := (vs.filter (·.2)).map (·.1)
  let x := chooseScale fmt on
  (x, vs.map fun v => if v.2 then encodeBlockElem fmt r x v.1 else (0, {}))

/-- VST (R188 to R190, R195). -/
def vectorSt (st : Nat) (o : VectorOp) (s : State) : StallOut :=
  withRm st o (o.fmt.val ≤ 9) (fun r s =>
    let x := getStall st s
    let fmt := o.fmt.val
    let a := vectorAddr x o
    let m := x.rdMask o.mask.val
    let lf := laneFmt fmt
    let n := elemCount fmt
    let src := (List.range n).map fun i => (x.rdElem lf o.vd.val i, elemOn m i)
    if (src.any fun q => q.1.2 && q.2) || x.rdMaskP o.mask.val != 0 then
      (if isBlockFmt fmt && (blockPlace fmt a).isNone then illegal else .error (cPoison, 0))
    else if isBlockFmt fmt then
      match blockPlace fmt a with
      | none => illegal
      | some (g, k) =>
        let (_, b, _) := blockGeom fmt
        if !inStore st (g + k) 2 s || !inStore st a (2 * b) s then .error (cStoreRange, 0)
        else
          let vals := src.map fun q => (decodeElem lf q.1.1, q.2)
          let step (j : Nat) (vs : List (FVal × Bool)) (u : State) : State :=
            let (sc, cs) := narrowBlock fmt r vs
            let u1 := writeStore st (g + k + j) (bytesP 1 sc false) u
            let u2 := writeStore st (g + 128 + (k + j) * b) (clean (blockPack fmt (cs.map (·.1)))) u1
            let y := getStall st u2
            let u3 := setStall st { y with fflags := orFlags y.fflags (allFlags (cs.map (·.2))) } u2
            (List.zip vs cs).foldl (fun w q =>
              if q.1.2 then histCount x.tag 3 (histBlockElem fmt sc q.2.1 q.1.1) (satCounts x fmt q.2.2) w else w) u3
          retire st id (step 1 (vals.drop 32) (step 0 (vals.take 32) s))
    else
      let b := elemBytes fmt
      if !inStore st a (n * b) s then .error (cStoreRange, 0)
      else
        let t := (src.zipIdx).foldl (fun w q =>
          if q.1.2 then
            let v := decodeElem lf q.1.1.1
            let (c, fl) := if fmt = lf then (q.1.1.1, ({} : FpFlags)) else encodeElem fmt r v
            let w1 := writeStore st (a + q.2 * b) (bytesP b c false) w
            let y := getStall st w1
            let w2 := setStall st { y with fflags := orFlags y.fflags fl } w1
            histCount x.tag 3 (histElem fmt c v) (satCounts x fmt fl) w2
          else w) s
        retire st id (noteJf8e st fmt t)) s

/-- The lane of an element of a block format: its code in the low bits and the scale byte of its block in bits [15:8]; the spec gives
block formats no layout in a register (DESIGN CHOICE, log entry 30). -/
def blockLane (scale code : Nat) : Nat := scale * 256 + code

/-- VCVT (R190): from FMT to the format of code VC. A format's code stands in the low bits of its lane. Narrowing to a block format
chooses the scale of each 32 lanes from those that are on (R189). -/
def vectorCvt (st : Nat) (o : VectorOp) (s : State) : StallOut :=
  withRm st o (o.fmt.val ≤ 9 && o.vc.val ≤ 9) (fun r s =>
    let x := getStall st s
    let fmt := o.fmt.val
    let d := o.vc.val
    let m := x.rdMask o.mask.val
    let n := min (elemCount fmt) (elemCount d)
    let src (i : Nat) : FVal × Bool :=
      let e := x.rdElem (if fmt = 9 then 9 else 0) o.va.val i
      if isBlockFmt fmt then (blockVal fmt (field e.1 15 8) (e.1 % 2 ^ (blockGeom fmt).1), e.2)
      else (decodeElem fmt (e.1 % 2 ^ (8 * elemBytes fmt)), e.2)
    let rs : List (Nat × FpFlags) :=
      if isBlockFmt d then
        let vs := (List.range n).map fun i => ((src i).1, elemOn m i)
        let b1 := narrowBlock d r (vs.take 32)
        let b2 := narrowBlock d r (vs.drop 32)
        b1.2.map (fun c => (blockLane b1.1 c.1, c.2)) ++ b2.2.map fun c => (blockLane b2.1 c.1, c.2)
      else (List.range n).map fun i => if isBlockFmt fmt && (d == 0 || d == 9) then widenBlock d (src i).1 else encodeElem d r (src i).1
    let lf := if d = 9 then 9 else 0
    let ls := (rs.zipIdx).flatMap fun q => x.maskedLanes o.mask.val lf o.vd.val q.2 (elemLanes lf q.1.1 (src q.2).2)
    let rest := (List.range 64).drop ls.length |>.map fun l => x.rdLane o.vd.val l
    let fl := allFlags ((rs.zipIdx).map fun q => if elemOn m q.2 then q.1.2 else {})
    putVec st o.vd.val (ls ++ rest) fl (noteJf8e st d s)) s

/-! ### Tallies, the exchange and movement -/

/-- The value of a form T instruction (R156). -/
def moveValue (x : Stall) (o : MoveTOp) : SReg :=
  if o.i then ⟨o.imm16.setWidth 64, false⟩ else x.rdS o.sb.val

/-- TALLY_BASE + SA + TOFF, or nothing outside the unit's block (R156). -/
def stallTally (st : Nat) (o : MoveTOp) (s : State) : Option Nat :=
  let x := getStall st s
  match getPlacement x.placement s with
  | none => none
  | some p =>
    let t := (p.tallyBase + (x.rdS o.sa.val).v.toNat + o.toff.toNat) % 2 ^ 64
    if p.tallyBase ≤ t && t < p.tallyBase + p.tallyCount then some t else none

/-- Whether the unit map still gives the stall its tag (R160). -/
def tagLive (st : Nat) (s : State) : Bool :=
  let u := getUnit (getStall st s).tag s
  u.active && u.stall == st

/-- Count an operation dropped as stale (R160). -/
def staleOp (s : State) : State := addN O.TALLY_STALE_OPS 1 s

/-- Whether an RTREE the unit has issued is still outstanding: its movement queue runs in order (R157). -/
def rtreeOut (st : Nat) (s : State) : Bool :=
  let x := getStall st s
  let u := getUnit x.tag s
  s.comp.rtrees.any fun q => q.placement == x.placement && q.row == stallRow st
    && q.issued.any fun i => i.1 == u.rowMem

/-- A tally operation of a stall: range, staleness, FREE and poison (R156, R159 to R161), then `f` on
the tally and its value, or `bad` on the tally when the operation carries poison. -/
def stallTallyOp (st : Nat) (o : MoveTOp) (f : Nat → Nat → State → StallOut) (bad : Nat → State → StallOut) (s : State) : StallOut :=
  if o.reserved ≠ 0 then illegal
  else match stallTally st o s with
  | none => .error (cTallyRange, 0)
  | some t =>
    let x := getStall st s
    let v := moveValue x o
    if !tagLive st s then retire st id (staleOp s)
    else if (getTally t s).tstate = 0 then .error (cTallyRange, 1)
    else if v.p || (x.rdS o.sa.val).p then bad t s
    else f t v.v.toNat s

/-- A poisoned ADD or RESET puts its tally into ERROR (R161). -/
def poisonTally (st t : Nat) (s : State) : StallOut := retire st id (tallyError t tcPoison s)

/-- TALLY.ADD: the old count to SD; what an ADD on a tally in ERROR returns is not stated. -/
def stallTallyAdd (st : Nat) (o : MoveTOp) (s : State) : StallOut :=
  stallTallyOp st o (fun t v s =>
    let x := getTally t s
    let old := if x.tstate = 1 then x.count else freeAt 2 s % 2 ^ 32
    retire st (Stall.wrS o.sd.val ⟨BitVec.ofNat 64 old, false⟩) (freeNext (tallyAdd t v s))) (poisonTally st) s

/-- TALLY.WAIT_GE: satisfied at once, ended by an error, or a wait. One that carries poison puts its tally into ERROR and waits on it, so
it ends as every waiter of that tally does (R161). -/
def stallTallyWait (st : Nat) (o : MoveTOp) (s : State) : StallOut :=
  let x := getStall st s
  let v := moveValue x o
  stallTallyOp st o (fun t v s =>
    if waitFailed t s then .error (cTallyError, 0)
    else if waitMet t v s then
      retire st (Stall.wrS o.sd.val ⟨BitVec.ofNat 64 (getTally t s).count, false⟩) s
    else .ok (setStall st { getStall st s with waiting := some (t, v, o.sd.val) } s))
    (fun t s => .ok (setStall st { getStall st s with waiting := some (t, v.v.toNat, o.sd.val) } (tallyError t tcPoison s))) s

/-- TALLY.RESET. -/
def stallTallyReset (st : Nat) (o : MoveTOp) (s : State) : StallOut :=
  stallTallyOp st o (fun t _ s => retire st id (tallyReset t s)) (poisonTally st) s

/-- The wait of a stall ends: the count to SD, or TALLY_ERROR (R161, R164). -/
def stallWake (st : Nat) (s : State) : StallOut :=
  let x := getStall st s
  match x.waiting with
  | none => .ok s
  | some (t, v, d) =>
    if waitFailed t s then .error (cTallyError, 0)
    else if waitMet t v s then
      .ok (setStall st { x.wrS d ⟨BitVec.ofNat 64 (getTally t s).count, false⟩ with
                          waiting := none, pc := x.pc + 1 } s)
    else .ok s

/-- Whether exchange bytes lie in the allocations of the placement: each 64 KiB they touch does (R147). -/
def rowxReach (p : Placement) (a n : Nat) : Bool :=
  (List.range ((a + n + 0xFFFF) / 0x10000 - a / 0x10000)).all fun i =>
    p.rowx.any fun r => r.2.1 ≤ (a / 0x10000 + i) * 0x10000 && (a / 0x10000 + i) * 0x10000 < r.2.2

/-- The operands of a form X instruction: store address, exchange address and bytes. -/
def moveXArgs (st : Nat) (o : MoveXOp) (s : State) : Nat × Nat × Nat :=
  let x := getStall st s
  ((x.rdS o.sa.val).v.toNat, (x.rdS o.sb.val).v.toNat, (x.rdS o.sc.val).v.toNat)

/-- The checks of XLD and XST (R146, R147): reserved fields and misaligned operands are ILLEGAL. -/
def moveXCheck (st : Nat) (o : MoveXOp) (s : State) : Option StopCause :=
  let (a, b, n) := moveXArgs st o s
  if o.reserved ≠ 0 then some (cIllegal, 0)
  else if a % 64 ≠ 0 || b % 64 ≠ 0 || n % 64 ≠ 0 then some (cIllegal, 0)
  else if !inStore st a n s then some (cStoreRange, 0)
  else match getPlacement (getStall st s).placement s with
    | none => some (cRowxRange, 0)
    | some p => if rowxReach p b n then none else some (cRowxRange, 0)

/-- XLD: exchange to stall store. -/
def stallXld (st : Nat) (o : MoveXOp) (s : State) : StallOut :=
  let (a, b, n) := moveXArgs st o s
  match moveXCheck st o s with
  | some c => .error c
  | none => retire st id (writeStore st a (readRowx b n s) s)

/-- XST: stall store to exchange; poisoned data is refused (R145). -/
def stallXst (st : Nat) (o : MoveXOp) (s : State) : StallOut :=
  let (a, b, n) := moveXArgs st o s
  match moveXCheck st o s with
  | some c => .error c
  | none =>
    let bs := readStore st a n s
    if anyPoison bs then .error (cPoison, 0) else retire st id (writeRowx b bs s)

/-- SYNC: it completes when the named units have no work outstanding; an RTREE, and what waits behind it in the movement queue, is the
only movement work that lasts past its instruction, and a running channel the only porter work (log entry 31). -/
def syncBusy (st : Nat) (mask : Nat) (s : State) : Bool :=
  (bitOf mask 2 && (rtreeOut st s || !(getStall st s).moveQueue.isEmpty))
    || (bitOf mask 3 && (getUnit (getStall st s).tag s).channels.any fun c =>
          (smGet (fun _ => ({} : Channel)) c s.port.chans).cstate == .run)

/-- SYNC. -/
def stallSync (st : Nat) (o : MoveTOp) (s : State) : StallOut :=
  if o.reserved ≠ 0 then illegal
  else if syncBusy st o.imm16.toNat s then .ok s
  else retire st id s

/-- PKICK (R249, R252): the channel number is the value of SB; one outside the unit's channels, or a
channel that runs, waits or is stopping, is ILLEGAL. -/
def stallPkick (st : Nat) (o : MoveTOp) (s : State) : StallOut :=
  let x := getStall st s
  let u := getUnit x.tag s
  let a := (x.rdS o.sa.val).v.toNat
  let k := (x.rdS o.sb.val).v.toNat
  if o.reserved ≠ 0 then illegal
  else if 4 ≤ k then illegal
  else match u.channels[k]? with
  | none => illegal
  | some c =>
    let ch := smGet (fun _ => ({} : Channel)) c s.port.chans
    if ch.cstate = .run || ch.cstate = .wait || ch.cstate = .stopping then illegal
    else
      let own := stallBase st ≤ a && a < stallBase st + 0x200000
      let ch' : Channel := { ch with
        cstate := .run, cause := 0, pc := 0, loops := [], moves := [], waitFor := none, afterMoves := none,
        pendingFault := none, stopCode := 0, tag := x.tag, gen := u.gen, tenant := x.tenant,
        progInStore := own, prog := if own then a - stallBase st else a }
      retire st id { s with port := { s.port with chans := smPut (fun _ => ({} : Channel)) c ch' s.port.chans } }

/-! ### RTREE (R148, R149) -/

/-- The RTREE a member's issue belongs to, if one is being gathered. -/
def findRtree (pl row tag : Nat) (s : State) : Option RTreeOp :=
  s.comp.rtrees.find? fun q => q.placement == pl && q.row == row && q.tag == tag

/-- What one RTREE issue does: gather it, join it, or find a mismatch. A poisoned source is refused as
a write would be (R145). A member that is not in its own MEMBERS mask disagrees with every RTREE that names it; the spec names no cause,
and it ends the members it names with RTREE_MISMATCH (DEDUCED, log entry 150). -/
def stallRtree (st : Nat) (o : MoveXOp) (s : State) : StallOut :=
  let x := getStall st s
  let (a, b, n) := moveXArgs st o s
  let members := o.sub.toNat / 256
  let tag := o.sub.toNat % 4
  let u := getUnit x.tag s
  let row := stallRow st
  match moveXCheck st o s with
  | some c => .error c
  | none =>
    if anyPoison (readStore st a n s) then .error (cPoison, 0)
    else if !bitOf members u.rowMem then .error (cRtreeMismatch, members)
    else match findRtree x.placement row tag s with
    | none =>
      retire st id { s with comp := { s.comp with
        rtrees := s.comp.rtrees ++ [⟨x.placement, row, tag, members, n, [(u.rowMem, st, a, b)]⟩] } }
    | some q =>
      if q.members ≠ members || q.length ≠ n
          || (q.issued.any fun i => i.1 == u.rowMem) then .error (cRtreeMismatch, members ||| q.members)
      else
        let q' := { q with issued := q.issued ++ [(u.rowMem, st, a, b)] }
        retire st id { s with comp := { s.comp with
          rtrees := s.comp.rtrees.map fun z => if z == q then q' else z } }

/-- The sum of two inputs, an absent one passed through (R148). -/
def treeAdd (a b : Option Nat) : Option Nat :=
  match a, b with
  | some x, some y => some (addCodes 0 .tiesToEven x y).1
  | some x, none => some x
  | none, y => y

/-- The fixed order ((m0 + m1) + (m2 + m3)) + ((m4 + m5) + (m6 + m7)). -/
def treeSum (m : Nat → Option Nat) : Option Nat :=
  treeAdd (treeAdd (treeAdd (m 0) (m 1)) (treeAdd (m 2) (m 3)))
    (treeAdd (treeAdd (m 4) (m 5)) (treeAdd (m 6) (m 7)))

/-- The bytes an RTREE writes. -/
def rtreeBytes (q : RTreeOp) (s : State) : List (Byte × Bool) :=
  (List.range (q.length / 4)).flatMap fun i =>
    let inp (m : Nat) : Option Nat :=
      (q.issued.find? fun t => t.1 == m).map fun t => natP (readStore t.2.1 (t.2.2.1 + 4 * i) 4 s)
    clean (bytesLE 4 ((treeSum inp).getD 0))

/-- The result address: the one the lowest-numbered member gave (R148). -/
def rtreeDest (q : RTreeOp) : Nat :=
  match (List.range 8).findSome? fun m => (q.issued.find? fun t => t.1 == m) with
  | some t => t.2.2.2
  | none => 0

/-- Whether all members have issued theirs (R149). -/
def rtreeReady (q : RTreeOp) : Bool :=
  (bitsSet 8 q.members).all fun m => q.issued.any fun t => t.1 == m

end Sys2Proof.Machine
end

