-- ==== Sys2Proof/Machine/MatrixOps.lean ====
section
/-! DEFINITION. The matrix unit, its operand ports and the operand expander (R150 to R152, R187 to
R193, R209 to R217). -/

namespace Sys2Proof.Machine

/-- A port element: its value and poison. -/
abbrev PortElem := FVal × Bool

/-- Where a port reads: the stall store, or a crate with a byte offset (R151). -/
inductive PortSrc where
  | store (a : Nat)
  | crate (h o : Nat)
  deriving DecidableEq, Repr

/-- The source a base register names. -/
def portSrc (isCrate : Bool) (v : Nat) : PortSrc :=
  if isCrate then .crate (v / 2 ^ 32) (v % 2 ^ 32) else .store v

/-- Whether a unit may read a crate: one its posting names, or one its own channels allocated (R171,
Table 9.4). -/
def unitMayRead (p : Placement) (h : Nat) (s : State) : Bool :=
  p.handles.contains h || (p.tags.any fun t =>
    (getUnit t s).channels.any fun c => (smGet (fun _ => ({} : Channel)) c s.port.chans).crates.contains h)

/-- Whether the unit reaches `n` bytes at offset `o` of a source (R146, R171, R212). -/
def portReach (st : Nat) (src : PortSrc) (o n : Nat) (s : State) : Bool :=
  match src with
  | .store a => inStore st (a + o) n s
  | .crate h b =>
    handleValid h s && (getCrate h s).rstate != 0 && b + o + n ≤ classSize (handleClass h)
      && match getPlacement (getStall st s).placement s with
         | some p => unitMayRead p h s
         | none => false

/-- How a read of `n` bytes at offset `o` beyond the unit's reach ends it: STORE_RANGE (R212). The code, one more than the handle,
marks a crate stream that is counted as a refused crate operation: an invalid handle (R222), an offset beyond the class size
(R223), a crate of another tenant (R230). -/
def reachFault (st : Nat) (src : PortSrc) (o n : Nat) (s : State) : StopCause :=
  match src with
  | .store _ => (cStoreRange, 0)
  | .crate h b =>
    let foreign := (getCrate h s).rstate != 0 && (getCrate h s).tenant != (getStall st s).tenant
    (cStoreRange, if !handleValid h s || classSize (handleClass h) < b + o + n || foreign then h + 1 else 0)

/-- Bytes of a source. -/
def portRead (st : Nat) (src : PortSrc) (o n : Nat) (s : State) : List (Byte × Bool) :=
  match src with
  | .store a => readStore st (a + o) n s
  | .crate h b => readCrate h (b + o) n s

/-- The byte offset a source starts from. -/
def PortSrc.base : PortSrc → Nat
  | .store a => a
  | .crate _ b => b

/-- The same source from offset 0. -/
def PortSrc.at0 : PortSrc → PortSrc
  | .store _ => .store 0
  | .crate h _ => .crate h 0

/-- `n` elements of a plain format from a source; `none` where a byte is out of reach. -/
def portPlain (st fmt : Nat) (src : PortSrc) (n : Nat) (s : State) : Option (List PortElem) :=
  let b := elemBytes fmt
  if portReach st src 0 (n * b) s then
    some ((List.range n).map fun i =>
      let bs := portRead st src (i * b) b s
      (decodeElem fmt (natP bs), anyPoison bs))
  else none

/-- Where a block stream starts: a group's start, or a block's first byte in a group; its group and block
number (log entry 33). -/
def streamStart (fmt a : Nat) : Option (Nat × Nat) :=
  let (_, b, per) := blockGeom fmt
  let g := a / 2048 * 2048
  let o := a - g
  if o = 0 then some (g, 0)
  else if o < 128 ∨ (o - 128) % b ≠ 0 ∨ per ≤ (o - 128) / b then none
  else some (g, (o - 128) / b)

/-- The `j`-th block of a block stream that starts at block `k` of group `g` (R187): its scale byte's
and its elements' offsets. -/
def streamBlock (fmt g k j : Nat) : Nat × Nat :=
  let (_, b, per) := blockGeom fmt
  let g' := g + 2048 * ((k + j) / per)
  let i := (k + j) % per
  (g' + i, g' + 128 + i * b)

/-- `n` blocks of a block stream (R187); `none` where a byte is out of reach. -/
def portBlocks (st fmt : Nat) (src : PortSrc) (g k n : Nat) (s : State) : Option (List PortElem) :=
  let (_, b, _) := blockGeom fmt
  let z := src.at0
  let places := (List.range n).map (streamBlock fmt g k)
  if places.all fun p => portReach st z p.1 1 s && portReach st z p.2 b s then
    some (places.flatMap fun p =>
      let x := portRead st z p.1 1 s
      (blockCodes fmt (portRead st z p.2 b s)).map fun e => (blockVal fmt (natP x) e.1, e.2 || anyPoison x))
  else none

/-- The outcome of reading a port: the elements with the state after it, or the cause that ends the unit with the state it leaves, in
which damage found before stays reported (R217). -/
abbrev PortOut := Except (StopCause × State) (List PortElem × State)

/-- Count clocks for which the expander held the matrix unit (R215). -/
def expHeld (st n : Nat) (s : State) : State := if n = 0 then s else addN (O.STALL_EXP_HOLD + st) n s

/-- Count clocks for which a crate stream held the matrix unit: how far it falls behind is a free value (R151, log entry 124). -/
def portWaited (st : Nat) (crate : Bool) (s : State) : State :=
  if crate then freeNext (addN (O.STALL_PORT_WAIT + st) (freeAt 97 s % 2 ^ 32) s) else s

/-- A port without the expander: `n` elements (R151, R187). -/
def portOff (st fmt : Nat) (isCrate : Bool) (v n : Nat) (s : State) : PortOut :=
  let src := portSrc isCrate v
  let used (es : List PortElem) : PortOut :=
    match src with
    | .crate h _ => .ok (es, markUsed h (portWaited st true s))
    | .store _ => .ok (es, s)
  if isBlockFmt fmt then
    match streamStart fmt src.base with
    | none => .error ((cIllegal, 0), s)
    | some (g, k) => match portBlocks st fmt src g k (n / 32) s with
      | some es => used es
      | none => .error (reachFault st src.at0 (streamBlock fmt g k (n / 32 - 1)).2 (blockGeom fmt).2.1 s, s)
  else match portPlain st fmt src n s with
    | some es => used es
    | none => .error (reachFault st src 0 (n * elemBytes fmt) s, s)

/-! ### The expander -/

/-- Code table `t` (Table 7.9): 0 and 1 in ROM, the others as loaded, table 0 until they are. -/
def xcTable (t : Nat) (s : State) : List Byte :=
  if t = 0 then xcRom0
  else if t = 1 then xcRom1
  else let b := getB (O.XC_TABLE + t) s; if b.isEmpty then xcRom0 else b

/-- All sixteen tables. -/
def xcTables (s : State) : List (List Byte) := (List.range 16).map fun t => xcTable t s

/-- The descriptor XCFG reads (Table 7.5). -/
def expanderOf (bs : List Byte) : Expander :=
  let b (i n : Nat) : Nat := natOfLE ((bs.drop i).take n)
  let kind := b 0 1
  let flags := b 2 1
  { loaded := true, kind := kind, fmt := b 1 1, flags := flags,
    reservedBad := b 3 1 != 0 || b 6 2 != 0 || b 30 2 != 0 || b 40 24 != 0
      || (if kind = 1 then flags / 2 != 0 || b 28 2 != 0 || b 32 8 != 0 else flags / 8 != 0 || b 22 2 != 0),
    damageTally := b 4 2, base := b 8 8, word16 := b 16 8, word24 := b 24 4, firstSlab := b 28 2,
    scaleAddr := b 32 8, prefetched := b 28 2 }

/-- The source the descriptor names. -/
def Expander.src (e : Expander) : PortSrc := portSrc (bitOf e.flags 0) e.base

/-- What taking elements from an XC stream gives: the codes with their poison, the expander after it and the
damaged blocks found (cause, offset). -/
structure XcTake where
  elems : List (Nat × Bool)
  exp : Expander
  damage : List (Nat × Nat)
  /-- The stream positions at which blocks begin. -/
  bounds : List Nat
  deriving DecidableEq, Repr

/-- Decode the block at the stream position into the expander's buffer (R208, R213, R217). -/
def expBlock (st : Nat) (s : State) (e : Expander) : Except StopCause (Expander × List (Nat × Nat)) :=
  let avail := e.word16 - e.nextOff
  if !portReach st e.src e.nextOff (min 8 avail) s then .error (reachFault st e.src e.nextOff (min 8 avail) s)
  else
    let len := field (natP (portRead st e.src e.nextOff (min 8 avail) s)) 31 16
    let n := min avail (max 8 len)
    if !portReach st e.src e.nextOff n s then .error (reachFault st e.src e.nextOff n s)
    else
      let take (codes : List (Nat × Bool)) (l : Nat) (d : List (Nat × Nat)) : Expander × List (Nat × Nat) :=
        let total := e.decoded + codes.length
        if e.word24 < total || (e.word16 ≤ e.nextOff + l && total < e.word24) then
          ({ e with restPoison := true }, [(8, e.nextOff)])
        else ({ e with buf := e.buf ++ codes, nextOff := e.nextOff + l, decoded := total }, d)
      match xcDecodeBlock (xcTables s) e.fmt (portRead st e.src e.nextOff n s) with
      | .ok es l => .ok (take (es.map fun x => (x.code, x.poison)) l [])
      | .bad 1 count l => .ok (take (List.replicate count (0, true)) l [(1, e.nextOff)])
      | .bad c _ _ => .ok ({ e with restPoison := true }, [(c, e.nextOff)])

/-- Take `n` elements (R213): past damage they are poisoned, past the stream's end +0. -/
def xcTake (st : Nat) (s : State) (n : Nat) : Nat → Expander → List (Nat × Nat) → List Nat →
    Except (StopCause × List (Nat × Nat)) XcTake
  | 0, e, d, bs => .ok ⟨e.buf.take n ++ List.replicate (n - e.buf.length) (0, e.restPoison),
                    { e with buf := e.buf.drop n }, d, bs⟩
  | fuel + 1, e, d, bs =>
    if n ≤ e.buf.length || e.restPoison || e.word16 ≤ e.nextOff then
      .ok ⟨e.buf.take n ++ List.replicate (n - e.buf.length) (0, e.restPoison), { e with buf := e.buf.drop n }, d, bs⟩
    else match expBlock st s e with
      | .error c => .error (c, d)
      | .ok (e', d') => xcTake st s n fuel e' (d ++ d') (bs ++ [e.decoded])

/-- The clocks the matrix unit is held at block boundaries of the `n` elements from a stream position on: one for each boundary beyond
the first within a slice of `w` (R215). -/
def boundaryHolds (w start n : Nat) (bounds : List Nat) : Nat :=
  (List.range (n / max 1 w)).foldl (fun a i =>
    let lo := start + i * w
    a + ((bounds.filter fun b => decide (lo < b) && decide (b < lo + w)).length - 1)) 0

/-- Whether an operand source is a crate. -/
def PortSrc.isCrate : PortSrc → Bool
  | .crate _ _ => true
  | .store _ => false

/-- Report one damaged block (R217). -/
def reportDamage (st : Nat) (dmg : Nat × Nat) (s : State) : State :=
  let x := getStall st s
  let e := x.exp
  let s1 := match getPlacement x.placement s with
    | some p => if e.damageTally ≠ 0xFFFF ∧ e.damageTally < p.tallyCount
        then tallyError (p.tallyBase + e.damageTally) tcPoison s else s
    | none => s
  let key := O.STALL_EXP_DAMAGE + st
  let streams := field (getN key s1) 55 32
  let streams' := if e.damageLogged then streams else min 0xFFFFFF (streams + 1)
  let s2 := addN O.XC_DAMAGED 1 (setN key (dmg.1 * 2 ^ 56 + streams' * 2 ^ 32 + dmg.2 % 2 ^ 32) s1)
  if e.damageLogged then s2
  else logEvent 0x5010 (dmg.1 * 2 ^ 56 + st * 2 ^ 40 + dmg.2 % 2 ^ 32)
    (setStall st { getStall st s2 with exp := { (getStall st s2).exp with damageLogged := true } } s2)

/-- Note the use of the descriptor's crate. -/
def expUse (e : Expander) (s : State) : State :=
  match e.src with
  | .crate h _ => markUsed h s
  | .store _ => s

/-- A port fed by XC decode: `n` elements in slices of `w` (R213). -/
def portXc (st w n : Nat) (s : State) : PortOut :=
  let e := (getStall st s).exp
  match xcTake st s n (n + 1) e [] [] with
  | .error (c, d) => .error (c, d.foldl (fun u b => reportDamage st b u) s)
  | .ok t =>
    let s1 := expHeld st (boundaryHolds w (e.decoded - e.buf.length) n t.bounds)
      (setStall st { getStall st s with exp := t.exp } (portWaited st e.src.isCrate s))
    let s2 := t.damage.foldl (fun u d => reportDamage st d u) s1
    .ok (t.elems.map fun c => (decodeElem e.fmt c.1, c.2), expUse e s2)

/-- Slabs of an LR operand. -/
def Expander.slabs (e : Expander) : Nat := (e.word16 % 2 ^ 32 + 63) / 64

/-- Element (j, ρ) of an LR slab as port B receives it (R210); `none` out of reach. -/
def lrElem (st slab j rho : Nat) (e : Expander) (s : State) : Option PortElem :=
  let n := e.word16 % 2 ^ 32
  let row := 64 * slab + j
  if n ≤ row then some (.fin false 0 0, false)
  else
    let b := elemBytes e.fmt
    let o := row * e.word24 + rho * b
    let scaled := bitOf e.flags 2
    if !portReach st e.src o b s || (scaled && !inStore st (e.scaleAddr + rho) 1 s) then none
    else
      let bs := portRead st e.src o b s
      let v := decodeElem e.fmt (natP bs)
      let x := readStore st (e.scaleAddr + rho) 1 s
      let v1 := if !scaled then v else if natP x = 0xFF then .nan false else scaleBy (natP x) v
      some (if bitOf e.flags 1 then v1.neg else v1, anyPoison bs || (scaled && anyPoison x))

/-- All values, or nothing when one is missing. -/
def allSome {α : Type} : List (Option α) → Option (List α)
  | [] => some []
  | none :: _ => none
  | some x :: r => (allSome r).map (x :: ·)

/-- A port fed by LR multiply-out: K slices of 64 (R210). Another slab than the one prefetched holds the unit while it loads, for a number
of clocks that the spec does not state (R215). -/
def portLr (st k slab : Nat) (s : State) : PortOut :=
  let e := (getStall st s).exp
  let es := (List.range k).flatMap fun rho => (List.range 64).map fun j => lrElem st slab j rho e s
  let last := min (e.word16 % 2 ^ 32) (64 * slab + 64) - 1
  match allSome es with
  | none => .error (reachFault st e.src (last * e.word24) (k * elemBytes e.fmt) s, s)
  | some vs =>
    let e' := { e with prefetched := (slab + 1) % max 1 e.slabs }
    let s1 := portWaited st e.src.isCrate s
    let s2 := if slab = e.prefetched then s1 else freeNext (expHeld st (1 + freeAt 98 s1 % 2 ^ 32) s1)
    .ok (vs, expUse e (setStall st { getStall st s2 with exp := e' } s2))

/-! ### Matrix instructions -/

/-- The pairs of XSEL and FMT of Table 5.4. -/
def xselOk (xsel fmt : Nat) : Bool :=
  match xsel with
  | 0 => true
  | 2 => fmt ≤ 3
  | _ => fmt ≤ 2

/-- The steps per clock of a format, of which K is a multiple (R150). -/
def stepsPerClock (fmt : Nat) : Nat :=
  match fmt with
  | 3 | 4 | 7 => 2
  | 5 | 6 | 8 => 4
  | _ => 1

/-- The checks of R212 on the loaded descriptor. -/
def expanderOk (e : Expander) (xsel fmt k slab : Nat) : Bool :=
  let lr := xsel == 2
  e.loaded && e.kind == (if lr then 2 else 1) && !e.reservedBad
    && (e.fmt == fmt || (fmt == 0 && (e.fmt == 1 || e.fmt == 2 || (lr && e.fmt == 3))))
    && (!lr || (k == e.word16 / 2 ^ 32 % 2 ^ 16 && !(e.fmt == 3 && !bitOf e.flags 2) && slab < e.slabs))

/-- The elements of column `i` of slices of `w`. -/
def sliceCol (w i : Nat) (es : List PortElem) : List PortElem :=
  ((chunksOf w (es.length + 1) es).map fun c => c.getD i (.fin false 0 0, false))

/-- A tile after K outer products (R191 to R193); a poisoned operand poisons every element it reaches. -/
def tileUpdate (zero : Bool) (x : Stall) (acc : Nat) (as bs : List PortElem) : List Lane :=
  let cols := (List.range 64).map fun j => sliceCol 64 j bs
  (List.range 32).flatMap fun i =>
    let row := sliceCol 32 i as
    (cols.zipIdx).map fun c =>
      let old := if zero then Lane.zero else x.rdTile acc (i * 64 + c.2)
      ⟨BitVec.ofNat 32 (mopaElem old.v.toNat (row.map (·.1)) (c.1.map (·.1))),
        old.p || row.any (·.2) || c.1.any (·.2)⟩

/-- The fields of a matrix instruction that are checked of every one (R154, Table 5.4). -/
def matrixBad (o : MatrixOp) : Bool := o.reserved ≠ 0 || !xselOk o.xsel.val o.fmt.val

/-- Read both ports of a MOPA. -/
def readPorts (st k : Nat) (o : MatrixOp) (s : State) :
    Except (StopCause × State) (List PortElem × List PortElem × State) :=
  let x := getStall st s
  let va := (x.rdS o.sa.val).v.toNat
  let vb := (x.rdS o.sb.val).v.toNat
  let a := if o.xsel.val = 3 then portXc st 32 (32 * k) s else portOff st o.fmt.val o.srca va (32 * k) s
  match a with
  | .error c => .error c
  | .ok (as, s1) =>
    let b := match o.xsel.val with
      | 1 => portXc st 64 (64 * k) s1
      | 2 => portLr st k vb s1
      | _ => portOff st o.fmt.val o.srcb vb (64 * k) s1
    match b with
    | .error c => .error c
    | .ok (bs, s2) => .ok (as, bs, s2)

/-- MOPA: the state after it, or the cause that ends the unit with the state it leaves. -/
def matrixMopa (st : Nat) (o : MatrixOp) (s : State) : Except (StopCause × State) State :=
  let bad : Except (StopCause × State) State := .error ((cIllegal, 0), s)
  let x := getStall st s
  let k := (x.rdS o.sk.val).v.toNat
  let fmt := o.fmt.val
  if matrixBad o || 8 < fmt || k < 1 || 16384 < k || k % stepsPerClock fmt ≠ 0 then bad
  else if o.xsel.val ≠ 0 && !expanderOk x.exp o.xsel.val fmt k (x.rdS o.sb.val).v.toNat then bad
  else match readPorts st k o s with
  | .error c => .error c
  | .ok (as, bs, s1) =>
    let y := (getStall st s1).wrTile o.acc.val (tileUpdate o.zero x o.acc.val as bs)
    .ok (setStall st { y with pc := y.pc + 1 } s1)

/-- The bytes of the stall store that a port of a MOPA without the expander reads. -/
def portSpan (fmt : Nat) (isCrate : Bool) (v n : Nat) : List (Nat × Nat) :=
  if isCrate then []
  else if isBlockFmt fmt then
    (match streamStart fmt v with
    | none => []
    | some (g, k) => ((List.range (n / 32)).map (streamBlock fmt g k)).flatMap fun p => [(p.1, 1), (p.2, (blockGeom fmt).2.1)])
  else [(v, n * elemBytes fmt)]

/-- The bytes of the stall store that the expander may read: the rest of its stream, or its factor rows with their scales. -/
def expSpan (e : Expander) (lr : Bool) : List (Nat × Nat) :=
  match e.src with
  | .crate _ _ => if lr then [(e.scaleAddr, e.word16 / 2 ^ 32 % 2 ^ 16)] else []
  | .store a => if lr then [(a, e.word16 % 2 ^ 32 * e.word24), (e.scaleAddr, e.word16 / 2 ^ 32 % 2 ^ 16)]
      else [(a + e.nextOff, e.word16 - e.nextOff)]

/-- The bytes of the stall store that a MOPA reads. -/
def mopaSpan (st : Nat) (o : MatrixOp) (s : State) : List (Nat × Nat) :=
  let x := getStall st s
  let k := (x.rdS o.sk.val).v.toNat
  (if o.xsel.val = 3 then expSpan x.exp false else portSpan o.fmt.val o.srca (x.rdS o.sa.val).v.toNat (32 * k))
    ++ (if o.xsel.val = 1 then expSpan x.exp false else if o.xsel.val = 2 then expSpan x.exp true
        else portSpan o.fmt.val o.srcb (x.rdS o.sb.val).v.toNat (64 * k))

/-- MST: each element rounded once with roundTiesToEven (R193), row by row (log entry 34). -/
def matrixMst (st : Nat) (o : MatrixOp) (s : State) : StallOut :=
  let x := getStall st s
  let a := (x.rdS o.sa.val).v.toNat
  let fmt := o.fmt.val
  let b := elemBytes fmt
  let es := (List.range 2048).map fun i => x.rdTile o.acc.val i
  if matrixBad o || 4 < fmt then illegal
  else if !inStore st a (2048 * b) s then .error (cStoreRange, 0)
  else if es.any (·.p) then .error (cPoison, 0)
  else
    let cs := es.map fun e =>
      let v := fp32.decode e.v.toNat
      (v, encodeElem fmt .tiesToEven v)
    let s1 := writeStore st a (cs.flatMap fun c => bytesP b c.2.1 false) s
    let s2 := cs.foldl (fun w c =>
      histCount x.tag o.hslot.val (histElem fmt c.2.1 c.1) (satCounts x fmt c.2.2) w) s1
    retire st id (noteJf8e st fmt s2)

/-- MLD: the tile from FP32. -/
def matrixMld (st : Nat) (o : MatrixOp) (s : State) : StallOut :=
  let a := ((getStall st s).rdS o.sa.val).v.toNat
  if matrixBad o then illegal
  else if !inStore st a 8192 s then .error (cStoreRange, 0)
  else
    let ls := (List.range 2048).map fun i =>
      let bs := readStore st (a + 4 * i) 4 s
      (⟨BitVec.ofNat 32 (natP bs), anyPoison bs⟩ : Lane)
    retire st (Stall.wrTile o.acc.val ls) s

/-- MZERO. -/
def matrixMzero (st : Nat) (o : MatrixOp) (s : State) : StallOut :=
  if matrixBad o then illegal
  else retire st (Stall.wrTile o.acc.val (List.replicate 2048 Lane.zero)) s

/-- XCFG (R211): the descriptor is taken, stream position and damage state start anew. -/
def matrixXcfg (st : Nat) (o : MatrixOp) (s : State) : StallOut :=
  let a := ((getStall st s).rdS o.sa.val).v.toNat
  if matrixBad o then illegal
  else if !inStore st a 64 s then .error (cStoreRange, 0)
  else
    let bs := readStore st a 64 s
    let e := expanderOf (bs.map (·.1))
    retire st (fun x => { x with exp := if anyPoison bs then { e with restPoison := true } else e }) s

end Sys2Proof.Machine
end

