-- ==== Sys2Proof/Machine/CollOps.lean ====
section
/-! DEFINITION. Groups and collectives: geometry (R90 to R94), sending (R77, R97), landing (R97 to R101, R343,
R344), the states of Table 3.4, the unexpected-chunk store (R102 to R105) and epochs (R110 to R114). -/

namespace Sys2Proof.Machine

/-! ### Ports and sending (R77) -/

/-- The ports in use for a destination. -/
def usablePorts (g dst : Nat) (s : State) : List Nat :=
  let (a, b) := (getGroup g s).relay.getD dst (0, 0)
  let up (m : Nat) : List Nat := (bitsSet 4 m).filter fun n => !(getPort n s).withdrawn
  if (up a).isEmpty then up b else up a

/-- Whether a chunk's entry is that of a segment. -/
def ChunkPort.isOf (route : Nat) (g : Segment) (a : ChunkPort) : Bool :=
  a.route == route && a.dst == g.dst && a.group == g.group && a.epoch == g.epoch && a.seq == g.seq && a.src == g.src && a.chunk == g.chunk

/-- The port a segment leaves on, and the choice kept (R77): a chunk keeps its port while that is in use; a new chunk takes the port in
use after the one the chunk before it took, and so does one whose port has gone. What is of no collective leaves on the lowest port in
use. -/
def choosePort (route : Nat) (g : Segment) (s : State) : Option Nat × State :=
  let ps := usablePorts route g.dst s
  match ps with
  | [] => (none, s)
  | n :: _ =>
    if g.kind ≠ kColl then (some n, s)
    else match s.coll.chunkPorts.find? fun a => a.isOf route g && ps.contains a.port with
      | some a => (some a.port, s)
      | none =>
        let key := route * 256 + g.dst
        let from0 := smGet (fun _ => 0) key s.coll.nextPort
        let p := (ps.find? fun m => decide (from0 ≤ m)).getD n
        (some p, { s with coll := { s.coll with
          chunkPorts := s.coll.chunkPorts.filter (fun a => !a.isOf route g) ++ [⟨route, g.dst, g.group, g.epoch, g.seq, g.src, g.chunk, p⟩]
          nextPort := smPut (fun _ => 0) key (p + 1) s.coll.nextPort } })

/-- Forget the ports of chunks that a test picks. -/
def dropPorts (p : ChunkPort → Bool) (s : State) : State :=
  { s with coll := { s.coll with chunkPorts := s.coll.chunkPorts.filter fun a => !p a } }

/-- Hold something unsent until a port returns. -/
def holdUnsent (g : Nat) (x : Segment ⊕ CtlMsg) (s : State) : State :=
  { s with coll := { s.coll with unsent := s.coll.unsent ++ [(g, x)] } }

/-- Send a control message on the lowest-numbered port in use (R77). -/
def sendCtl (m : CtlMsg) (s : State) : State :=
  let h := ctlHdrOf m
  match usablePorts h.group h.dst s with
  | [] => holdUnsent h.group (.inr m) s
  | n :: _ => enqueueOwn 1 0 n 0 (ctlSegment (getGroup h.group s).tenant m) false s

/-- Send a segment of this gateway's own by the relay map of a group, on the port of its chunk (R77). -/
def sendVia (route : Nat) (g : Segment) (s : State) : State :=
  match choosePort route g s with
  | (none, t) => holdUnsent route (.inl g) t
  | (some n, t) => (enqueueSeg g.sc n g.job { seg := g } none t).2

/-- Send a segment of a group. -/
def sendSegment (g : Segment) (s : State) : State := sendVia g.group g s

/-- Send what was held for want of a port. -/
def flushUnsent (s : State) : State :=
  s.coll.unsent.foldl (fun u e => match e.2 with
    | .inl g => sendVia e.1 g u
    | .inr m => sendCtl m u) { s with coll := { s.coll with unsent := [] } }

/-- The header of a message of a group to a site. -/
def ctlTo (g dst seq : Nat) (s : State) : CtlHdr := ⟨g, (getGroup g s).epoch, selfSite s, dst, seq⟩

/-- Send one message to each of some sites. -/
def sendEach (sites : List Nat) (f : Nat → CtlMsg) (s : State) : State :=
  sites.foldl (fun u d => sendCtl (f d) u) s

/-- The descriptor digest (R79). -/
def descDigest (g : Nat) (x : Group) : Nat :=
  crc64 (bytesBE 2 g ++ bytesBE 1 x.n ++ bytesBE 1 x.dirs ++ bytesBE 4 x.chunk ++ bytesBE 4 x.crossover
    ++ x.ring.map (BitVec.ofNat 8) ++ List.replicate (32 - x.n) 0xFF#8 ++ List.replicate 4 0#8)

/-- The shard-range digest: the CRC-64 of the OS_TABLE bytes in order, 0 while there is no table (R118). -/
def rangeDigest (s : State) : Nat :=
  let bs := getB O.OS_TABLE s
  if bs.isEmpty then 0 else crc64 bs

/-- A HELLO of a group to a member. -/
def helloMsg (g dst : Nat) (reply : Bool) (s : State) : CtlMsg :=
  .hello (ctlTo g dst 0 s) ⟨descDigest g (getGroup g s), rangeDigest s, reply⟩

/-! ### Coded bytes and segments -/

/-- The element codes of bytes. -/
def codesOf (fmt : Nat) (bs : List Byte) : List Nat := (chunksOf (elemBytes fmt) (bs.length + 1) bs).map natOfLE

/-- The bytes of element codes. -/
def bytesOfCodes (fmt : Nat) (cs : List Nat) : List Byte := cs.flatMap (bytesLE (elemBytes fmt))

/-- A byte range of the uncoded vector cut at the ranges that travel as XC blocks: whether a part does, and its length. -/
def splitParts : List (Nat × Nat) → Nat → Nat → List (Bool × Nat)
  | [], lo, hi => if lo < hi then [(false, hi - lo)] else []
  | (a, b) :: r, lo, hi =>
    if b ≤ lo then splitParts r lo hi
    else if hi ≤ a then (if lo < hi then [(false, hi - lo)] else [])
    else (if lo < a then [(false, a - lo)] else []) ++ (true, min b hi - max a lo) :: splitParts r (min b hi) hi

/-- Cut a chunk into its parts, and code those that travel as XC blocks: a plain part as it is, a coded one as its blocks, each with
whether it is RAW. -/
def codeParts (enc : List Byte → List (List Byte × Bool)) : List (Bool × Nat) → List Byte → List (List Byte ⊕ List (List Byte × Bool))
  | [], _ => []
  | (xc, n) :: ps, b => (if xc then .inr (enc (b.take n)) else .inl (b.take n)) :: codeParts enc ps (b.drop n)

/-- The parts of a chunk, coded; which table and block size XC uses for a chunk is left to the program (a free value, log entry 2): one
choice for all the copies this gateway makes, those of the reduce-scatter and of the all-gather of an all-reduce alike (R97). -/
def codedParts (c : Coll) (k : Nat) (bs : List Byte) (s : State) : List (List Byte ⊕ List (List Byte × Bool)) :=
  let at0 := c.codeKey * 2 ^ 24 + k
  let t := Config.freeValue 40 at0 % 2
  codeParts (fun b => xcEncode c.posting.elem t (xcTable t s) (64 * (1 + Config.freeValue 41 at0 % 32)) (codesOf c.posting.elem b))
    (splitParts c.xcRanges (c.range k).1 (c.range k).2) bs

/-- The coded form of a chunk's uncoded bytes: themselves, but for the parts that travel as XC blocks. -/
def codedForm (c : Coll) (k : Nat) (bs : List Byte) (s : State) : List Byte :=
  if c.xcRanges.isEmpty then bs else (codedParts c k bs s).flatMap fun p => match p with
    | .inl b => b
    | .inr blocks => blocks.flatMap (·.1)

/-- The blocks this gateway writes for a chunk are counted when it seals or sends it first; the all-gather of an all-reduce sends those of
its reduce-scatter (R97, R207). -/
def noteChunkEncode (c : Coll) (k : Nat) (bs : List Byte) (s : State) : State :=
  if c.xcRanges.isEmpty || (c.op == 2 && c.allReduce) then s
  else
    let blocks := (codedParts c k bs s).flatMap fun p => match p with | .inl _ => [] | .inr b => b
    let taken := (splitParts c.xcRanges (c.range k).1 (c.range k).2).foldl (fun n p => if p.1 then n + p.2 else n) 0
    noteEncode taken blocks s

/-- The uncoded bytes of a chunk this member has finished, with their poison: of its input for an all-gather posted alone, of its
output otherwise. -/
def finishedRaw (c : Coll) (k : Nat) (s : State) : List (Byte × Bool) :=
  let addr := if c.op = 2 && !c.allReduce then c.posting.inList else c.posting.outList
  match readList addr s with
  | none => []
  | some l => readListBytes s l.entries (c.range k).1 (c.chunkBytes k)

/-- The coded bytes of a chunk this member has finished. -/
def finishedBytes (c : Coll) (k : Nat) (s : State) : List Byte := codedForm c k ((finishedRaw c k s).map (·.1)) s

/-- Cut bytes into pieces of at most 8,048 (log entry 36). -/
def cutSegs : Nat → Nat → List Byte → List (Nat × List Byte)
  | 0, _, _ => []
  | fuel + 1, o, bs => if bs.length ≤ 8048 then [(o, bs)] else (o, bs.take 8048) :: cutSegs fuel (o + 8048) (bs.drop 8048)

/-- The segments of a chunk for a destination (R97, R317). -/
def chunkSegs (c : Coll) (x : Group) (me dst k sealV : Nat) (bs : List Byte) : List Segment :=
  let hop := if c.ring then hopOf x c.op k (x.posOf me) else 0
  (cutSegs (bs.length / 8048 + 1) 0 bs).map fun p =>
    let last := decide (p.1 + p.2.length = bs.length)
    { segZero with kind := kColl, last := last, sc := c.sc x, job := x.tenant, src := me, dst := dst, group := c.group,
                   epoch := c.epoch, seq := c.seq, op := c.op, dir := x.dirOf k, hop := hop, chunk := k,
                   offset := p.1, chunkLen := bs.length, sealV := if last then sealV else 0, data := p.2 }

/-- Send a chunk to some destinations. -/
def sendChunk (c : Coll) (k sealV : Nat) (bs : List Byte) (dsts : List Nat) (s : State) : State :=
  let x := getGroup c.group s
  dsts.foldl (fun u d => (chunkSegs c x (selfSite s) d k sealV bs).foldl (fun w g => sendSegment g w) u) s

/-- The bytes of a chunk this member can serve again, with their seal (R99, R345). -/
def heldChunk (c : Coll) (k : Nat) (s : State) : Option (List Byte × Nat) :=
  match c.seals.find? (fun p => p.1 == k) with
  | none => none
  | some (_, v) =>
    if owns (getGroup c.group s) (selfSite s) k then some (finishedBytes c k s, v)
    else match (c.items.find? fun p => p.1 / 32 == k).map (·.2) with
      | some it => some ((it.pieces.mergeSort fun a b => a.offset ≤ b.offset).flatMap (·.data), v)
      | none => none

/-! ### The end of a collective (Table 3.4, R106 to R109) -/

/-- The XOR of the seals (R107). -/
def Coll.sealDigest (c : Coll) : Nat := c.seals.foldl (fun a p => a ^^^ p.2) 0

/-- PARAM_DIGEST (R107). -/
def Coll.paramDigest (c : Coll) : Nat :=
  crc64 (bytesBE 1 c.op ++ bytesBE 8 c.posting.length ++ bytesBE 1 c.posting.redop ++ bytesBE 1 c.posting.elem
    ++ bytesBE 1 c.posting.coding ++ bytesBE 1 (ofBool c.ring) ++ bytesBE 4 c.k)

/-- Whether a collective belongs to an outer step. -/
def Coll.step (c : Coll) : Bool := bitOf c.posting.pflags 0

/-- EARLY_USE. -/
def Coll.early (c : Coll) : Bool := bitOf c.posting.pflags 3

/-- STATUS of Table 3.5. -/
def CollState.code : CollState → Nat
  | .confirmed => 0 | .failed => 1 | .cancelled => 2 | .replaced => 3
  | _ => 0xFF

/-- The causes of Table 3.5. -/
def ccTimeout : Nat := 1
def ccChunkLoss : Nat := 2
def ccMismatch : Nat := 3
def ccRequested : Nat := 4
def ccDependent : Nat := 5
def ccGroupFailed : Nat := 6

/-- Whether a collective is tainted at its end (R100). -/
def Coll.tainted1 (c : Coll) : Bool := c.taintOwn || c.confirms.any fun p => p.2.taint

/-- The completion record (Table 3.5). -/
def collRecord (c : Coll) (s : State) : List Byte :=
  bytesLE 2 c.group ++ bytesLE 2 (getGroup c.group s).epoch ++ bytesLE 4 c.seq ++ bytesLE 1 c.cstate.code
    ++ bytesLE 1 c.cause ++ bytesLE 1 (ofBool c.tainted1 + 2 * ofBool c.ring + 4 * ofBool c.step) ++ [0#8]
    ++ bytesLE 4 c.k ++ bytesLE 8 c.sealDigest ++ bytesLE 8 (timeLow64 s)

/-- The function number of postings that the sequencers make themselves. -/
def fnSequencer : Nat := 0x100

/-- A host job names crates: each holds a reference on its behalf until it ends (R235, log entry 156). -/
def holdJob (src : JobSrc) (hs : List Nat) (s : State) : State :=
  if hs.isEmpty then s else { s with host := { s.host with jobCrates := s.host.jobCrates ++ [(src, hs.eraseDups)] } }

/-- The host interface releases the references held on behalf of the jobs a test names (R235). -/
def releaseJobs (p : JobSrc → Bool) (s : State) : State :=
  (s.host.jobCrates.filter fun e => p e.1).foldl (fun u e => e.2.foldl (fun w h => letGo h (0x2000 + e.1.fn) w) u)
    { s with host := { s.host with jobCrates := s.host.jobCrates.filter fun e => !p e.1 } }

/-- A job has ended: its crates are released, and its completion entry waits to be written (R235, R467). -/
def finishJob (src : JobSrc) (bytes : List Byte) (s : State) : State :=
  if src.fn = fnSequencer then s
  else
    let t := releaseJobs (· == src) s
    { t with host := { t.host with done := t.host.done ++ [⟨src, bytes⟩] } }

/-- The crates a posting names. -/
def postingHandles (p : Posting) (s : State) : List Nat :=
  let hs (a : Nat) : List Nat := match readList a s with | some l => (l.entries.map (·.1)).filter (· != 0) | none => []
  hs p.inList ++ hs p.outList

/-- The owner code of a collective's crates (Table 8.8). -/
def Coll.owner (c : Coll) : Nat := 0x1000 + c.seq % 4096

/-- The collective engine releases the reference that each crate of a final collective's lists holds on its behalf (R235); those of an
all-reduce serve both its collectives, and go with the second (log entry 156). -/
def releaseLists (c : Coll) (s : State) : State :=
  if c.allReduce && c.op == 1 then s else (postingHandles c.posting s).eraseDups.foldl (fun u h => letGo h c.owner u) s

/-- Whether a segment is this gateway's own of one collective. -/
def ownSegOf (me g seq ep : Nat) (y : Segment) : Bool :=
  y.kind == kColl && y.src == me && y.group == g && y.seq == seq && y.epoch == ep

/-- Keep the 64 final collectives of a group that ended last (DESIGN CHOICE, log entry 37). -/
def trimColls (g : Nat) (s : State) : State :=
  let fin := s.coll.colls.filter fun c => c.group == g && c.isFinal
  match fin with
  | c :: _ => if 64 < fin.length
      then { s with coll := { s.coll with colls := s.coll.colls.filter fun d => !(d.same g c.seq c.epoch) } } else s
  | [] => s

/-- Whether what is held unsent is of one collective: its segments, and the messages that name it. -/
def unsentOf (me g seq ep : Nat) : Segment ⊕ CtlMsg → Bool
  | .inl y => ownSegOf me g seq ep y
  | .inr m => let h := ctlHdrOf m; h.group == g && h.seq == seq && h.epoch == ep && (match m with
    | .confirm _ _ | .chunkReq _ _ _ | .cancel _ | .endStatus _ _ _ => true
    | _ => false)

/-- Release crates that held bytes of an item. -/
def dropPieces (c : Coll) (ps : List Piece) (s : State) : State :=
  if c.landsInList then s else (ps.flatMap (·.handles)).foldl (fun u h => letGo h c.owner u) s

/-- What a final collective leaves behind in its group: a CONFIRMED sequence is never posted again (R86), and one posted with STEP waits
for the commit bell (R108). -/
def noteConfirmed (c : Coll) (s : State) : State :=
  let t := modGroup c.group (fun y => { y with confirmedSeqs := y.confirmedSeqs ++ [c.seq] }) s
  if c.step then { t with coll := { t.coll with stepOpen := t.coll.stepOpen ++ [(c.group, c.seq, c.epoch)] } } else t

/-- Bring one collective to a final state: its record, its queued and unsent segments and messages (R77, Table 10.6), the crates that
held what had landed of it (R114, R235), its re-send entries (R23, R108), its event; `ended` keeps it for the consequences. What it
tells the members then is sent after its end, so it is held for a port as any message is (DEDUCED, log entry 141). -/
def endOne (g seq ep : Nat) (st : CollState) (cause : Nat) (tell : Bool) (s : State) : State :=
  match findColl g seq ep s with
  | none => s
  | some c =>
    if c.isFinal then s
    else
      let me := selfSite s
      let s0 := modColl g seq ep (fun d => { d with cstate := st, cause := cause, tainted := c.tainted1, items := [] })
        ((c.items.flatMap fun p => p.2.pieces).foldl (fun u p => dropPieces c [p] u) s)
      let s1 := dropPorts (fun a => a.group == g && a.seq == seq && a.epoch == ep && a.src == me)
        { s0 with coll := { s0.coll with unsent := s0.coll.unsent.filter fun e => !unsentOf me g seq ep e.2 } }
      let s2 := if tell then sendEach ((getGroup g s).others me)
        (fun d => .endStatus (ctlTo g d seq s) st.code cause) s1 else s1
      let s3 := if st == .confirmed then noteConfirmed c s2 else purgeSegs (ownSegOf me g seq ep) s2
      let close := st == .cancelled || (st == .confirmed && !c.step)
      let s4 := if close then closeKept (ownSegOf me g seq ep) s3 else s3
      let s5 := if c.tainted1 then logEvent 0x4018 (g * 2 ^ 48 + seq * 2 ^ 16) s4 else s4
      let s6 := finishJob c.src (collRecord { c with cstate := st, cause := cause } s5) (releaseLists c s5)
      { s6 with coll := { s6.coll with ended := s6.coll.ended ++ [(g, seq, ep)] } }

/-- End a collective; the all-gather of an all-reduce ends as its reduce-scatter does unless that is CONFIRMED (R85). -/
def collEnd (g seq ep : Nat) (st : CollState) (cause : Nat) (tell : Bool) (s : State) : State :=
  match findColl g seq ep s with
  | none => s
  | some c =>
    let s1 := endOne g seq ep st cause tell s
    if c.op = 1 && c.allReduce && st != .confirmed then endOne g (seq + 1) ep st cause false s1 else s1

/-- This member's CONFIRM. -/
def confirmMsg (c : Coll) (dst : Nat) (s : State) : CtlMsg :=
  .confirm (ctlTo c.group dst c.seq s) ⟨c.op, c.taintOwn, c.k, c.sealDigest, c.paramDigest⟩

/-- Whether a CONFIRM differs from this member's digests (Table 3.4). -/
def Coll.differs (c : Coll) (b : ConfirmBody) : Bool :=
  b.paramDigest != c.paramDigest || (c.op == 2 && b.sealDigest != c.sealDigest)

/-- Compare the CONFIRMs of a collective in LOCAL_DONE. -/
def checkConfirms (g seq ep : Nat) (s : State) : State :=
  match findColl g seq ep s with
  | none => s
  | some c =>
    if c.cstate != .localDone then s
    else
      let os := (getGroup g s).others (selfSite s)
      match os.find? fun d => c.confirms.any fun p => p.1 == d && c.differs p.2 with
      | some d => collEnd g seq ep .failed ccMismatch true (logEvent 0x4015 d s)
      | none => if os.all fun d => c.confirms.any fun p => p.1 == d then collEnd g seq ep .confirmed 0 false s else s

/-! ### Counting items and finishing (R97, R166) -/

/-- Bytes of an item that landed from good frames. -/
def Item.landed (it : Item) : Nat := (it.pieces.filter fun p => !p.dnt).foldl (fun a p => a + p.data.length) 0

/-- All bytes have landed from good frames. -/
def Item.allLanded (it : Item) : Bool := match it.codedLen with | some n => decide (n ≤ it.landed) | none => false

/-- The crates that hold an item: the entries of the output list that its chunk touches, or its transit crates. -/
def Coll.itemCrates (c : Coll) (k src : Nat) (s : State) : List Nat :=
  if c.landsInList then match readList c.posting.outList s with
    | some l => (listTouched l.entries (c.range k).1 (c.chunkBytes k)).map (·.2)
    | none => []
  else (c.item k src).pieces.flatMap (·.handles)

/-- All segments of an item have landed, and no crate of it carries the do-not-trust flag (R97, R237). -/
def Coll.whole (c : Coll) (k src : Nat) (s : State) : Bool :=
  (c.item k src).allLanded && (c.itemCrates k src s).all fun h => !(getCrate h s).dnt

/-- The items of a prefix of the delivery order that pass a test. -/
def prefixCount (p : Nat → Nat → Bool) : List (Nat × Nat) → Nat
  | [] => 0
  | (k, src) :: r => if p k src then prefixCount p r + 1 else 0

/-- Bring RECV_DONE and RECV_LANDED up to date (R166). -/
def countItems (g seq ep : Nat) (s : State) : State :=
  match findColl g seq ep s with
  | none => s
  | some c => match c.tallyBase with
    | none => s
    | some b =>
      let es := c.expected (getGroup g s) (selfSite s)
      let d := prefixCount (fun k src => (c.item k src).complete) es
      let l := if c.early then prefixCount (fun k src => (c.item k src).complete || c.whole k src s) es else 0
      let s1 := if c.recvDone < d then engineAdd b (d - c.recvDone) s else s
      let s2 := if c.recvLanded < l then engineAdd (b + 1) (l - c.recvLanded) s1 else s1
      modColl g seq ep (fun x => { x with recvDone := max x.recvDone d, recvLanded := max x.recvLanded l }) s2

/-- Whether a segment of a collective still waits to leave. -/
def hasQueued (g seq ep : Nat) (s : State) : Bool :=
  let mine := ownSegOf (selfSite s) g seq ep
  (s.sched.queues.any fun e => e.2.segs.any fun x => mine x.seg)
    || (s.sched.picked.any fun e => e.2.any fun x => mine x.seg)
    || (s.sched.waiting.any fun w => mine w.seg.seg)
    || (s.coll.unsent.any fun e => match e.2 with | .inl y => mine y | .inr _ => false)

/-- Send or seal the next finished item while SEND_READY allows it (R97, R166). -/
def pumpSends : Nat → Nat → Nat → Nat → State → State
  | 0, _, _, _, s => s
  | fuel + 1, g, seq, ep, s =>
    match findColl g seq ep s with
    | none => s
    | some c => match c.tallyBase, c.cstate with
      | some b, .active =>
        let x := getGroup g s
        let me := selfSite s
        let fin := c.finishes x me
        let t := getTally (b + 2) s
        match fin[c.sentCount]? with
        | none => s
        | some k =>
          if t.tstate = 1 ∧ c.sentCount < t.count then
            let bs := finishedBytes c k s
            let v := crc64 bs
            let mine := owns x me k
            let s1 := modColl g seq ep (fun d => { d with
              sentCount := d.sentCount + 1
              seals := if mine then d.seals ++ [(k, v)] else d.seals }) (noteChunkEncode c k ((finishedRaw c k s).map (·.1)) s)
            let s2 := sendChunk c k (if mine then v else 0) bs (c.dests x me k) s1
            pumpSends fuel g seq ep s2
          else s
      | _, _ => s

/-- ACTIVE to LOCAL_DONE once everything is received, sent and sealed (Table 3.4). -/
def checkDone (g seq ep : Nat) (s : State) : State :=
  match findColl g seq ep s with
  | none => s
  | some c =>
    let x := getGroup g s
    let me := selfSite s
    let done := c.cstate == .active && (c.expected x me).all (fun e => (c.item e.1 e.2).complete)
      && decide ((c.finishes x me).length ≤ c.sentCount) && !hasQueued g seq ep s
    if !done then s
    else
      let s1 := modColl g seq ep (fun d => { d with cstate := .localDone }) s
      checkConfirms g seq ep (sendEach (x.others me) (fun d => confirmMsg c d s1) s1)

/-- The open collectives of their groups' current epochs: those of earlier epochs send no more and wait for resolution (R111). -/
def liveColls (s : State) : List Coll := s.coll.colls.filter fun c => !c.isFinal && c.epoch == (getGroup c.group s).epoch

/-- Carry every open collective as far as it goes: sends, counts, LOCAL_DONE. -/
def settleColls (s : State) : State :=
  (liveColls s).foldl (fun u c =>
    checkDone c.group c.seq c.epoch (countItems c.group c.seq c.epoch (pumpSends (c.k + 1) c.group c.seq c.epoch u))) s

/-! ### Landing (R97 to R101, R343, R344) -/

/-- The byte ranges of a collective's output that landed from good frames. -/
def Coll.goodRanges (c : Coll) : List (Nat × Nat) :=
  c.items.flatMap fun p => (p.2.pieces.filter (!·.dnt)).map fun x => ((c.range (p.1 / 32)).1 + x.offset, x.data.length)

/-- Copy what some ranges of a list have in entry `i`, which held crate `h`, into crate `h'` (R344). -/
def copyGood (es : List (Nat × Nat)) (rs : List (Nat × Nat)) (i h h' : Nat) (s : State) : State :=
  let lo := ((es.take i).map (·.2)).sum
  let hi := lo + (es.getD i (0, 0)).2
  rs.foldl (fun u r =>
    let a := max lo r.1
    let b := min hi (r.1 + r.2)
    if a < b then writeCrate h' (a - lo) (readCrate h (a - lo) (b - a) u) u else u) s

/-- Replace the crates of a range that carry DNT by new crates, with what landed in them from good frames (R344); the port counts
them. -/
def replaceDnt (port : Nat) (c : Coll) (es : List (Nat × Nat)) (o n : Nat) (s : State) : State :=
  (listTouched es o n).foldl (fun u e =>
    let x := getCrate e.2 u
    if !x.dnt then u
    else
      let q : CrateReq := { size := classSize (handleClass e.2), loc := 3, prio := 2, spill := false, nowait := true, die := 0,
                            owner := x.owner, tenant := Fin.ofNat 64 x.tenant }
      match allocNow q u with
      | (none, v) => v
      | (some h, v) =>
        let w := writeDev (c.posting.outList + 16 + 8 * e.1) (bytesLE 4 h) (copyGood es c.goodRanges e.1 e.2 h v)
        letGo e.2 c.owner (addN (O.RX_DNT_REPLACED + port) 1 w)) s

/-- The request for a crate of a collective's output list that its poster left to the engine: the crate is the poster's. -/
def Coll.fillReq (c : Coll) (s : State) : CrateReq :=
  { size := 1, loc := 3, prio := 0, spill := true, nowait := true, die := 0, owner := 0x2000 + c.src.fn % 4096,
    tenant := Fin.ofNat 64 (getGroup c.group s).tenant }

/-- The output list of a collective with a crate for every byte of a range (R238, log entry 156). -/
def Coll.outList (c : Coll) (o n : Nat) (s : State) : Option CrateList × State := fillList (c.fillReq s) 2 c.posting.outList o n s

/-- Put the bytes of a piece into crates: the output list's, or a transit crate of the engine's (log entry 38). -/
def landBytes (port : Nat) (c : Coll) (k off : Nat) (data : List Byte) (dnt : Bool) (s : State) : List Nat × State :=
  if c.landsInList then
    let o := (c.range k).1 + off
    match c.outList o data.length s with
    | (none, t) => ([], t)
    | (some l, t) =>
      let s1 := if dnt then t else replaceDnt port c l.entries o data.length t
      let es := match readList c.posting.outList s1 with | some m => m.entries | none => l.entries
      let s2 := writeListBytes es o (clean data) s1
      let hs := (listTouched es o data.length).map (·.2)
      (hs, if dnt then hs.foldl (fun u h => setDnt h u) s2 else s2)
  else
    let q : CrateReq := { size := max 1 data.length, loc := 3, prio := 0, spill := true, nowait := true, die := 0,
                          owner := c.owner, tenant := Fin.ofNat 64 (getGroup c.group s).tenant }
    match allocNow q s with
    | (none, t) => ([], t)
    | (some h, t) => ([h], (fun u => if dnt then setDnt h u else u) (writeCrate h 0 (clean data) t))

/-- Chunk loss (R101). -/
def chunkLoss (g seq ep k : Nat) (s : State) : State :=
  collEnd g seq ep .failed ccChunkLoss true (logEvent 0x4013 k s)

/-- A failed seal check (R99, R100). -/
def sealFail (g seq ep k src : Nat) (s : State) : State :=
  match findColl g seq ep s with
  | none => s
  | some c =>
    let it := c.item k src
    let n := it.fails + 1
    let s1 := dropPieces c it.pieces (logEvent 0x4012 (g * 2 ^ 48 + seq * 2 ^ 16 + n) (addN (O.GRP_SEAL_FAILS + g * 256) 1 s))
    let s2 := modColl g seq ep (fun d => { (d.setItem k src { it with pieces := [], codedLen := none, fails := n }) with
      taintOwn := d.taintOwn || it.used }) s1
    if 3 ≤ n then chunkLoss g seq ep k s2
    else
      let x := getGroup g s2
      let dst := if n = 1 then it.fromSite else x.siteAt (x.ownerPos k)
      sendCtl (.chunkReq (ctlTo g dst seq s2) k n) s2

/-- Check an item all of whose segments have landed (R97). -/
def itemLanded (g seq ep k src : Nat) (s : State) : State :=
  match findColl g seq ep s with
  | none => s
  | some c =>
    let it := c.item k src
    if it.complete || !c.whole k src s then s
    else
      let bs := ((it.pieces.filter fun p => !p.dnt).mergeSort fun a b => a.offset ≤ b.offset).flatMap (·.data)
      if c.op = 2 && crc64 bs != it.sealRx then sealFail g seq ep k src s
      else modColl g seq ep (fun d =>
        let e := d.setItem k src { it with complete := true }
        if c.op = 2 then { e with seals := e.seals ++ [(k, it.sealRx)] } else e) s

/-- Forward an all-gather segment in a ring as it arrives (R93). -/
def forwardSeg (c : Coll) (g : Segment) (s : State) : State :=
  let x := getGroup c.group s
  let me := selfSite s
  let p := x.posOf me
  let hop := hopOf x 2 g.chunk p
  if c.op = 2 && c.ring && decide (hop + 1 < x.n) then
    sendSegment { g with src := me, dst := x.siteAt (x.nextPos g.chunk p), hop := hop, sc := c.sc x,
                         resend := false, blind := false } s
  else s

/-- Count a duplicate (R343). -/
def dupSeg (port : Nat) (s : State) : State := addN (O.RX_DUP_SEGS + port) 1 s

/-- The source under which a segment's bytes count: the member it is expected from; or, for what the owner of an all-gather chunk sends
again after the second failure of its seal (R99), the member the chunk was expected from. -/
def Coll.sourceOf (c : Coll) (x : Group) (me : Nat) (g : Segment) : Option Nat :=
  let es := c.sources x me g.chunk
  if es.contains g.src then some g.src
  else match es with
    | [e] => if c.op == 2 && g.src == x.siteAt (x.ownerPos g.chunk) && decide (2 ≤ (c.item g.chunk e).fails) then some e else none
    | _ => none

/-- What a range leaves of another, each from its start to its end. -/
def cutOut (good : Nat × Nat) (r : Nat × Nat) : List (Nat × Nat) :=
  if good.2 ≤ r.1 ∨ r.2 ≤ good.1 then [r] else [(r.1, good.1), (good.2, r.2)].filter fun x => x.1 < x.2

/-- The bytes of a segment that fall in no range landed from a good frame (R343): their offsets and the bytes. -/
def Item.freshBytes (it : Item) (off : Nat) (data : List Byte) : List (Nat × List Byte) :=
  let good := (it.pieces.filter (!·.dnt)).map fun p => (p.offset, p.offset + p.data.length)
  (good.foldl (fun rs g => rs.flatMap (cutOut g)) [(off, off + data.length)]).map fun r => (r.1, (data.drop (r.1 - off)).take (r.2 - r.1))

/-- Land fresh bytes of an item: pieces of bad frames that they overlap make room (R344). Bytes that no crate is free for do not land. -/
def landFresh (port : Nat) (g seq ep k src : Nat) (dnt : Bool) (b : Nat × List Byte) (s : State) : State :=
  match findColl g seq ep s with
  | none => s
  | some c =>
    let it := c.item k src
    let meets (p : Piece) : Bool := p.dnt && decide (p.offset < b.1 + b.2.length) && decide (b.1 < p.offset + p.data.length)
    if dnt && it.pieces.any meets then s
    else
      let old := it.pieces.filter meets
      let s0 := if old.isEmpty || c.landsInList then s else dropPieces c old (addN (O.RX_DNT_REPLACED + port) old.length s)
      let (hs, s1) := landBytes port c k b.1 b.2 dnt s0
      if hs.isEmpty && !b.2.isEmpty then s1
      else modColl g seq ep (fun d => d.setItem k src { it with pieces := it.pieces.filter (!meets ·) ++ [⟨b.1, b.2, dnt, hs⟩] }) s1

/-- The items of a collective that have become whole are checked: a crate may hold bytes of more than one. -/
def wholeItems (g seq ep : Nat) (s : State) : State :=
  match findColl g seq ep s with
  | none => s
  | some c => c.items.foldl (fun u p => itemLanded g seq ep (p.1 / 32) (p.1 % 32) u) s

/-- Process a segment of a posted collective (Table 3.3, R343). -/
def processSeg (port : Nat) (g : Segment) (dnt : Bool) (s : State) : State :=
  match findColl g.group g.seq g.epoch s with
  | none => s
  | some c =>
    let x := getGroup g.group s
    let k := g.chunk
    if g.op ≠ c.op ∨ c.k ≤ k then s
    else match c.sourceOf x (selfSite s) g with
    | none => s
    | some src =>
      let it := c.item k src
      let fresh := it.freshBytes g.offset g.data
      if it.complete || fresh.isEmpty then dupSeg port s
      else
        let s1 := fresh.foldl (fun u b => landFresh port g.group g.seq g.epoch k src dnt b u) s
        let s2 := modColl g.group g.seq g.epoch (fun d => d.setItem k src { d.item k src with
          codedLen := some g.chunkLen, fromSite := g.src, begun := true, sealRx := if g.last then g.sealV else (d.item k src).sealRx }) s1
        let s3 := if dnt then s2 else forwardSeg c g s2
        wholeItems g.group g.seq g.epoch s3

/-! ### The unexpected-chunk store (R102 to R105) -/

/-- The signed difference of two epochs (R110). -/
def epochDiff (a b : Nat) : Int := toSigned 16 ((a + 65536 - b % 65536) % 65536)

/-- What becomes of an arrival (Table 3.3). -/
inductive Arrival where
  | noGroup | stale | hold | late | process
  deriving DecidableEq, Repr

/-- Table 3.3. -/
def arrivalClass (g seq ep : Nat) (s : State) : Arrival :=
  let x := getGroup g s
  if !x.isOpen || relayOnly g s then .noGroup
  else
    let d := epochDiff ep x.epoch
    if d < 0 then .stale
    else if 0 < d then .hold
    else if (match x.maxSeq with | some m => decide (m < seq) | none => true) then .hold
    else match findColl g seq ep s with
      | some c => if c.isFinal then .late else .process
      | none => .late

/-- Bytes of a group in the store. -/
def heldBytes (g : Nat) (s : State) : Nat := (s.coll.held.filter fun h => h.group == g).foldl (fun a h => a + h.bytes) 0

/-- Bytes in the store, those of transfers no RECEIVE has taken among them (R469). -/
def heldTotal (s : State) : Nat :=
  s.coll.held.foldl (fun a h => a + h.bytes) 0
    + (s.host.xferIn.filter fun x => x.src.isNone).foldl (fun a x => a + x.pieces.foldl (fun b p => b + p.data.length) 0) 0

/-- The pair B of R104: the oldest ACTIVE collective with something still to receive. -/
def stallPairB (s : State) : Nat × Nat × Nat :=
  match s.coll.colls.find? fun c => c.cstate == .active &&
      (c.expected (getGroup c.group s) (selfSite s)).any fun e => !(c.item e.1 e.2).complete with
  | some c => (c.group, c.seq, c.epoch)
  | none => (0xFFFF, 0, 0)

/-- COLL_ORDER_STALL with its pair A (R104). -/
def orderStall (g seq ep : Nat) (s : State) : State :=
  if s.coll.stalledPairs.contains (g, seq, ep) then s
  else
    let b := stallPairB s
    let s1 := { s with coll := { s.coll with stalledPairs := s.coll.stalledPairs ++ [(g, seq, ep)] } }
    let s2 := setN O.STALL_PAIR_A (g * 2 ^ 48 + seq * 2 ^ 16 + ep) s1
    let s3 := setN O.STALL_PAIR_B (b.1 * 2 ^ 48 + b.2.1 * 2 ^ 16 + b.2.2) s2
    logEvent 0x4010 (g % 65536 * 2 ^ 48 + seq % 65536 * 2 ^ 32 + b.1 % 65536 * 2 ^ 16 + b.2.1 % 65536) s3

/-- Whether the store and the group's quota have room for an arrival (R103). -/
def storeRoom (h : Held) (s : State) : Bool :=
  decide (heldTotal s + h.bytes ≤ 4 * gib) && decide (heldBytes h.group s + h.bytes ≤ (getGroup h.group s).quotaMib * mib)

/-- Put an arrival into the store. -/
def storeHeld (h : Held) (s : State) : State :=
  let t := { s with coll := { s.coll with held := s.coll.held ++ [h] } }
  maxN O.COLL_UNEXP_PEAK (heldTotal t) t

/-- Hold an arrival (R103). One the store or its group's quota has no room for, or that comes behind such a one of its group, raises
COLL_ORDER_STALL and waits outside the store, for nothing is dropped (R104, R105, log entry 142). -/
def holdArrival (h : Held) (s : State) : State :=
  if storeRoom h s && !(s.coll.backlog.any fun b => b.group == h.group) then storeHeld h s
  else
    let t := orderStall h.group h.seq h.epoch s
    { t with coll := { t.coll with backlog := t.coll.backlog ++ [h] } }

/-- Change the host side. -/
def modHost (f : HostSide → HostSide) (s : State) : State := { s with host := f s.host }

/-! ### Received transfers in the store (R21, R469) -/

/-- Whether a received transfer is this one. -/
def XferIn.same (tenant site number : Nat) (x : XferIn) : Bool := x.tenant == tenant && x.site == site && x.number == number

/-- The transfer of a tenant from a site under a number. -/
def findXfer (tenant site number : Nat) (s : State) : Option XferIn := s.host.xferIn.find? (XferIn.same tenant site number)

/-- Store it, in place of the one of the same name. -/
def putXfer (x : XferIn) (s : State) : State :=
  modHost (fun h => { h with xferIn := h.xferIn.filter (fun y => !y.same x.tenant x.site x.number) ++ [x] }) s

/-- The bytes of an XFER segment land, unless they have already (R343). -/
def xferLand (port : Nat) (g : Segment) (s : State) : State :=
  let fresh : XferIn := { src := none, site := g.src, number := g.seq, tenant := g.job, group := 0xFFFF, hostForm := false,
                          coded := false, fmt := 0, length := 0, dest := 0 }
  let x := (findXfer g.job g.src g.seq s).getD fresh
  if x.pieces.any fun p => p.offset = g.offset then dupSeg port s
  else
    let t := putXfer { x with
      pieces := x.pieces ++ [{ offset := g.offset, data := g.data, dnt := false, handles := [] }],
      total := if g.last then some (g.offset + g.data.length) else x.total, sealRx := if g.last then g.sealV else x.sealRx } s
    maxN O.COLL_UNEXP_PEAK (heldTotal t) t

/-- Hold an XFER segment that came before its RECEIVE: the group is not known, so the 4 GiB alone bound it (log entry 113). -/
def holdXfer (h : Held) (s : State) : State :=
  match h.arrival with
  | .inl g =>
    if heldTotal s + h.bytes ≤ 4 * gib && !(s.coll.backlog.any fun b => b.group == h.group) then xferLand h.port g s
    else
      let t := orderStall h.group h.seq h.epoch s
      { t with coll := { t.coll with backlog := t.coll.backlog ++ [h] } }
  | .inr _ => s

/-- What waits outside the store comes into it as room is made, each group's arrivals in their order. -/
def admitHeld (s : State) : State :=
  s.coll.backlog.foldl (fun u h =>
    if h.group == 0xFFFF then holdXfer h u
    else if storeRoom h u && !(u.coll.backlog.any fun b => b.group == h.group) then storeHeld h u
    else { u with coll := { u.coll with backlog := u.coll.backlog ++ [h] } })
    { s with coll := { s.coll with backlog := [] } }

/-- Take the arrivals a test picks out of the store and out of what waits for it, in their order. -/
def takeOut (p : Held → Bool) (s : State) : List Held × State :=
  ((s.coll.held ++ s.coll.backlog).filter p,
   { s with coll := { s.coll with held := s.coll.held.filter (fun h => !p h), backlog := s.coll.backlog.filter fun h => !p h } })

/-- Account a received segment against its sender's credit (R291). -/
def creditReceived (g : Segment) (s : State) : State :=
  let x := getCreditRx g.group g.src s
  let n := segLen g
  setCreditRx g.group g.src
    (if g.blind then { x with rxBlind := (x.rxBlind + n) % w48, grant := x.grant - n } else { x with rxPosted := (x.rxPosted + n) % w48 }) s

/-- A COLL segment for this site arrives (Table 3.3). -/
def collArrive (port : Nat) (g : Segment) (dnt : Bool) (s : State) : State :=
  let s1 := if (getGroup g.group s).isOpen && epochDiff g.epoch (getGroup g.group s).epoch == 0 && !g.resend && !dnt
    then creditReceived g s else s
  match arrivalClass g.group g.seq g.epoch s1 with
  | .noGroup => addN O.COLL_NO_GROUP_DROPS 1 s1
  | .stale => addN (O.GRP_STALE_DROPS + g.group * 256) 1 s1
  | .late => addN (O.GRP_LATE_DROPS + g.group * 256) 1 s1
  | .hold => holdArrival { group := g.group, seq := g.seq, epoch := g.epoch, bytes := segLen g, arrival := .inl g, port := port, dnt := dnt } s1
  | .process => processSeg port g dnt s1

/-! ### Control messages -/

/-- A CONFIRM of an open collective. -/
def takeConfirm (h : CtlHdr) (b : ConfirmBody) (s : State) : State :=
  checkConfirms h.group h.seq h.epoch
    (modColl h.group h.seq h.epoch (fun c => { c with confirms := c.confirms.filter (fun p => p.1 != h.src) ++ [(h.src, b)] }) s)

/-- A CONFIRM of a final collective is answered (Table 3.4). -/
def answerConfirm (h : CtlHdr) (s : State) : State :=
  match findColl h.group h.seq h.epoch s with
  | some c => if c.cstate == .confirmed then sendCtl (confirmMsg c h.src s) s
      else sendCtl (.endStatus (ctlTo h.group h.src h.seq s) c.cstate.code c.cause) s
  | none => s

/-- The frames of the re-send store that hold a chunk whole: its segments there (R345). -/
def keptChunk (g seq ep k : Nat) (s : State) : List Segment :=
  ((List.range 4).flatMap fun n => (getPort n s).kept.flatMap fun f => f.segs.map (·.seg)).filter fun y =>
    ownSegOf (selfSite s) g seq ep y && y.chunk == k

/-- Serve a CHUNK_REQ (R99, R345). -/
def serveChunk (h : CtlHdr) (k : Nat) (s : State) : State :=
  match findColl h.group h.seq h.epoch s with
  | none => s
  | some c =>
    let ys := keptChunk h.group h.seq h.epoch k s
    let first : List Segment := ys.foldl (fun (a : List Segment) y => if a.any fun z => z.offset == y.offset then a else a ++ [y]) []
    let whole := match first with | y :: _ => decide (y.chunkLen ≤ first.foldl (fun a (z : Segment) => a + z.data.length) 0) | [] => false
    if whole then first.foldl (fun u (y : Segment) => sendSegment { y with dst := h.src, resend := false, blind := false } u) s
    else match heldChunk c k s with
      | some (bs, v) => sendChunk c k v bs [h.src] s
      | none => s

/-- END_STATUS or CANCEL of a member (Table 3.4). -/
def endAs (h : CtlHdr) (status cause : Nat) (s : State) : State :=
  match findColl h.group h.seq h.epoch s with
  | none => s
  | some _ =>
    let st : CollState := match status with | 0 => .confirmed | 1 => .failed | 2 => .cancelled | _ => .replaced
    if status = 0 then s else collEnd h.group h.seq h.epoch st cause false s

/-- A CANCEL: only before CONFIRM was sent. -/
def cancelAs (h : CtlHdr) (s : State) : State :=
  match findColl h.group h.seq h.epoch s with
  | some c => if c.cstate == .posted || c.cstate == .active then collEnd h.group h.seq h.epoch .cancelled ccRequested false s else s
  | none => s

/-- A control message that concerns one collective (Table 3.3, Table 3.4). -/
def takeCollCtl (m : CtlMsg) (s : State) : State :=
  let h := ctlHdrOf m
  if !bitOf (getGroup h.group s).members h.src then s
  else match m with
  | .confirm _ b => takeConfirm h b s
  | .chunkReq _ k _ => serveChunk h k s
  | .cancel _ => cancelAs h s
  | .endStatus _ st ca => endAs h st ca s
  | _ => s

/-- A message that concerns one collective arrives. -/
def collCtlArrive (m : CtlMsg) (s : State) : State :=
  let h := ctlHdrOf m
  match arrivalClass h.group h.seq h.epoch s with
  | .noGroup => addN O.COLL_NO_GROUP_DROPS 1 s
  | .stale => addN (O.GRP_STALE_DROPS + h.group * 256) 1 s
  | .hold => holdArrival { group := h.group, seq := h.seq, epoch := h.epoch, bytes := 64 + (ctlBytes m).length, arrival := .inr m } s
  | .process => takeCollCtl m s
  | .late =>
    let s1 := addN (O.GRP_LATE_DROPS + h.group * 256) 1 s
    match m with
    | .confirm _ _ => answerConfirm h s1
    | _ => s1

/-- Take up the held arrivals of a posted collective in arrival order (R103). -/
def takeHeld (g seq ep : Nat) (s : State) : State :=
  let out := takeOut (fun h => h.group == g && h.seq == seq && h.epoch == ep) s
  admitHeld (out.1.foldl (fun u h => match h.arrival with
    | .inl y => processSeg h.port y h.dnt u
    | .inr m => takeCollCtl m u) out.2)

/-! ### HELLO (R79, R80) -/

/-- Every collective of a group that is not final ends. -/
def endAllOf (g : Nat) (st : CollState) (cause : Nat) (s : State) : State :=
  (openColls g s).foldl (fun u c => endOne g c.seq c.epoch st cause false u) s

/-- HELLO of a group is held back: the group of the outer step at a spare whose refill has not ended (R140). -/
def helloHeld (g : Nat) (s : State) : Bool := (g == getN O.OS_GROUP s && !s.os.refilled) || (getGroup g s).awaitAdv

/-- A HELLO arrives. -/
def takeHello (h : CtlHdr) (b : HelloBody) (s : State) : State :=
  let g := h.group
  let x := getGroup g s
  if !x.isOpen || relayOnly g s then addN O.COLL_NO_GROUP_DROPS 1 s
  else if epochDiff h.epoch x.epoch < 0 then addN (O.GRP_STALE_DROPS + g * 256) 1 s
  else if 0 < epochDiff h.epoch x.epoch then holdArrival { group := g, seq := 0, epoch := h.epoch, bytes := 64 + 33, arrival := .inr (.hello h b) } s
  else if !bitOf x.members h.src then s
  else
    let s1 := if b.reply || helloHeld g s then s else sendCtl (helloMsg g h.src true s) s
    if b.descDigest = descDigest g x ∧ b.rangeDigest = rangeDigest s then
      let pres := setBit x.present h.src
      let y := { x with present := pres, helloFrom := if b.reply then setBit x.helloFrom h.src else x.helloFrom }
      setGroup g { y with gstate := if y.allPresent then 2 else x.gstate } s1
    else
      logEvent 0x4017 h.src (endAllOf g .failed ccMismatch (modGroup g (fun y => { y with gstate := 3 }) s1))

/-! ### Placement epochs (R110 to R114) -/

/-- The entries of this member's EPOCH_ACK: what was not final, and what it had CONFIRMED, of the old epoch; while an earlier advance
is unresolved, of every epoch, since the later advance resolves those too (R112). -/
def ackList (g old : Nat) (s : State) : List (Nat × Nat) :=
  let cs : List Coll := s.coll.colls.filter fun c => c.group == g && (c.epoch == old || (getGroup g s).resolution.isSome)
  let opn : List (Nat × Nat) := (cs.filter fun (c : Coll) => !c.isFinal).map fun (c : Coll) => (c.seq, 1)
  let cfm : List (Nat × Nat) := (cs.filter fun (c : Coll) => c.cstate == .confirmed).reverse.map fun (c : Coll) => (c.seq, 0)
  (opn ++ cfm).take 16

/-- Take up the held HELLOs of a group's current epoch (R102, R113). -/
def takeHeldHellos (g : Nat) (s : State) : State :=
  let ep := (getGroup g s).epoch
  let due (h : Held) : Bool := h.group == g && h.epoch == ep && (match h.arrival with | .inr (.hello _ _) => true | _ => false)
  let out := takeOut due s
  admitHeld (out.1.foldl (fun u h => match h.arrival with | .inr (.hello m b) => takeHello m b u | _ => u) out.2)

/-- Adopt an epoch (R111 t0 and t1, R114): the old epoch's queued segments, held arrivals, credit and re-send entries go,
EPOCH_ACK is sent to every member, and what the new epoch's HELLOs held is taken up. -/
def adoptEpoch (g : Nat) (ch : EpochChange) (announcer : Nat) (s : State) : State :=
  let x := getGroup g s
  let old := x.epoch
  let me := selfSite s
  let acks := ackList g old s
  let keep (e : Nat) : Bool := decide (0 ≤ epochDiff e ch.newEpoch)
  let early := (x.earlyAcks.filter fun a => a.2.1 == ch.newEpoch).map fun a => (a.1, a.2.2)
  let clearBit (m : Nat) : Nat := if ch.kind = 1 ∧ ch.site ≠ me then clrBit m ch.site else m
  let y : Group := { x with
    epoch := ch.newEpoch, maxSeq := none, present := clearBit x.present, helloFrom := clearBit x.helloFrom,
    resolution := some ⟨ch.newEpoch, ch.kind, ch.site, ch.ports, announcer, early ++ [(me, acks)]⟩,
    earlyAcks := x.earlyAcks.filter fun a => a.2.1 != ch.newEpoch }
  let s1 := setGroup g y s
  let s2 := purgeSegs (fun z => z.kind == kColl && z.group == g && !keep z.epoch) s1
  let s3 := { s2 with coll := { s2.coll with
    held := s2.coll.held.filter fun h => h.group != g || keep h.epoch
    backlog := s2.coll.backlog.filter fun h => h.group != g || keep h.epoch
    chunkPorts := s2.coll.chunkPorts.filter fun a => a.group != g || keep a.epoch
    unsent := s2.coll.unsent.filter fun e => e.1 != g || (match e.2 with | .inl z => keep z.epoch | .inr _ => true) } }
  let s4 := closeKept (fun z => z.group == g && !keep z.epoch) (resetCredit g (purgePicked (fun _ z => z.kind == kColl && z.group == g && !keep z.epoch) s3))
  let hdr (d : Nat) : CtlHdr := ⟨g, old, me, d, 0⟩
  takeHeldHellos g (sendEach (x.others me) (fun d => .epochAck (hdr d) ch.newEpoch acks) s4)

/-- Announce a re-placement (R111 t0). -/
def announceEpoch (g kind site ports : Nat) (s : State) : State :=
  let x := getGroup g s
  if !x.isOpen || relayOnly g s then s
  else
    let ch : EpochChange := ⟨(x.epoch + 1) % 65536, kind, site, ports⟩
    let me := selfSite s
    let s1 := sendEach (x.others me) (fun d => .epochAdv ⟨g, x.epoch, me, d, 0⟩ ch) s
    adoptEpoch g ch me s1

/-- Whether nothing of its all-reduce keeps a collective from CONFIRMED: the all-gather of one follows its reduce-scatter (R85, R114),
which is posted, and so resolved, before it. -/
def rsConfirmed (c : Coll) (s : State) : Bool :=
  !(c.op == 2 && c.allReduce) || (match findColl c.group (c.seq - 1) c.epoch s with
    | some r => r.cstate == .confirmed
    | none => true)

/-- Resolve the collectives of earlier epochs (R111 t2), then announce a change of this gateway's own that still waits. -/
def resolveEpoch (g : Nat) (s : State) : State :=
  let x := getGroup g s
  match x.resolution with
  | none => s
  | some r =>
    let confirmed (seq : Nat) : Bool := r.acks.any fun a => a.2.contains (seq, 0)
    let s1 := (openColls g s).foldl (fun u c =>
      if c.epoch = x.epoch then u
      else endOne g c.seq c.epoch (if confirmed c.seq && rsConfirmed c u then .confirmed else .replaced) 0 false u) s
    let s2 := logEvent 0x4016 r.newEpoch (modGroup g (fun y => { y with resolution := none, ownChange := none }) s1)
    match x.ownChange with
    | some ch => announceEpoch g ch.kind ch.site ch.ports s2
    | none => s2

/-- Resolve once every other member has acknowledged. -/
def tryResolve (g : Nat) (s : State) : State :=
  let x := getGroup g s
  match x.resolution with
  | some r => if (x.others (selfSite s)).all fun d => r.acks.any fun a => a.1 == d then resolveEpoch g s else s
  | none => s

/-- Whether two announcements carry one change (R112). -/
def sameChange (ch : EpochChange) (r : Resolution) : Bool :=
  ch.kind == r.kind && ch.site == r.site && (ch.kind == 1 || ch.ports == r.ports)

/-- An EPOCH_ADV arrives (R111, R112); the change that stands is adopted, the absence of a replaced member with it (R113); a group a promoted
spare has opened takes its epoch from the first one (R433). -/
def takeEpochAdv (h : CtlHdr) (ch : EpochChange) (s : State) : State :=
  let g := h.group
  let x := getGroup g s
  if !x.isOpen || relayOnly g s then addN O.COLL_NO_GROUP_DROPS 1 s
  else if !bitOf x.members h.src then s
  else
    let d := epochDiff ch.newEpoch x.epoch
    if x.awaitAdv then
      let s1 := adoptEpoch g ch h.src (modGroup g (fun y => { y with awaitAdv := false }) s)
      let s2 := if helloHeld g s1 then s1
        else (x.others (selfSite s)).foldl (fun u t => sendCtl (helloMsg g t false u) u) s1
      tryResolve g s2
    else if 0 < d then tryResolve g (adoptEpoch g ch h.src s)
    else if d < 0 then addN (O.GRP_STALE_DROPS + g * 256) 1 s
    else match x.resolution with
      | none => s
      | some r =>
        if sameChange ch r || r.announcer ≤ h.src then s
        else
          let own : Option EpochChange := if r.announcer = selfSite s then some ⟨0, r.kind, r.site, r.ports⟩ else x.ownChange
          let clear (m : Nat) : Nat := if ch.kind = 1 ∧ ch.site ≠ selfSite s then clrBit m ch.site else m
          modGroup g (fun y => { y with
            ownChange := own, present := clear y.present, helloFrom := clear y.helloFrom,
            resolution := some { r with kind := ch.kind, site := ch.site, ports := ch.ports, announcer := h.src } }) s

/-- An EPOCH_ACK arrives (R111). -/
def takeEpochAck (h : CtlHdr) (newEpoch : Nat) (es : List (Nat × Nat)) (s : State) : State :=
  let g := h.group
  let x := getGroup g s
  if !x.isOpen || relayOnly g s then addN O.COLL_NO_GROUP_DROPS 1 s
  else if !bitOf x.members h.src then s
  else match x.resolution with
    | some r =>
      if r.newEpoch = newEpoch then
        tryResolve g (modGroup g (fun y => { y with resolution := some { r with
          acks := r.acks.filter (fun a => a.1 != h.src) ++ [(h.src, es)] } }) s)
      else if 0 < epochDiff newEpoch x.epoch then
        modGroup g (fun y => { y with earlyAcks := y.earlyAcks ++ [(h.src, newEpoch, es)] }) s
      else s
    | none => if 0 < epochDiff newEpoch x.epoch then
        modGroup g (fun y => { y with earlyAcks := y.earlyAcks ++ [(h.src, newEpoch, es)] }) s
      else s

/-! ### Transit (R18, R77, R294) -/

/-- The group whose relay map a segment follows: its own; one of no group follows that of the first open group of its tenant with
a port for its site in use (log entry 65). -/
def relayRoute (g : Segment) (s : State) : Nat :=
  if g.group ≠ 0xFFFF then g.group
  else
    (s.coll.groups.find? fun p => p.2.isOpen && p.2.tenant == g.job && !(usablePorts p.1 g.dst s).isEmpty).map (·.1) |>.getD 0xFFFF

/-- A segment that cannot be forwarded is dropped and counted, for its group or, with none, for its port. -/
def relayDrop (port : Nat) (g : Segment) (s : State) : State :=
  if g.group < 1024 then addN (O.GRP_RELAY_DROPS + g.group * 256) 1 s else addN (O.LP_TRANSIT_DROPS + port) 1 s

/-- Forward a segment or control message for another site. -/
def relaySegment (port : Nat) (g : Segment) (s0 : State) : State :=
  let route := relayRoute g s0
  match choosePort route g s0 with
  | (none, s) => relayDrop port g s
  | (some n, s) =>
    if n = port then relayDrop port g s
    else
      let q : CrateReq := { size := segLen g, loc := 3, prio := 0, spill := false, nowait := true, die := 0, owner := 0x3000,
                            tenant := Fin.ofNat 64 (getGroup route s).tenant }
      match allocNow q s with
      | (none, t) => logLimited 1 (markKey 0x2C04 port) 0x2C04 (port * 2 ^ 56 + g.group) (addN (O.LP_TRANSIT_DROPS + port) 1 t)
      | (some h, t) =>
        enqueueCrate g.sc n g.job g true h t

end Sys2Proof.Machine
end

