-- ==== Sys2Proof/Machine/ObjAccess.lean ====
section
/-! DEFINITION. Access to objects: which sources are served (R45, R49), the checks of one written item (R34 to R40, R57,
R68, R70), commit-group shadows (R62, R63) and the command that is the write of one object. -/

namespace Sys2Proof.Machine

/-! ### Processors -/

/-- Whether a processor runs: PROC_STATE running and no debugger holds it (R505). Codes of Table 18.9. -/
def procUp (p : Nat) (s : State) : Bool := getN (O.PROC_STATE + p) s == 1 && !bitOf s.dev.halted p

/-- Whether MGT answers requests (R55). -/
def mgtUp (s : State) : Bool := procUp 1 s

/-! ### Sessions (Table 2.5) -/

/-- A VF mailbox. -/
def sessVf (n : Nat) : Bool := 9 ≤ n && n ≤ 72

/-- A ROP session on the management port. -/
def sessMgmt (n : Nat) : Bool := n < 8

/-- ADMIN: the PF mailbox and the sessions whose chain reached the ADMIN anchor (R47, R49). -/
def sessAdmin (n : Nat) (s : State) : Bool := n == 8 || (sessMgmt n && (getSess n s).admin)

/-- The tenant a VF mailbox acts for. -/
def sessTenant (n : Nat) (s : State) : Option Nat := if sessVf n then smGet (fun _ => none) (n - 9) s.host.vfTenant else none

/-- Whether a source is reachable and served at all in the present device state (Table 2.4). A VF mailbox exists while
its function is enabled. -/
def sourceServed (n : Nat) (s : State) : Bool :=
  match s.devState with
  | .off | .aux | .boot => false
  | .load | .halt => n == 8
  | .init => n == 8 || (sessMgmt n && bitOf (getN O.INIT_PROGRESS s) 4)
  | .ready | .service | .lineHold => n == 8 || sessMgmt n || (sessVf n && n - 9 < getN O.HOST_NUM_VFS s)
  | .safe => n == 8 || sessMgmt n

/-- The objects that may be read in the present device state (Table 2.4). -/
def readServed (idx : Nat) (s : State) : Bool :=
  match s.devState with
  | .off | .aux | .boot => false
  | .load => (0x1000 ≤ idx && idx ≤ 0x10FF) || (0x6800 ≤ idx && idx ≤ 0x68FF) || (0x1100 ≤ idx && idx ≤ 0x1103)
  | .halt => (0x1000 ≤ idx && idx ≤ 0x10FF) || (0x6800 ≤ idx && idx ≤ 0x68FF) || (0x8000 ≤ idx && idx ≤ 0x87FF)
  | _ => mgtUp s

/-- The objects that may be written in the present device state (Table 2.4). -/
def writeServed (idx sub : Nat) (s : State) : Bool :=
  match s.devState with
  | .off | .aux | .boot => false
  | .load => 0x1100 ≤ idx && idx ≤ 0x1103
  | .halt => (idx == 0x6800 && (sub == 3 || sub == 4)) || (idx == 0x6810 && 1 ≤ sub && sub ≤ 3)
  | .safe => mgtUp s && ((0x1000 ≤ idx && idx ≤ 0x1FFF) || (0x6800 ≤ idx && idx ≤ 0x6FFF)
      || (0x7000 ≤ idx && idx ≤ 0x87FF) || (0x8800 ≤ idx && idx ≤ 0xEFFF))
  | _ => mgtUp s

/-! ### Finding an object (R33, R34) -/

/-- Subindex 0x00 of an index with members (R33). -/
def countDesc (idx : Nat) : ObjDesc := ⟨idx, idx, 0, 0, "", .u8, .ro, [maxSub idx], [], 0, false, false, none⟩

/-- The object at an index and subindex, or the error code of R34. -/
def lookupObj (idx sub : Nat) : Except Nat ObjDesc :=
  match findDesc idx sub with
  | some d => .ok d
  | none =>
    if !hasIndex idx then .error 0x10
    else if sub == 0 && 0 < maxSub idx then .ok (countDesc idx)
    else .error 0x11

/-- Whether the feature that gates an object is active (R70). -/
def ObjDesc.gateOpen (d : ObjDesc) (s : State) : Bool := match d.feature with | none => true | some k => featActive k s

/-- The commit group of an object at an index: carriers have one group each (Table 14.10). -/
def ObjDesc.groupAt (d : ObjDesc) (idx : Nat) : Nat := if d.group = 0x21 then 0x21 + (idx - d.idxLo) else d.group

/-- Whether a session may read an object (R49): a VF only tenant-visible ones of its own tenant. Which instance belongs to
a tenant is the queue's, the policer's or the tag's; the queues of tenant 0 in SC0, SC3 and SC6 belong to no tenant (R297). -/
def readPermitted (n idx sub : Nat) (d : ObjDesc) (s : State) : Bool :=
  if !sessVf n then true
  else if !d.tvis then false
  else
    let q := (idx - d.idxLo) * 128 + (sub - 1)
    let owner : Nat :=
      if d.idxLo = 0x2C82 then q / 4
      else if d.idxLo = 0x2C50 ∨ d.idxLo = 0x2C60 ∨ d.idxLo = 0x2C70 then (if q / 32 = 0 ∧ [0, 3, 6].contains (q % 8) then 64 else q / 32)
      else if d.idxLo = 0x5030 then
        let u := smGet (fun _ => ({} : UnitEnt)) (sub - 1) s.comp.unitMap
        match s.comp.placements.find? fun p => p.1 == u.placement with
        | some p => if u.active then p.2.tenant else 64
        | none => 64
      else q / 32
    sessTenant n s == some owner

/-! ### Values (R35, R36) -/

/-- Whether an F32 code is a NaN. -/
def f32Nan (v : Nat) : Bool := v / 2 ^ 23 % 256 == 255 && v % 2 ^ 23 != 0

/-- The value a number stands for in a type: signed for I32 and I64. -/
def ObjType.value (t : ObjType) (n : Nat) : Int :=
  match t with
  | .i32 => toSigned 32 n
  | .i64 => toSigned 64 n
  | _ => n

/-- Whether bytes are continuation bytes of UTF-8, the first of them in an interval. -/
def utf8Tail : Nat → Nat → Nat → List Byte → Bool
  | 0, _, _, _ => true
  | _, _, _, [] => false
  | n + 1, lo, hi, b :: bs => lo ≤ b.toNat && b.toNat ≤ hi && utf8Tail n 0x80 0xBF bs

/-- How many bytes follow a first byte of a UTF-8 sequence, and the interval of the second; none where no sequence begins so. -/
def utf8Lead (b : Nat) : Option (Nat × Nat × Nat) :=
  if b < 0x80 then some (0, 0, 0)
  else if 0xC2 ≤ b ∧ b ≤ 0xDF then some (1, 0x80, 0xBF)
  else if b = 0xE0 then some (2, 0xA0, 0xBF)
  else if b = 0xED then some (2, 0x80, 0x9F)
  else if 0xE1 ≤ b ∧ b ≤ 0xEF then some (2, 0x80, 0xBF)
  else if b = 0xF0 then some (3, 0x90, 0xBF)
  else if 0xF1 ≤ b ∧ b ≤ 0xF3 then some (3, 0x80, 0xBF)
  else if b = 0xF4 then some (3, 0x80, 0x8F)
  else none

/-- Whether bytes are valid UTF-8 (R36), `skip` of them belonging to the sequence already begun. -/
def utf8Ok : Nat → List Byte → Bool
  | _, [] => true
  | k + 1, _ :: bs => utf8Ok k bs
  | 0, b :: bs => match utf8Lead b.toNat with
    | some (n, lo, hi) => utf8Tail n lo hi bs && utf8Ok n bs
    | none => false

/-- Whether a number is a value of a type and lies in the intervals the object states, or bytes are a value of it (R36). -/
def ObjDesc.valueOk (d : ObjDesc) : ObjVal → Bool
  | .num n =>
    (match d.ty with
      | .bool => n ≤ 1
      | .f32 => !f32Nan n
      | .time80 => n % 2 ^ 32 ≤ 999999999
      | _ => true)
    && (d.ranges.isEmpty || d.ranges.any fun r => r.1 ≤ d.ty.value n && d.ty.value n ≤ r.2)
  | .bytes bs => d.ty != .str || utf8Ok 0 bs

/-- The length of a value of an object in bytes. -/
def ObjDesc.lengthOk (d : ObjDesc) (n : Nat) : Bool :=
  match d.ty with
  | .str => n ≤ 1024
  | .blob => n ≤ 1048576
  | t => t.size == some n

/-- Bytes with those a test on their place picks out read as zero under a mask. -/
def maskBytes (f : Nat → Nat) (bs : List Byte) : List Byte := bs.zipIdx.map fun p => p.1 &&& BitVec.ofNat 8 (f p.2)

/-- A value with its reserved bits and bytes at their reset value, which is zero: the gateway ignores what is written to them (R6). -/
def dropReserved (key : Nat) : ObjVal → ObjVal
  | .num n => .num (if key = O.BG_MEMBER_MASK then n % 512 else if key = O.TS_PPS_TOD then n % 2 ^ 48 else n)
  | .bytes bs => .bytes (
    if key = O.GD_RELAY then maskBytes (fun _ => 0x0F) bs
    else if key = O.LF_ETH_CLASS then maskBytes (fun k => if k % 4 = 0 then 0 else if k % 4 = 1 then 0xF8 else 0xFF) bs
    else if key = O.OS_TABLE then
      maskBytes (fun k => if (4 ≤ k ∧ k < 8) ∨ (16 ≤ k ∧ ((k - 16) % 32 = 15 ∨ 24 ≤ (k - 16) % 32)) then 0 else 0xFF) bs
    else bs)

/-! ### Commit groups (R62 to R64) -/

/-- A CLEAN group. -/
def CommitGroup.clean0 : CommitGroup := {}

/-- A commit group. -/
def getCg (id : Nat) (s : State) : CommitGroup := smGet (fun _ => CommitGroup.clean0) id s.dict.groups

/-- Store a commit group. -/
def setCg (id : Nat) (g : CommitGroup) (s : State) : State :=
  { s with dict := { s.dict with groups := smPut (fun _ => CommitGroup.clean0) id g s.dict.groups } }

/-- Whether a group exists: some object names it. -/
def cgExists (id : Nat) : Bool := (0x21 ≤ id && id ≤ 0x28) || (id != 0 && objTable.any fun d => d.group == id)

/-- The member objects of a group, in index and subindex order. -/
def cgMembers (id : Nat) : List Nat :=
  objTable.flatMap fun d =>
    if d.group = 0 then []
    else if d.group = 0x21 then
      (if 0x21 ≤ id && id ≤ 0x28 then
        (List.range (d.subHi + 1 - d.subLo)).map fun j => objKey (d.idxLo + (id - 0x21)) (d.subLo + j)
      else [])
    else if d.group = id then
      (List.range (d.idxHi + 1 - d.idxLo)).flatMap fun i =>
        (List.range (d.subHi + 1 - d.subLo)).map fun j => objKey (d.idxLo + i) (d.subLo + j)
    else []

/-- The commit group of an object, 0 for none. -/
def groupOfKey (key : Nat) : Nat :=
  match findDesc (key / 256) (key % 256) with
  | some d => d.groupAt (key / 256)
  | none => 0

/-- A member's value in a shadow, or its live value. -/
def shadowVal (g : CommitGroup) (key : Nat) (s : State) : ObjVal :=
  match g.shadow.find? fun p => p.1 == key with
  | some p => p.2
  | none => getObj key s

/-- A write of a member goes to the shadow: the first one opens the group (R62), and it clears the member's mark (R63). -/
def shadowWrite (id sess key : Nat) (v : ObjVal) (s : State) : State :=
  let g := getCg id s
  let base := if g.cgState = 0 then (cgMembers id).map fun k => (k, getObj k s) else g.shadow
  setCg id { g with
    cgState := 1
    owner := sess
    shadow := base.map fun p => if p.1 == key then (key, v) else p
    stale := if g.cgState = 0 then [] else g.stale.filter (· != key) } s

/-- The gateway itself changes the live value of a member: an OPEN group marks it stale (R63). -/
def setMember (key : Nat) (v : ObjVal) (s : State) : State :=
  let t := setObj key v s
  let id := groupOfKey key
  let g := getCg id t
  if id ≠ 0 ∧ g.cgState = 1 then setCg id { g with stale := g.stale.filter (· != key) ++ [key] } t else t

/-! ### The checks of one written item (R57) -/

/-! ### Objects of local-fabric ports (R450) -/

/-- Whether the octet mode of port `k` forms that port (Table 17.1). -/
def fabForms (mode k : Nat) : Bool :=
  match mode with
  | 1 | 3 => true
  | 2 | 4 => k % 2 == 0
  | _ => false

/-- The local-fabric port whose object an index and subindex name (Table 17.12). -/
def portObject (idx sub : Nat) : Option Nat :=
  if ((0x3001 ≤ idx ∧ idx ≤ 0x3004) ∨ idx = 0x3010 ∨ idx = 0x3011) ∧ 1 ≤ sub ∧ sub ≤ 16 then some (sub - 1) else none

/-- The mode of port `k`'s octet that a write of a port's object counts with: what the open shadow of commit group 0x30 holds, else the
mode in force (log entry 170). -/
def shadowMode (s : State) (k : Nat) : Nat := (shadowVal (getCg 0x30 s) (O.LF_OCTET_MODE + k / 2) s).toNat

/-- Whether an object belongs to a local-fabric port that its octet's mode does not form. -/
def portAbsent (mode : Nat → Nat) (idx sub : Nat) : Bool :=
  match portObject idx sub with | some k => !fabForms (mode k) k | none => false

/-- The checks of a write of a whole value: existence, service, feature, type, length, range and the port's existence (R450), access code,
state, role and commit group, in that order; 0 when all pass. `mode` gives the modes of the ports' octets. For a member of an ARMED group
that another session owns R62 gives E-0x20 and R68 E-0x22: E-0x20 is answered (DESIGN CHOICE, log entry 90); where nobody owns the group,
E-0x22. -/
def stdCheckAt (mode : Nat → Nat) (sess idx sub ty len : Nat) (v : ObjVal) (s : State) : Nat :=
  match lookupObj idx sub with
  | .error e => e
  | .ok d =>
    if !sourceServed sess s || !writeServed idx sub s then 0x30
    else if !d.gateOpen s then 0x1B
    else if ty ≠ d.ty.code then 0x12
    else if !d.lengthOk len then 0x13
    else if d.acc != .w1c && !d.valueOk v then 0x14
    else if portAbsent mode idx sub then 0x14
    else match d.acc with
    | .ro => 0x16
    | acc =>
      if acc == .rws && s.devState != .ready then 0x17
      else if acc == .rwk && !(getSess sess s).unlocked then 0x18
      else if !sessAdmin sess s then 0x19
      else
        let g := getCg (d.groupAt idx) s
        if d.group = 0 || g.cgState = 0 || g.owner = sess && g.cgState = 1 then 0
        else if g.owner ≠ sess && g.owner ≠ 0xFF then 0x20
        else if g.cgState = 2 then 0x22
        else 0x20

/-- The checks of a written item. -/
def stdCheck (sess idx sub ty len : Nat) (v : ObjVal) (s : State) : Nat := stdCheckAt (shadowMode s) sess idx sub ty len v s

/-- The length in bytes of a whole value. -/
def ObjDesc.wholeLen (d : ObjDesc) (v : ObjVal) : Nat :=
  match d.ty.size, v with
  | some n, _ => n
  | none, .bytes bs => bs.length
  | none, .num _ => 0

/-- The checks of a write whose type and length are the object's own. -/
def ownCheck (sess key : Nat) (v : ObjVal) (s : State) : Nat :=
  match findDesc (key / 256) (key % 256) with
  | none => 0x11
  | some d => stdCheck sess (key / 256) (key % 256) d.ty.code (d.wholeLen v) v s

/-- The command that is the write of one number: the standard checks, the object's own check, its effect and the
answer. -/
def numRow (key sess v : Nat) (check : State → Nat) (effect : State → State) (s : State) : State :=
  let e := match ownCheck sess key (.num v) s with | 0 => check s | e => e
  emit (.writeAnswer sess key e) (if e = 0 then effect s else s)

/-- The command that is the write of one BLOB. -/
def blobRow (key : Nat) (w : BlobWrite) (check : State → Nat) (effect : State → State) (s : State) : State :=
  let e := match ownCheck w.sess key (.bytes w.bytes) s with | 0 => check s | e => e
  emit (.writeAnswer w.sess key e) (if e = 0 then effect s else s)

end Sys2Proof.Machine
end

