-- ==== Sys2Proof/Machine/RowOps.lean ====
section
/-! DEFINITION. Row frequencies (R143, R522, R545). -/

namespace Sys2Proof.Machine

/-! ### Row frequencies -/

/-- Whether an emergency flag is set (Table 20.6). -/
def emergFlag (k : Nat) (s : State) : Bool := bitOf (getN O.EMERG_FLAGS s) k

/-- The highest frequency a row may run at: the request, the ceiling (R545) and the caps of VIN_LOW and COOLANT. -/
def rowLimit (row : Nat) (s : State) : Nat :=
  min (min (getN (O.ROW_FREQ_MHZ + row) s) (getN (O.ROW_FREQ_CEIL + row) s))
    (min (if emergFlag 4 s then 1400 else 1600) (if emergFlag 8 s then 1200 else 1600))

/-- Whether a row is lowered, or raised again, step by step: POWER_CAP, OC, OT_THROTTLE for its die, or their end (Tables 20.6 and
20.10). -/
def rowThrottled (row : Nat) (s : State) : Bool :=
  emergFlag 3 s || emergFlag 7 s || (emergFlag 1 s && bitOf s.dev.hot (row / 8)) || bitOf s.dev.ramping row

/-- Whether a migration runs in a row. -/
def rowMigrating (row : Nat) (s : State) : Bool := s.comp.migrations.any fun m => stallRow m.a == row

/-- Bring a row to its limit: at once when it is not throttled, down only while it is; a row that migrates waits (R143). -/
def settleRow (row : Nat) (s : State) : State :=
  let act := getN (O.ROW_FREQ_ACT + row) s
  let lim := rowLimit row s
  if rowMigrating row s then
    { s with comp := { s.comp with freqWaiting := s.comp.freqWaiting.filter (fun p => p.1 != row) ++ [(row, lim)] } }
  else if rowThrottled row s then (if lim < act then setN (O.ROW_FREQ_ACT + row) lim s else s)
  else setN (O.ROW_FREQ_ACT + row) lim s

/-- Bring every row to its limit. -/
def settleRows (s : State) : State := (List.range 16).foldl (fun u r => settleRow r u) s

/-- A change that waited for a migration of the row applies (R143). -/
def releaseFreq (row : Nat) (s : State) : State :=
  if s.comp.freqWaiting.any fun p => p.1 == row then
    settleRow row { s with comp := { s.comp with freqWaiting := s.comp.freqWaiting.filter fun p => p.1 != row } }
  else s

end Sys2Proof.Machine
end

