-- ==== Sys2Proof/Machine/Lifecycle.lean ====
section
/-! DEFINITION. Placements (R169 to R173, R249), how units and placements end (R172), stopping porter channels (R268),
fences, migrations (R175, R176) and the end of host jobs (R467 to R469). -/

namespace Sys2Proof.Machine

/-! ### Porter channels -/

/-- A channel nothing owns. -/
def Channel.idle0 : Channel := {}

/-- A channel. -/
def getChan (c : Nat) (s : State) : Channel := smGet (fun _ => Channel.idle0) c s.port.chans

/-- Store a channel. -/
def setChan (c : Nat) (x : Channel) (s : State) : State :=
  { s with port := { s.port with chans := smPut (fun _ => Channel.idle0) c x s.port.chans } }

/-- Whether a channel has bursts in flight. -/
def Channel.inFlight (x : Channel) : Bool := x.moves.any fun m => !m.bursts.isEmpty

/-- The cause OWNER of Table 9.6. -/
def pcOwner : Nat := 0x0A

/-- Stop a channel (R268): no burst starts, waiting crate requests and enqueues are withdrawn, and it is in FAULT with
cause OWNER once nothing is in flight. -/
def stopChannel (c : Nat) (s : State) : State :=
  let x := getChan c s
  if x.cstate != .run && x.cstate != .wait then s
  else
    let s1 := { s with
      pools := { s.pools with waiting := s.pools.waiting.filter fun w => w.waiter != .porter c }
      sched := { s.sched with waiting := s.sched.waiting.filter fun w => w.chan != some c } }
    let y : Channel := { x with waitFor := none, afterMoves := none, pendingFault := none }
    setChan c (if x.inFlight then { y with cstate := .stopping, cause := pcOwner }
      else { y with cstate := .fault, cause := pcOwner, moves := [] }) s1

/-- A channel goes back to having no owner, once it is at rest (R249). -/
def freeChannel (c : Nat) (s : State) : State :=
  let x := getChan c s
  setChan c (if x.cstate == .stopping then { x with releasing := true }
    else { x with owner := .none, tag := 0xFF, releasing := false }) s

/-! ### Host jobs (Table 17.9) -/

/-- The completion entry of a job of a ring other than COLL. -/
def jobEntry (slot status cause result bytes : Nat) (s : State) : List Byte :=
  bytesLE 4 slot ++ bytesLE 1 status ++ bytesLE 1 cause ++ [0#8, 0#8] ++ bytesLE 8 result ++ bytesLE 8 bytes
    ++ bytesLE 8 (timeLow64 s)

/-- End a job with its entry. -/
def endJob (src : JobSrc) (status cause result bytes : Nat) (s : State) : State :=
  finishJob src (jobEntry src.entry status cause result bytes s) s

/-- The cause HOST, with which a failed access to host memory ends a job (R464): the only code the spec gives it is that of Table 9.6
(DEDUCED, log entry 170). -/
def hostCause : Nat := 8

/-! ### Fences and releases -/

/-- Whether the sequencer of a die runs (R178). -/
def colRuns (die : Nat) (s : State) : Bool := procUp (6 + die) s

/-- The compute die of a stall. -/
def stallDie (st : Nat) : Nat := if st < 64 then 0 else 1

/-- The unit channels of a compute die. -/
def unitChannels (die : Nat) : List Nat := (List.range 64).map fun i => 384 + die * 64 + i

/-- Unit channels of a die nobody holds, at rest (R249). -/
def freeChannels (die : Nat) (s : State) : List Nat := (unitChannels die).filter fun c =>
  let x := getChan c s
  x.owner == .none && x.cstate != .run && x.cstate != .wait && x.cstate != .stopping

/-- The position withdrawn as spare in a row (R174). -/
def spareOf (row : Nat) (s : State) : Nat := row * 8 + smGet (fun _ => 0) row s.comp.sparePos

/-- Whether a spare is withdrawn from every row: STALL_ROT_EN and its feature, with the compute dies powered (R174). -/
def rotOn (s : State) : Bool := getN O.STALL_ROT_EN s == 1 && featActive 15 s && getN O.PWR_STATE s == 0

/-- A stall whose clearing is over is IDLE; the position withdrawn as spare becomes SPARE (R171, R174). -/
def endClearing (st : Nat) (s : State) : State :=
  let x := getStall st s
  if x.sstate == .clearing && x.clearUntil ≤ s.time.clocks then
    setStall st { x with sstate := if rotOn s && st == spareOf (stallRow st) s then .spare else .idle } s
  else s

/-- The stalls being cleared. -/
def clearingStalls (s : State) : List Nat := (s.comp.stalls.filter fun p => p.2.sstate == .clearing).map (·.1)

/-- Release a stall from its placement: it is cleared, which takes a part of 2 us that the spec does not state (R171, log entry 151). -/
def releaseStall (tag : Nat) (s : State) : State :=
  let u := getUnit tag s
  let x := getStall u.stall s
  let s1 := if x.tag = tag then
      setStall u.stall { x with
        sstate := if x.sstate == .fenced then .fenced else .clearing
        vregs := [], masks := [], maskP := [], tiles := [], moveQueue := []
        clearUntil := s.time.clocks + 1 + freeAt 96 s % 2500
        tag := 0xFF, waiting := none, lastTenant := some x.tenant } (zeroDev (stallBase u.stall) 0x200000 s)
    else s
  setUnit tag { u with active := false, channels := [] } (u.channels.foldl (fun w c => freeChannel c (stopChannel c w)) s1)

/-- A unit ends with a cause (R172): its stall stops, its channels stop, and any cause but STOP is logged. -/
def endUnit (st cause : Nat) (s : State) : State :=
  let x := getStall st s
  let u := getUnit x.tag s
  let s1 := setStall st { x with
    sstate := if x.sstate == .fenced then .fenced else .idle
    lastCause := cause, waiting := none, moveQueue := [] } s
  let s2 := u.channels.foldl (fun w c => stopChannel c w) s1
  let s3 := setUnit x.tag { u with active := false } s2
  if cause = cStop then s3 else logEvent 0x5001 (st * 256 + cause) s3

/-- The code of a unit that ends with cause TRAP is recorded with it (Table 5.6, R267). -/
def noteTrap (st code : Nat) (s : State) : State := setStall st { getStall st s with trapCode := code } s

/-- The units of a placement that have not ended. -/
def liveUnits (p : Placement) (s : State) : List Nat := p.tags.filter fun t => (getUnit t s).active

/-- Abandon the migrations of a placement's units (R176, R177). -/
def abandonMigrations (p : Placement) (s : State) : State :=
  let gone := s.comp.migrations.filter fun m => p.tags.contains m.tag
  let s1 := { s with comp := { s.comp with migrations := s.comp.migrations.filter fun m => !(p.tags.contains m.tag) } }
  gone.foldl (fun u m => releaseFreq (stallRow m.a) (logEvent 0x5004 (m.a * 256 + m.b) u)) s1

/-- Drop the RTREEs of a placement. -/
def dropRtrees (n : Nat) (s : State) : State :=
  { s with comp := { s.comp with rtrees := s.comp.rtrees.filter fun q => q.placement != n } }

/-- Whether a placement, running or waiting, uses the image held in a crate. -/
def imageUsed (h : Nat) (s : State) : Bool :=
  (s.comp.placements.any fun p => p.2.prog.crate == h) || (s.comp.placeQueue.any fun q => q.prog.crate == h)

/-- Images that wait for their last placement and have none left go: unloaded ones are unregistered, and the crates of
both are released (R168, Table 5.13). -/
def imagesSettle (s : State) : State :=
  let gone := s.comp.programs.filter fun g => s.comp.unloading.contains g.progId && !imageUsed g.crate s
  let old := s.comp.oldImages.filter fun h => !imageUsed h s
  let s1 := { s with comp := { s.comp with
    programs := s.comp.programs.filter fun g => !(gone.contains g)
    unloading := s.comp.unloading.filter fun i => !(gone.any fun g => g.progId == i)
    oldImages := s.comp.oldImages.filter fun h => imageUsed h s } }
  (old ++ gone.map (·.crate)).foldl (fun u h => letGo h 0x4006 u) s1

/-- Release a placement: its stalls, its channels, its exchange, and its tally block when it is its own. -/
def releasePlacement (n : Nat) (s : State) : State :=
  match getPlacement n s with
  | none => s
  | some p =>
    let s1 := p.tags.foldl (fun u t => releaseStall t u) (dropRtrees n s)
    let s2 := { s1 with comp := { s1.comp with
      placements := s1.comp.placements.filter fun q => q.1 != n
      restartsDue := s1.comp.restartsDue.filter fun r => r.1 != n } }
    let s3 := setN O.PLACEMENTS s2.comp.placements.length s2
    imagesSettle (if p.ownsBlock then freeBlock p.tallyBase s3 else s3)

/-- Tell the owner that its placement has ended with a cause. -/
def notifyOwner (n cause : Nat) (o : PlaceOwner) (s : State) : State :=
  match o with
  | .host src => endJob src (if cause = cStop then 0 else 1) cause n 0 s
  | .coll g seq =>
    if cause = cStop then s
    else match (openColls g s).find? fun c => c.seq == seq with
      | some c => collEnd g seq c.epoch .failed ccDependent true s
      | none => s

/-- End every unit of a placement that has not ended. -/
def endUnits (p : Placement) (cause : Nat) (s : State) : State :=
  (liveUnits p s).foldl (fun u t => endUnit (getUnit t u).stall cause u) s

/-- A placement fails by one unit's cause (R172). -/
def placementFail (n cause : Nat) (s : State) : State :=
  match getPlacement n s with
  | none => s
  | some p =>
    let s1 := endUnits p cOwnerEnd (abandonMigrations p s)
    let s2 := errorRange p.tallyBase p.tallyCount tcFence s1
    notifyOwner n cause p.owner (releasePlacement n s2)

/-- The owner of a placement ended first (R172). -/
def placementOwnerEnd (n : Nat) (s : State) : State :=
  match getPlacement n s with
  | none => s
  | some p =>
    let s1 := errorRange p.tallyBase p.tallyCount tcOwner (abandonMigrations p s)
    let s2 := (liveUnits p s1).foldl (fun u t =>
      let st := (getUnit t u).stall
      endUnit st (if (getStall st u).waiting.isSome then cTallyError else cOwnerEnd) u) s1
    releasePlacement n s2

/-- Advance a tag's generation by one (R160). -/
def bumpGen (tag : Nat) (s : State) : State :=
  let u := getUnit tag s
  setUnit tag { u with gen := (u.gen + 1) % 256 } s

/-- Put a placement back into the queue after a fence (R173). -/
def placementRestart (n : Nat) (s : State) : State :=
  match getPlacement n s with
  | none => s
  | some p =>
    let s1 := p.tags.foldl (fun u t => bumpGen t u) (endUnits p cFenced (abandonMigrations p s))
    let s2 := (List.range (p.tallyCount - 4)).foldl (fun u i => setTally (p.tallyBase + 4 + i)
      { getTally (p.tallyBase + 4 + i) u with count := 0, tstate := 1, cause := 0 } u) s1
    let s3 := p.tags.foldl (fun u t => releaseStall t u) (dropRtrees n s2)
    let q : PlaceReq := { owner := p.owner, tenant := p.tenant, prog := p.prog, argBlock := p.argBlock, handles := p.handles,
                          restartOf := some n, tallyBase := some p.tallyBase, tallyCount := p.tallyCount }
    let s4 := { s3 with comp := { s3.comp with
      placements := s3.comp.placements.filter fun r => r.1 != n
      placeQueue := s3.comp.placeQueue ++ [q] } }
    logEvent 0x5003 n (addN O.RESTARTS 1 s4)

/-- Fence a stall (R534, R172). -/
def fenceStall (st : Nat) (s : State) : State :=
  let x := getStall st s
  if x.sstate == .fenced then s
  else logEvent 0x5002 st (addN O.STALLS_FENCED 1 (setStall st { x with sstate := .fenced } s))

/-- The die whose sequencer leads a placement: that of its lowest row (R169). -/
def leadDie (p : Placement) (s : State) : Nat :=
  if p.tags.any fun t => decide ((getUnit t s).stall < 64) then 0 else 1

/-- A fence takes its unit: the placement is restarted when RESTARTABLE, with new generations, once the sequencer of its die runs
(R178), and fails otherwise, when the fence advances the generation of its tag (R160, R172, R173). -/
def fenceRunning (st cause : Nat) (s : State) : State :=
  let x := getStall st s
  let s1 := endUnit st cause (fenceStall st s)
  match getPlacement x.placement s1 with
  | none => s1
  | some p =>
    if bitOf p.prog.hflags 3 then
      (if colRuns (leadDie p s1) s1 then placementRestart x.placement s1
       else { s1 with comp := { s1.comp with restartsDue := s1.comp.restartsDue ++ [(x.placement, leadDie p s1)] } })
    else placementFail x.placement cause (bumpGen x.tag s1)

/-- Restarts that waited for a sequencer start once it runs again (R178). -/
def restartsResume (s : State) : State :=
  (s.comp.restartsDue.filter fun r => colRuns r.2 s).foldl (fun u r => placementRestart r.1 u)
    { s with comp := { s.comp with restartsDue := s.comp.restartsDue.filter fun r => !colRuns r.2 s } }

/-- A unit ends with a cause and the placement takes its effect (Table 5.11). -/
def unitEnds (st cause : Nat) (s : State) : State :=
  let x := getStall st s
  let n := x.placement
  if cause = cStop then
    let s1 := endUnit st cause s
    match getPlacement n s1 with
    | none => s1
    | some p =>
      if (liveUnits p s1).isEmpty then notifyOwner n cStop p.owner (releasePlacement n s1)
      else setPlacement n { p with stopped := p.stopped ++ [x.tag] } s1
  else if cause = cWatchdog ∨ cause = cStoreEcc ∨ cause = cFenced then fenceRunning st cause s
  else placementFail n cause (endUnit st cause s)

/-! ### Starting a placement (R169, R170, R249) -/

/-- Whether a stall may be given to a tenant. -/
def stallAvailable (tenant st : Nat) (s : State) : Bool :=
  let x := getStall st s
  x.sstate == .idle && x.tag == 0xFF && bitOf (getN (O.TENANT_ROWS + tenant) s) (stallRow st) && colRuns (stallDie st) s

/-- The stalls a placement is offered, in order, each with its channels. -/
def offeredStalls (tenant ports : Nat) (s : State) : List (Nat × List Nat) :=
  ((List.range 128).foldl (fun (a : List (Nat × List Nat) × List Nat × List Nat) st =>
    if !stallAvailable tenant st s then a
    else
      let free := if stallDie st = 0 then a.2.1 else a.2.2
      if free.length < ports then a
      else
        let mine := free.take ports
        let rest := free.drop ports
        (a.1 ++ [(st, mine)], if stallDie st = 0 then (rest, a.2.2) else (a.2.1, rest)))
    ([], freeChannels 0 s, freeChannels 1 s)).1

/-- The lowest free exchange place of a size in a row (log entry 39). -/
def rowxPlace (row size : Nat) (s : State) : Option Nat :=
  let used := s.comp.placements.flatMap fun p => p.2.rowx.filter fun r => r.1 == row
  ((List.range 64).map fun i => row * 0x400000 + i * 0x10000).find? fun b =>
    decide (b + size ≤ (row + 1) * 0x400000) && used.all fun r => decide (r.2.2 ≤ b) || decide (b + size ≤ r.2.1)

/-- The exchange allocations of a placement, or nothing when a row has no room. -/
def rowxAlloc (size : Nat) (s : State) : List Nat → Option (List (Nat × Nat × Nat))
  | [] => some []
  | r :: rs =>
    if size = 0 then some []
    else match rowxPlace r size s, rowxAlloc size s rs with
      | some b, some l => some ((r, b, b + size) :: l)
      | _, _ => none

/-- Tags no unit holds. -/
def freeTags (s : State) : List Nat := (List.range 128).filter fun t =>
  !(getUnit t s).active && !(s.comp.placements.any fun p => p.2.tags.contains t)

/-- The tally block of a request: the one it names, or a new one (R163, R165). -/
def reqBlock (q : PlaceReq) (die : Nat) (s : State) : Option (Nat × Bool) × State :=
  match q.tallyBase with
  | some b => (some (b, q.restartOf.isSome && (match q.owner with
      | .host _ => (s.comp.blocks.any fun k => k.base == b && (match k.owner with | .placement _ => true | _ => false))
      | .coll _ _ => false)), s)
  | none =>
    let owner : BlockOwner := match q.owner with
      | .coll g seq => .coll g seq
      | .host _ => .placement (s.comp.nextPlacement % 65536)
    match allocBlock q.tallyCount q.tenant die 0 owner s with
    | (some b, t) => (some (b, match q.owner with | .coll _ _ => false | .host _ => true), t)
    | (none, t) => (none, t)

/-- Start one unit (R170); the histogram slots of its tag are cleared (R196). -/
def startUnit (n unit st tag rowMem : Nat) (chans : List Nat) (q : PlaceReq) (s : State) : State :=
  let u := getUnit tag s
  let gen := (u.gen + 1) % 256
  let old := getStall st s
  let fresh := match old.lastTenant with | some t => t != q.tenant | none => false
  let s0 := if fresh then zeroDev (stallBase st) 0x200000 s else s
  let x : Stall := { old with
    sstate := .running, placement := n, unit := unit, tag := tag, tenant := q.tenant, sregs := [], pc := q.prog.entry,
    rmode := 0, fflags := 0, moved := 0, istore := q.prog.code, waiting := none, jf8eSeen := false, exp := {}, moveQueue := [],
    eccSeen := [],
    vregs := if fresh then [] else old.vregs, tiles := if fresh then [] else old.tiles,
    masks := if fresh then [] else old.masks, maskP := if fresh then [] else old.maskP }
  let s1 := (List.range 4).foldl (fun v k => histClear tag k v) (setStall st x s0)
  let s2 := setUnit tag { u with active := true, stall := st, gen := gen, placement := n, unit := unit, rowMem := rowMem, channels := chans } s1
  let s3 := writeDev (stallBase st + 0x1FFF00) q.argBlock (writeDev (stallBase st) q.prog.consts s2)
  let rate := getN (O.PORTER_UNIT_RATE + q.tenant) s
  chans.foldl (fun w c =>
    let cfg := inst128 O.PORTER_CH_CFG c
    setN cfg (getN cfg w / 128 * 128 + rate)
      (setChan c { getChan c w with owner := .unit, tag := tag, gen := gen, tenant := q.tenant, cstate := .idle } w)) s3

/-- Try to start the placement a request asks for: its number, or nothing while stalls, tallies or exchange lack. -/
def tryPlace (q : PlaceReq) (s : State) : Option Nat × State :=
  let offered := offeredStalls q.tenant q.prog.porters s
  let given := offered.take q.prog.unitsMax
  let rows := (given.map fun e => stallRow e.1).eraseDups
  let size := (q.prog.rowxKib * 1024 + 65535) / 65536 * 65536
  if given.length < q.prog.unitsMin ∨ (freeTags s).length < given.length then (none, s)
  else match rowxAlloc size s rows with
    | none => (none, s)
    | some rowx =>
      let die := match given with | e :: _ => stallDie e.1 | [] => 0
      match reqBlock q die s with
      | (none, t) => (none, t)
      | (some (base, own), t) =>
        let n := match q.restartOf with | some k => k | none => t.comp.nextPlacement % 65536
        let tags := (freeTags t).take given.length
        let rowMem (i : Nat) : Nat := match given[i]? with
          | some e => ((given.filter fun f => stallRow f.1 == stallRow e.1).findIdx? fun f => f.1 == e.1).getD 0
          | none => 0
        let p : Placement := { owner := q.owner, tenant := q.tenant, prog := q.prog, tags := tags, tallyBase := base,
                               tallyCount := blockTallies base q.tallyCount t, ownsBlock := own, rowx := rowx, argBlock := q.argBlock,
                               handles := q.handles, stopped := [] }
        let t1 := { t with comp := { t.comp with
          placements := t.comp.placements ++ [(n, p)]
          nextPlacement := if q.restartOf.isSome then t.comp.nextPlacement else t.comp.nextPlacement + 1 } }
        let t2 := setN O.PLACEMENTS t1.comp.placements.length t1
        let t3 := (List.range given.length).foldl (fun u i => match given[i]?, tags[i]? with
          | some e, some tag => startUnit n i e.1 tag (rowMem i) e.2 q u
          | _, _ => u) t2
        (some n, t3)

/-- Whether the sequencers may start placements: the compute dies run and the gateway is in READY or SERVICE. -/
def mayPlace (s : State) : Bool := s.devState == .ready || s.devState == .service

/-- The sequencer takes the request at the head of its queue, if it can be placed (R169). -/
def placeHead (s : State) : State :=
  match s.comp.placeQueue with
  | [] => s
  | q :: rest =>
    if !mayPlace s then s
    else match tryPlace q s with
      | (none, t) => t
      | (some n, t) =>
        let t1 := { t with comp := { t.comp with placeQueue := rest } }
        match q.owner with
        | .coll g seq => { t1 with coll := { t1.coll with colls := t1.coll.colls.map fun c =>
            if c.group == g && c.seq == seq && !c.isFinal
            then { c with placement := some n, tallyBase := (getPlacement n t1).map (·.tallyBase) } else c } }
        | .host _ => t1

/-! ### The consequences of collectives that ended (R164, R172) -/

/-- The blocks a collective owns go back. -/
def freeCollBlocks (g seq : Nat) (s : State) : State :=
  (s.comp.blocks.filter fun b => b.owner == .coll g seq).foldl (fun u b => freeBlock b.base u) s

/-- End the placement of a collective that has become final, forget its request and return its tallies. -/
def settleEnded (e : Nat × Nat × Nat) (s : State) : State :=
  let s1 := { s with comp := { s.comp with placeQueue := s.comp.placeQueue.filter fun q => q.owner != .coll e.1 e.2.1 } }
  let s2 := match findColl e.1 e.2.1 e.2.2 s1 with
    | some c => (match c.placement with
      | some n => (match getPlacement n s1 with
        | some p => if p.owner == .coll e.1 e.2.1 then placementOwnerEnd n s1 else s1
        | none => s1)
      | none => s1)
    | none => s1
  trimColls e.1 (freeCollBlocks e.1 e.2.1 s2)

/-! ### Running one stall instruction -/

/-- Whether a queued movement instruction keeps the ones after it from issuing: a wait, an end of the unit, or a result for a scalar
register (R157). -/
def MoveInstr.holdsIssue : MoveInstr → Bool
  | .wait _ | .stop _ | .trap _ => true
  | .add o => o.sd.val != 0
  | _ => false

/-- Whether a stall issues instructions: its unit runs and waits for nothing. -/
def stallIssues (st : Nat) (s : State) : Bool :=
  let x := getStall st s
  x.sstate == .running && x.waiting.isNone && x.moveQueue.all fun m => !m.op.holdsIssue

/-- Every other member of RTREEs that disagree, the units of the placement and row whose row member numbers are set in `mask`,
stops with RTREE_MISMATCH (R149). -/
def endMismatch (st mask : Nat) (s : State) : State :=
  match getPlacement (getStall st s).placement s with
  | none => s
  | some p =>
    ((liveUnits p s).filter fun t =>
      let u := getUnit t s
      u.stall != st && stallRow u.stall == stallRow st && bitOf mask u.rowMem).foldl
        (fun v t => endUnit (getUnit t v).stall cRtreeMismatch v) (abandonMigrations p s)

/-- Take the outcome of an instruction: the next state, or the end of the unit (R172); an operation on a FREE tally is
counted (R159), and a crate stream that names no crate it may read (R222). -/
def stallTake (st : Nat) (o : StallOut) (s : State) : State :=
  match o with
  | .ok t => t
  | .error (cause, code) =>
    if cause = cRtreeMismatch then unitEnds st cause (endMismatch st code s)
    else if cause = cTallyRange ∧ code = 1 then unitEnds st cause (tallyFreeOp s)
    else if cause = cStoreRange ∧ code ≠ 0 then unitEnds st cause (badCrateOp (code - 1) (freeAt 88 s % 65536) (freeNext s))
    else unitEnds st cause (if cause = cTrap then noteTrap st code s else s)

end Sys2Proof.Machine
end

