-- ==== Sys2Proof/Machine/Shard.lean ====
section
/-! DEFINITION. The shard table (R118 to R120), the page table of the optimizer shard region (R120, R133), and the residual of SYNC mode
(R20, R117). -/

namespace Sys2Proof.Machine

/-! ### The shard table (Table 4.1) -/

/-- One entry of OS_TABLE. -/
structure OsEntry where
  rows : Nat
  cols : Nat
  rank : Nat
  coding : Nat
  offset : Nat
  deriving DecidableEq, Repr

/-- Little-endian field of bytes. -/
def leAt (bs : List Byte) (o n : Nat) : Nat := natOfLE ((bs.drop o).take n)

/-- The entries of an OS_TABLE. -/
def osEntriesOf (bs : List Byte) : List OsEntry :=
  (List.range (leAt bs 0 4)).map fun t =>
    let e := (bs.drop (16 + 32 * t)).take 32
    ⟨leAt e 4 4, leAt e 8 4, leAt e 12 2, leAt e 14 1, leAt e 16 8⟩

/-- The applied entries. -/
def osEntries (s : State) : List OsEntry := osEntriesOf (getB O.OS_TABLE s)

/-- Parameters of an entry. -/
def OsEntry.size (e : OsEntry) : Nat := e.rows * e.cols

/-- Whether an entry is coded LR. -/
def OsEntry.lr (e : OsEntry) : Bool := e.coding == 2

/-- Pages of an entry. -/
def OsEntry.pages (e : OsEntry) : Nat := (e.size + 262143) / 262144

/-- Bytes of an entry in a record slot. -/
def OsEntry.recBytes (e : OsEntry) : Nat := if e.lr then (e.rows + e.cols) * e.rank * 4 else e.size * 4

/-- OS_NEED_BYTES of a table (R120). -/
def osNeed (es : List OsEntry) : Nat :=
  es.foldl (fun a e => a + e.pages * (if e.lr then 3 else 2) * mib + 2 * e.recBytes) 0 + 256 * mib

/-- The pages of the shard: entry number and first parameter within the entry. -/
def osPages (es : List OsEntry) : List (Nat × Nat) :=
  es.zipIdx.flatMap fun e => (List.range e.1.pages).map fun p => (e.2, p * 262144)

/-- Where an entry begins in a record slot. -/
def recOffset (es : List OsEntry) (t : Nat) : Nat := (es.take t).foldl (fun a e => a + e.recBytes) 0

/-- Change the outer step. -/
def modOs (f : OuterStep → OuterStep) (s : State) : State := { s with os := f s.os }

/-- The step group. -/
def osGroup (s : State) : Nat := getN O.OS_GROUP s

/-- The parameters of the shard. -/
def osParams (s : State) : Nat := (osEntries s).foldl (fun a e => a + e.size) 0

/-- The pages of an entry. -/
def pagesOf (t : Nat) (s : State) : List Nat :=
  ((osPages (osEntries s)).zipIdx.filter fun p => p.1.1 == t).map (·.2)

/-! ### The page table (R120, R133) -/

/-- Pages of the reserve: 256 MiB of pairs of 1 MiB each (Table 4.3). -/
def reservePairs : Nat := 128

/-- The page table of a region: each page in the pair of its number, updated by step `step`; the pairs behind them are the reserve. -/
def freshPages (step : Nat) (s : State) : State :=
  let n := (osPages (osEntries s)).length
  modOs (fun o => { o with
    pageTable := (List.range n).map fun p => ⟨p, step⟩
    freePairs := (List.range reservePairs).map (n + ·) }) s

/-- The entry of a page. -/
def pageEntry (p : Nat) (s : State) : Option PageEntry := s.os.pageTable[p]?

/-- Whether a page is pending: its entry names a step before the committed one (R133). -/
def isPending (p : Nat) (s : State) : Bool :=
  match pageEntry p s with | some e => decide (e.step < getN O.OS_COMMITTED_STEP s) | none => false

/-- The pending pages, in page order. -/
def pendingPages (s : State) : List Nat := (List.range s.os.pageTable.length).filter fun p => isPending p s

/-- OS_SWEEP_PENDING counts the pending pages (R133). -/
def countPending (s : State) : State := setN O.OS_SWEEP_PENDING (pendingPages s).length s

/-- Switch a page's entry to another pair, updated by the committed step; the pair it had is free again (R133). -/
def switchPage (p : Nat) (s : State) : State :=
  match pageEntry p s with
  | none => s
  | some e =>
    let c := getN O.OS_COMMITTED_STEP s
    let (f, free) := match s.os.freePairs with | f :: r => (f, r ++ [e.pair]) | [] => (e.pair, [])
    countPending (modOs (fun o => { o with pageTable := o.pageTable.set p ⟨f, c⟩, freePairs := free }) s)

/-- The step that last updated every page is the committed one: nothing is pending. -/
def allCurrent (s : State) : State :=
  let c := getN O.OS_COMMITTED_STEP s
  countPending (modOs (fun o => { o with pageTable := o.pageTable.map fun e => { e with step := c } }) s)

/-- Whether a page cannot be read until it has been refilled: it is damaged, or it is pending and the record is (R141). -/
def pageHeld (p : Nat) (s : State) : Bool := s.os.damaged.contains p || (isPending p s && !s.os.recDamaged.isEmpty)

/-- Whether a page of an entry is held. -/
def entryHeld (t : Nat) (s : State) : Bool := (pagesOf t s).any fun p => pageHeld p s

/-! ### The residual of SYNC mode (R20, R117) -/

/-- The residual bank in use and the other one. -/
def OuterStep.cur (o : OuterStep) : SMap Byte := if o.bank = 0 then o.resA else o.resB

/-- Whether a collective reads and rewrites the residual of the tensors it covers: CODING LR without STEP, in mode SYNC (R117). -/
def syncResidual (c : Coll) (s : State) : Bool := getN O.OS_MODE s == 2 && c.posting.coding == 2 && !bitOf c.posting.pflags 0

/-- The residual after an inner step (R20, R117): of each LR tensor the collective covers it is rewritten. Which tensors a posting
covers, and the arithmetic of an inner step, the sources do not state: both are free values (90, 91; log entry 145). -/
def rewriteResidual (s : State) : State :=
  let fresh (m : SMap Byte) : SMap Byte := (osEntries s).zipIdx.foldl (fun a et =>
    if et.1.lr && Config.freeValue 90 (s.freeCtr * 4096 + et.2) % 2 == 1 then
      smPutRun memDefault (2 * et.1.offset) ((List.range (2 * et.1.size)).map fun i =>
        BitVec.ofNat 8 (Config.freeValue 91 (s.freeCtr * 2 ^ 48 + 2 * et.1.offset + i))) a
    else a) m
  freeNext (modOs (fun o => if o.bank = 0 then { o with resA := fresh o.resA } else { o with resB := fresh o.resB }) s)

end Sys2Proof.Machine
end

