-- ==== Sys2Proof/Machine/CollPost.lean ====
section
/-! DEFINITION. Posting and cancelling collectives (R84 to R89), activating them (R106, R170), and the work of the vendor
library programs, which R93 to R95 state by its result (log entry 40). -/

namespace Sys2Proof.Machine

/-! ### Rings and tenants -/

/-- A ring after reset. -/
def Ring.new0 : Ring := {}

/-- The key of a ring. -/
def ringKey (fn ring : Nat) : Nat := fn * 32 + ring

/-- A ring. -/
def getRing (k : Nat) (s : State) : Ring := smGet (fun _ => Ring.new0) k s.host.rings

/-- Store a ring. -/
def setRing (k : Nat) (r : Ring) (s : State) : State :=
  { s with host := { s.host with rings := smPut (fun _ => Ring.new0) k r s.host.rings } }

/-- The entries of a ring. -/
def Ring.size (r : Ring) : Nat := 2 ^ field r.ctrl 8 4

/-- Whether a ring is enabled. -/
def Ring.on (r : Ring) : Bool := bitOf r.ctrl 0

/-- Whether the completion ring has a free entry. -/
def Ring.hasRoom (r : Ring) : Bool := (r.compTail + 1) % r.size != r.compHead

/-- Whether the entry at the head of a ring is this one and may be consumed: the ring is enabled, of the kind, and has
submitted entries and a free completion entry (R467); while the compute dies return, postings and placements are held (R476).
The sequencers' own postings have no ring. -/
def mayConsume (kind : Nat) (src : JobSrc) (s : State) : Bool :=
  let r := getRing (ringKey src.fn src.ring) s
  src.fn == fnSequencer
    || (!(s.dev.returning.isSome && (kind == 0 || kind == 4)) && r.on && field r.ctrl 3 1 == kind && src.entry == r.subHead && r.subHead != r.subTail && r.hasRoom)

/-- An entry has been consumed: the status byte is written, then SUB_HEAD advances (R467). -/
def entryTaken (src : JobSrc) (st : Nat) (s : State) : State :=
  if src.fn = fnSequencer then s
  else
    let k := ringKey src.fn src.ring
    let r := getRing k s
    emit (.hostWrite src.fn (r.statusBase + src.entry) [BitVec.ofNat 8 st])
      (setRing k { r with subHead := (src.entry + 1) % r.size } s)

/-- The PF's function number. -/
def fnPf : Nat := 0xFF

/-- The tenant a virtual function acts for (R464). -/
def vfTenantOf (v : Nat) (s : State) : Option Nat := smGet (fun _ => (none : Option Nat)) v s.host.vfTenant

/-- The tenant a posting acts for (R464). -/
def srcTenant (src : JobSrc) (s : State) : Nat :=
  if src.fn = fnPf then field (getRing (ringKey src.fn src.ring) s).ctrl 15 10
  else (vfTenantOf src.fn s).getD 0

/-- Whether a posting comes from a virtual function. -/
def fromVf (src : JobSrc) : Bool := src.fn < 64

/-! ### Programs -/

/-- A vendor library program (R168). -/
def isVendor (id : Nat) : Bool := 1 ≤ id && id < 0x10000

/-- The image that stands for a vendor library program: RESTARTABLE (R173), one unit, the engine's four tallies; the
spec does not give the library's headers (log entry 40). -/
def vendorProgram (id : Nat) : Program :=
  { hflags := 8, progId := id, storeBytes := 0, unitsMin := 1, unitsMax := 1, tallies := 4, rowxKib := 0, porters := 0,
    entry := 0, tenantMask := 2 ^ 64 - 1, codeCrc := 0, code := [], consts := [], crate := 0 }

/-- The image of a program identifier. -/
def findProgram (id : Nat) (s : State) : Option Program :=
  match s.comp.programs.find? fun p => p.progId == id with
  | some p => some p
  | none => if isVendor id then some (vendorProgram id) else none

/-! ### Commit group 0x40, armed (R83, Table 2.8) -/

/-- The shadow value of an object of a group. -/
def shadowN (id key : Nat) (s : State) : Nat :=
  match (smGet (fun _ => ({} : CommitGroup)) id s.dict.groups).shadow.find? fun p => p.1 == key with
  | some (_, v) => v.toNat
  | none => getN key s

/-- The action armed for a group, if one is. -/
def armedAction (g : Nat) (s : State) : Option Nat :=
  if (smGet (fun _ => ({} : CommitGroup)) 0x40 s.dict.groups).cgState = 2 ∧ shadowN 0x40 O.GD_TARGET s = g
  then some (shadowN 0x40 O.GD_ACTION s) else none

/-! ### Posting (R84 to R89, Table 3.11) -/

def stOk : Nat := 1
def stSeqOrder : Nat := 2
def stFull : Nat := 3
def stDenied : Nat := 4
def stClosing : Nat := 5
def stBadParam : Nat := 6
def stTooLate : Nat := 7
def stNoGroup : Nat := 8

/-- Whether the gateway takes no work from the host: LINE_HOLD (R476) and P2 (R507). -/
def takesNoWork (s : State) : Bool := s.devState == .lineHold || getN O.PWR_STATE s == 2

/-- The elements XC codes. -/
def xcElem (e : Nat) : Bool := e ≤ 2

/-- Whether the TALLY_BASE of a posting is acceptable (R165). -/
def tallyBaseOk (base tenant need : Nat) (s : State) : Bool :=
  base == 0xFFFFFFFF || s.comp.blocks.any fun b => b.base == base && b.tenant == tenant && decide (need ≤ b.size)

/-- The cases of BAD_PARAM (R84, R92, R165, R230, R238, R489, Table 3.11). -/
def badParam (op : Nat) (p : Posting) (src : JobSrc) (s : State) : Bool :=
  let x := getGroup p.group s
  let tenant := if src.fn = fnSequencer then x.tenant else srcTenant src s
  let inOk := match readList p.inList s with | some l => decide (l.total = p.length) && l.entries.all (·.1 != 0) | none => false
  let reach (a : Nat) : Bool := src.fn == fnSequencer || tenantReach x.tenant a s
  let prog := findProgram p.program s
  !(decide (1 ≤ p.length) && decide (p.length ≤ 2 ^ 40))
    || (bitOf p.pflags 1 && bitOf p.pflags 2)
    || !(p.redop == 1 || p.redop == 2) || decide (9 < p.elem) || decide (2 < p.coding)
    || decide (16777216 < chunkCount x p.length)
    || !inOk || (readList p.outList s).isNone || !reach p.inList || !reach p.outList
    || !(refusedEntries p.inList x.tenant s).isEmpty || !(refusedEntries p.outList x.tenant s).isEmpty
    || (op == 3 && p.seq == 0xFFFFFFFF)
    || (p.coding == 1 && (!xcElem p.elem || p.length % elemBytes p.elem != 0))
    || (p.coding == 1 && !featActive 3 s) || (p.coding == 2 && !featActive 4 s) || (bitOf p.pflags 3 && !featActive 16 s)
    || (match prog with
        | none => true
        | some g => decide (g.tallies < 4) || !tallyBaseOk p.tallyBase tenant g.tallies s || (!isVendor g.progId && !featActive 11 s))

/-- Whether a sequence may not be posted again: it ended CONFIRMED since the group was opened, or a collective of an earlier epoch holds
it that is not resolved yet (R86). -/
def seqTaken (g seq : Nat) (s : State) : Bool :=
  (getGroup g s).confirmedSeqs.contains seq || (openColls g s).any fun c => c.seq == seq

/-- Make the record of one posted collective (R90, R92). -/
def newColl (xc : List (Nat × Nat)) (p : Posting) (op seq : Nat) (ar : Bool) (src : JobSrc) (s : State) : Coll :=
  let x := getGroup p.group s
  let k := chunkCount x p.length
  let ring := if bitOf p.pflags 1 then true else if bitOf p.pflags 2 then false else decide (x.crossover ≤ p.length)
  { group := p.group, seq := seq, epoch := x.epoch, op := op, allReduce := ar, posting := { p with seq := seq }, src := src,
    ring := ring, k := k, lc := chunkLenOf k p.length, codeKey := s.freeCtr,
    xcRanges := xc }

/-- Post a collective (op 1, 2 or 3) of which some ranges travel as XC blocks: its status and the state. -/
def postCollWith (xc : List (Nat × Nat)) (op : Nat) (p : Posting) (src : JobSrc) (s : State) : Nat × State :=
  let x := getGroup p.group s
  let tenant := if src.fn = fnSequencer then x.tenant else srcTenant src s
  let n := if op = 3 then 2 else 1
  if takesNoWork s then (stDenied, s)
  else if !x.isOpen || relayOnly p.group s || decide (1024 ≤ p.group) then (stNoGroup, s)
  else if fromVf src && x.tenant != tenant then (stDenied, s)
  else if armedAction p.group s = some 3 then (stClosing, s)
  else if badParam op p src s then
    let source := if src.fn = fnSequencer then 0x3001 else 0x2000 + src.fn
    (stBadParam, refuseEntries p.outList x.tenant source (refuseEntries p.inList x.tenant source s))
  else if !(match findProgram p.program s with | some g => bitOf g.tenantMask x.tenant | none => false) then (stDenied, s)
  else if 16 < (openColls p.group s).length + n ∨ 4096 < collOpenCount s + n then (stFull, s)
  else if (match x.maxSeq with | some m => decide (p.seq ≤ m) | none => false)
      || (List.range n).any (fun i => seqTaken p.group (p.seq + i) s) then (stSeqOrder, s)
  else
    let cs := if op = 3 then [newColl xc p 1 p.seq true src s, newColl xc p 2 (p.seq + 1) true src s]
      else [newColl xc p op p.seq false src s]
    let last := p.seq + n - 1
    let s1 := modGroup p.group (fun y => { y with maxSeq := some last }) (freeNext s)
    let s2 := { s1 with coll := { s1.coll with
      colls := (s1.coll.colls.filter fun c => !(c.isFinal && cs.any fun d => c.same d.group d.seq d.epoch)) ++ cs } }
    (stOk, cs.foldl (fun u c => takeHeld c.group c.seq c.epoch u) s2)

/-- Post a collective as its record has it: with CODING XC all of it travels as XC blocks. -/
def postColl (op : Nat) (p : Posting) (src : JobSrc) (s : State) : Nat × State :=
  postCollWith (if p.coding = 1 then [(0, p.length)] else []) op p src s

/-- Post a cancel (R84, Table 3.4): its status and the state. A cancel is carried out also while a CLOSE is armed for the group: R83
refuses posting, and to end a collective is none (DESIGN CHOICE, log entry 143). -/
def postCancel (p : Posting) (src : JobSrc) (s : State) : Nat × State :=
  let x := getGroup p.group s
  if takesNoWork s then (stDenied, s)
  else if !x.isOpen || relayOnly p.group s then (stNoGroup, s)
  else if fromVf src && x.tenant != srcTenant src s then (stDenied, s)
  else if (match x.maxSeq with | some m => decide (m < p.seq) | none => true) then (stBadParam, s)
  else match findColl p.group p.seq x.epoch s with
    | some c =>
      if c.cstate == .posted || c.cstate == .active then
        let s1 := sendEach (x.others (selfSite s)) (fun d => .cancel (ctlTo p.group d p.seq s)) s
        (stOk, collEnd p.group p.seq x.epoch .cancelled ccRequested false s1)
      else (stTooLate, s)
    | none => (stTooLate, s)

/-! ### Activation (R106, R170) -/

/-- The posting record's bytes (Table 3.2). -/
def postingBytes (op : Nat) (p : Posting) : List Byte :=
  bytesLE 2 p.group ++ bytesLE 1 op ++ bytesLE 1 p.pflags ++ bytesLE 4 p.seq ++ bytesLE 8 p.length ++ bytesLE 8 p.inList
    ++ bytesLE 8 p.outList ++ bytesLE 4 p.program ++ bytesLE 1 p.redop ++ bytesLE 1 p.elem ++ bytesLE 1 p.coding ++ [0#8]
    ++ bytesLE 4 p.tallyBase ++ List.replicate 20 0#8

/-- The argument block of a collective (Table 5.10). -/
def collArgBlock (c : Coll) (s : State) : List Byte :=
  let x := getGroup c.group s
  postingBytes (if c.allReduce then 3 else c.op) c.posting ++ bytesLE 8 c.k ++ bytesLE 8 c.lc ++ bytesLE 1 x.n
    ++ bytesLE 1 (x.posOf (selfSite s)) ++ bytesLE 1 x.dirs ++ bytesLE 1 (ofBool c.ring) ++ bytesLE 2 x.epoch
    ++ List.replicate 170 0#8

/-- The request that places a collective's program. -/
def collRequest (c : Coll) (g : Program) (s : State) : PlaceReq :=
  { owner := .coll c.group c.seq, tenant := (getGroup c.group s).tenant, prog := g, argBlock := collArgBlock c s,
    handles := postingHandles c.posting s, restartOf := none,
    tallyBase := if c.posting.tallyBase = 0xFFFFFFFF then none else some c.posting.tallyBase, tallyCount := g.tallies }

/-- Place the programs at the head of the queue until one cannot be placed. -/
def placeAll : Nat → State → State
  | 0, s => s
  | fuel + 1, s =>
    let t := placeHead s
    if t.comp.placeQueue.length < s.comp.placeQueue.length then placeAll fuel t else t

/-- Activate a POSTED collective: the group OPEN and every member present, no change armed for the group, its program
placed and its tallies allocated. In mode SYNC the coding of its input with LR rewrites the residual (R117). -/
def activateColl (g seq : Nat) (s : State) : State :=
  let x := getGroup g s
  match findColl g seq x.epoch s with
  | none => s
  | some c =>
    if c.cstate != .posted || x.gstate != 2 || !x.allPresent || (armedAction g s).isSome then s
    else
      let s1 := match c.placement with
        | some _ => s
        | none =>
          if s.comp.placeQueue.any fun q => q.owner == .coll g seq then placeAll (s.comp.placeQueue.length + 1) s
          else match findProgram c.posting.program s with
            | none => s
            | some p => placeAll (s.comp.placeQueue.length + 2)
                { s with comp := { s.comp with placeQueue := s.comp.placeQueue ++ [collRequest c p s] } }
      match findColl g seq x.epoch s1 with
      | some d =>
        if d.placement.isSome then
          let t := modColl g seq x.epoch (fun e => { e with cstate := .active }) s1
          if syncResidual d t && !(d.op == 2 && d.allReduce) then rewriteResidual t else t
        else s1
      | none => s1

/-! ### The vendor library programs (R85, R93 to R95) -/

/-- Decode the XC blocks of `n` elements from offset `off` of a stream: the elements and the bytes behind them, or the cause and offset of
the first damaged block (Table 7.4). -/
def decodeElems (tables : List (List Byte)) (fmt : Nat) : Nat → Nat → Nat → List (Byte × Bool) → Except (Nat × Nat) (List XcElem × List (Byte × Bool))
  | 0, _, off, _ => .error (8, off)
  | fuel + 1, n, off, bs =>
    if n = 0 then .ok ([], bs)
    else match xcDecodeBlock tables fmt bs with
      | .ok es len =>
        if n < es.length ∨ es.isEmpty then .error (8, off)
        else (decodeElems tables fmt fuel (n - es.length) (off + len) (bs.drop len)).map fun r => (es ++ r.1, r.2)
      | .bad cause _ _ => .error (cause, off)

/-- The bytes of elements, each with the poison of its element. -/
def elemBytesP (fmt : Nat) (es : List XcElem) : List (Byte × Bool) :=
  es.flatMap fun e => (bytesLE (elemBytes fmt) e.code).map fun b => (b, e.poison)

/-- Decode coded bytes part by part; what is left over makes them damaged. -/
def decodeParts (tables : List (List Byte)) (fmt : Nat) : List (Bool × Nat) → Nat → List (Byte × Bool) → Except (Nat × Nat) (List (Byte × Bool))
  | [], off, bs => if bs.isEmpty then .ok [] else .error (8, off)
  | (false, n) :: ps, off, bs =>
    if bs.length < n then .error (8, off) else (decodeParts tables fmt ps (off + n) (bs.drop n)).map (bs.take n ++ ·)
  | (true, n) :: ps, off, bs =>
    match decodeElems tables fmt (bs.length + 1) (n / elemBytes fmt) off bs with
    | .ok (es, rest) => (decodeParts tables fmt ps (off + (bs.length - rest.length)) rest).map (elemBytesP fmt es ++ ·)
    | .error e => .error e

/-- The uncoded bytes of a chunk's coded ones, with their poison. -/
def uncode (c : Coll) (k : Nat) (bs : List (Byte × Bool)) (s : State) : Except (Nat × Nat) (List (Byte × Bool)) :=
  if c.xcRanges.isEmpty then .ok bs
  else decodeParts (xcTables s) c.posting.elem (splitParts c.xcRanges (c.range k).1 (c.range k).2) 0 bs

/-- Add element lists in FP32, in the order given. -/
def sumCodes (fmt : Nat) : List (List Nat) → List Nat
  | [] => []
  | a :: rest =>
    let wide (cs : List Nat) : List Nat := cs.map fun v => (encodeElem 0 .tiesToEven (decodeElem fmt v)).1
    rest.foldl (fun acc b => List.zipWith (fun u v => (addCodes 0 .tiesToEven u v).1) acc (wide b)) (wide a)

/-- Reduce contributions: accumulated in FP32, divided by N at the owner for MEAN, rounded once to the line format (R95).
Bytes of a block format are left free (log entry 40). -/
def reduceBytes (c : Coll) (k n : Nat) (parts : List (List Byte)) (final : Bool) : List Byte :=
  if elemBytes c.posting.elem = 0 then
    (List.range ((parts.headD []).length)).map fun i =>
      BitVec.ofNat 8 (Config.freeValue 42 (c.codeKey * 2 ^ 48 + (c.range k).1 + i))
  else
    let e := c.posting.elem
    let acc := sumCodes e (parts.map (codesOf e))
    let div (v : Nat) : Nat := (vecElem .div 0 .tiesToEven v (encodeElem 0 .tiesToEven (.fin false n 0)).1 0 0).1
    let m := if final && c.posting.redop == 2 then acc.map div else acc
    bytesOfCodes e (m.map fun v => (encodeElem e .tiesToEven (decodeElem 0 v)).1)

/-- The bytes of an item as its transit crates hold them, in order, with their poison (R237). -/
def Item.bytes (it : Item) (s : State) : List (Byte × Bool) :=
  ((it.pieces.filter fun p => !p.dnt).mergeSort fun a b => a.offset ≤ b.offset).flatMap fun p => match p.handles with
    | [h] => readCrate h 0 p.data.length s
    | _ => clean p.data

/-- All values of a list of results, or the first error. -/
def allOf {ε α : Type} : List (Except ε α) → Except ε (List α)
  | [] => .ok []
  | .ok a :: r => (allOf r).map (a :: ·)
  | .error e :: _ => .error e

/-- Write a chunk's uncoded bytes into the output, whose empty entries get crates first: whether there was one for each. -/
def writeOut (c : Coll) (k : Nat) (bs : List Byte) (s : State) : Bool × State :=
  match c.outList (c.range k).1 bs.length s with
  | (some l, t) => (true, writeListBytes l.entries (c.range k).1 (clean bs) t)
  | (none, t) => (false, t)

/-- The bytes of a chunk of the input, with their poison. The factors that an inner step of SYNC mode makes of the gradient and the residual
are a free value, for the sources do not state its arithmetic (92; log entry 145). -/
def inputBytes (c : Coll) (k : Nat) (s : State) : List (Byte × Bool) :=
  if syncResidual c s && c.op == 1 then
    clean ((List.range (c.chunkBytes k)).map fun i => BitVec.ofNat 8 (Config.freeValue 92 (c.codeKey * 2 ^ 48 + (c.range k).1 + i)))
  else match readList c.posting.inList s with
  | some l => readListBytes s l.entries (c.range k).1 (c.chunkBytes k)
  | none => []

/-- What a program's unit reads is damaged or poisoned: damage is reported against its stall, and the write of what it makes of it ends the
unit with cause POISON, and so the placement and the collective (R145, R172, R217). A vendor program's units are not told apart: the
first of the placement stands for the one that reads (log entry 157). -/
def vendorFault (c : Coll) (dmg : Option (Nat × Nat)) (s : State) : State :=
  match c.placement.bind fun n => getPlacement n s with
  | none => s
  | some p => match liveUnits p s with
    | [] => s
    | tag :: _ =>
      let st := (getUnit tag s).stall
      let t := match dmg with
        | some d => reportDamage st d (setStall st { getStall st s with exp := { (getStall st s).exp with damageLogged := false } } s)
        | none => s
      unitEnds st cPoison t

/-- Whether the reduce-scatter of an all-reduce has sealed a chunk here (R85). -/
def rsSealed (c : Coll) (k : Nat) (s : State) : Bool :=
  match findColl c.group (c.seq - 1) c.epoch s with
  | some r => r.op == 1 && r.seals.any fun p => p.1 == k
  | none => false

/-- Finish chunks in order as a vendor library program does, raising SEND_READY for each. -/
def vendorSends : Nat → Nat → Nat → Nat → State → State
  | 0, _, _, _, s => s
  | fuel + 1, g, seq, ep, s =>
    match findColl g seq ep s with
    | none => s
    | some c => match c.tallyBase, c.cstate with
      | some b, .active =>
        let x := getGroup g s
        let me := selfSite s
        match (c.finishes x me)[(getTally (b + 2) s).count]? with
        | none => s
        | some k =>
          if c.op = 1 then
            let its := (c.sources x me k).map fun src => c.item k src
            if !(its.all (·.complete)) then s
            else match allOf (its.map fun i => uncode c k (i.bytes s) s) with
              | .error d => vendorFault c (some d) s
              | .ok ps =>
                let parts := ps ++ [inputBytes c k s]
                if parts.any anyPoison then vendorFault c none s
                else
                  let r := writeOut c k (reduceBytes c k x.n (parts.map fun p => p.map (·.1)) (owns x me k)) s
                  if r.1 then vendorSends fuel g seq ep (engineAdd (b + 2) 1 (freeNext r.2)) else r.2
          else if c.allReduce then
            if rsSealed c k s then vendorSends fuel g seq ep (engineAdd (b + 2) 1 s) else s
          else
            let bs := inputBytes c k s
            if anyPoison bs then vendorFault c none s
            else
              let r := writeOut c k (bs.map (·.1)) s
              if r.1 then vendorSends fuel g seq ep (engineAdd (b + 2) 1 r.2) else r.2
      | _, _ => s

/-- Decode the received chunks of a coded all-gather into the output. -/
def vendorDecodes (g seq ep : Nat) (s : State) : State :=
  match findColl g seq ep s with
  | none => s
  | some c =>
    if c.op ≠ 2 ∨ c.xcRanges.isEmpty then s
    else
      let todo := c.items.filter fun p => p.2.complete && !c.decoded.contains (p.1 / 32)
      todo.foldl (fun u p =>
        let k := p.1 / 32
        match uncode c k (p.2.bytes u) u with
        | .error d => vendorFault c (some d) u
        | .ok bs =>
          if anyPoison bs then vendorFault c none u
          else
            let r := writeOut c k (bs.map (·.1)) u
            if r.1 then modColl g seq ep (fun d => { d with decoded := k :: d.decoded }) r.2 else r.2) s

/-- The vendor program of one collective, placed and running, does what it can. -/
def vendorRun (g seq ep : Nat) (s : State) : State :=
  match findColl g seq ep s with
  | none => s
  | some c =>
    let runs := match c.placement with
      | some n => (match getPlacement n s with | some p => !(liveUnits p s).isEmpty | none => false)
      | none => false
    if !isVendor c.posting.program || !runs then s
    else vendorDecodes g seq ep (vendorSends (c.k + 1) g seq ep s)

/-- One round over every open collective of its group's current epoch: programs, sends, counts, LOCAL_DONE. -/
def collRound (s : State) : State :=
  settleColls ((liveColls s).foldl (fun u c => vendorRun c.group c.seq c.epoch u) s)

end Sys2Proof.Machine
end

