-- ==== Sys2Proof/Machine/FabricBase.lean ====
section
/-! DEFINITION. Local-fabric ports (R450), the port that carries an identity (R454), and what the gateway sends through them: held while
the class is paused (R455) or the port is not UP. -/

namespace Sys2Proof.Machine

/-! ### Ports -/

/-- A port nothing has happened on. -/
def FabricPort.off0 : FabricPort := {}

/-- A local-fabric port. -/
def getFab (k : Nat) (s : State) : FabricPort := smGet (fun _ => FabricPort.off0) k s.host.fabric

/-- Store a local-fabric port. -/
def setFab (k : Nat) (x : FabricPort) (s : State) : State :=
  { s with host := { s.host with fabric := smPut (fun _ => FabricPort.off0) k x s.host.fabric } }

/-- Change a local-fabric port. -/
def modFab (k : Nat) (f : FabricPort → FabricPort) (s : State) : State := setFab k (f (getFab k s)) s

/-- The mode of a port's octet (R450). -/
def fabMode (k : Nat) (s : State) : Nat := getN (O.LF_OCTET_MODE + k / 2) s

/-- Whether its octet's mode forms a port (Table 17.1). -/
def fabExists (k : Nat) (s : State) : Bool := fabForms (fabMode k s) k

/-- The MAC address of port `k` from the fused base (Table 17.12). -/
def fusedMac (k : Nat) (s : State) : Nat := (s.dev.macBase + k) % 2 ^ 48

/-- Whether a port's octet is fenced: its ports stay DOWN (Table 21.2). -/
def fabFenced (k : Nat) (s : State) : Bool := s.dev.bist.fenced.contains (54 + k / 2)

/-- The port that carries the identity of port `k`. -/
def fabCarrier (k : Nat) (s : State) : Option Nat := (List.range 16).find? fun j => bitOf (getFab j s).serving k

/-- Whether an UP port carries the identity of port `k`. -/
def fabReached (k : Nat) (s : State) : Bool :=
  match fabCarrier k s with | some p => (getFab p s).lst == 2 | none => false

/-! ### Sending -/

/-- The data class and the reserved control class (R455). -/
def clsData : Nat := 0
def clsCtrl : Nat := 1

/-- Whether an output may leave now: its port is UP and its class not paused. -/
def FabWait.mayLeave (w : FabWait) (s : State) : Bool :=
  match if w.byId then fabCarrier w.port s else some w.port with
  | some p => (getFab p s).lst == 2 && !bitOf (getFab p s).paused w.cls
  | none => false

/-- An output leaves on the local fabric, or waits (R454, R455). -/
def fabSend (w : FabWait) (s : State) : State :=
  if w.mayLeave s then emit w.msg s else { s with fabWait := s.fabWait ++ [w] }

/-- The outputs that may leave now do, oldest first and the control class before the data class (R455). -/
def fabRelease (s : State) : State :=
  let go := s.fabWait.filter fun w => w.mayLeave s
  let t := { s with fabWait := s.fabWait.filter fun w => !w.mayLeave s }
  ((go.filter fun w => w.cls == clsCtrl) ++ go.filter fun w => w.cls != clsCtrl).foldl (fun u w => emit w.msg u) t

/-- What waits for a port itself is lost as it goes DOWN; a tenant frame lost is counted (R456). What waits for an identity moves with
it (R454). -/
def fabLose (k : Nat) (s : State) : State :=
  let lost := s.fabWait.filter fun w => !w.byId && w.port == k
  let eth := lost.filter fun w => match w.msg with | .ethOut _ _ => true | _ => false
  addN O.LF_ETH_DROPS eth.length { s with fabWait := s.fabWait.filter fun w => w.byId || w.port != k }

/-- A queue pair by number. -/
def findQp (q : Nat) (s : State) : Option QueuePair := (s.host.qps.find? fun p => p.1 == q).map (·.2)

/-- The class of a queue pair's service (Table 17.4). -/
def QueuePair.cls (x : QueuePair) : Nat := if x.service = 2 then clsCtrl else clsData

/-- An output on a queue pair, by the port that carries its identity; nothing can leave on one that is not connected. -/
def qpSend (q : Nat) (o : Sent) (s : State) : State :=
  match findQp q s with
  | some x => fabSend ⟨x.port, true, x.cls, o⟩ s
  | none => s

/-- The door queue pair, when it is connected. -/
def doorQpNow (s : State) : Option Nat := (s.host.qps.find? fun p => p.2.service == 2).map (·.1)

end Sys2Proof.Machine
end

