-- ==== Sys2Proof/Machine/OuterOps.lean ====
section
/-! DEFINITION. The outer step: the shard table (R118 to R120), its arithmetic (R121 to R123), its collectives (R127,
R128), its decision (R130 to R136), roll-forward (R133), and the settling of everything a command sets in motion. -/

namespace Sys2Proof.Machine

/-! ### FP32 arithmetic -/

/-- a − b. -/
def fSub (a b : Nat) : Nat := (vecElem .sub 0 .tiesToEven a b 0 0).1
/-- a + b. -/
def fAdd (a b : Nat) : Nat := (vecElem .add 0 .tiesToEven a b 0 0).1
/-- a × b + c, one rounding. -/
def fFma (a b c : Nat) : Nat := (vecElem .fma 0 .tiesToEven a b c 0).1
/-- −a. -/
def fNeg (a : Nat) : Nat := a ^^^ 2 ^ 31
/-- A code of another format as FP32. -/
def fWide (fmt v : Nat) : Nat := (encodeElem 0 .tiesToEven (decodeElem fmt v)).1
/-- FP32 rounded to JF16. -/
def fJf16 (v : Nat) : Nat := (encodeElem 2 .tiesToEven (decodeElem 0 v)).1

/-- The FP32 value at a parameter. -/
def f32At (m : SMap Byte) (i : Nat) : Nat := natOfLE (memRead (4 * i) 4 m)

/-- A run of FP32 values. -/
def f32Run (m : SMap Byte) (i n : Nat) : List Nat := (List.range n).map fun k => f32At m (i + k)

/-- One element of a product on the matrix unit (R192, R193). -/
def matElem (acc : Nat) (as bs : List Nat) : Nat := mopaElem acc (as.map (decodeElem 0)) (bs.map (decodeElem 0))

/-! ### The arithmetic of a step (R121 to R123) -/

/-- The weight of parameter `i` in the window, widened (R121). -/
def weightAt (s : State) (i : Nat) : Nat :=
  let fmt := getN O.OS_SITE_FMT s
  let b := elemBytes fmt
  fWide fmt (natOfLE (memRead (b * i) b s.os.window))

/-- M of parameter `i` (R121 step 1). -/
def mAt (lr : Bool) (s : State) (i : Nat) : Nat :=
  let d := fSub (f32At s.os.anchor i) (weightAt s i)
  if lr then fAdd d (fWide 2 (natOfLE (memRead (2 * i) 2 s.os.cur))) else d

/-- A row of M. -/
def mRow (e : OsEntry) (s : State) (i : Nat) : List Nat :=
  (List.range e.cols).map fun j => mAt e.lr s (e.offset + i * e.cols + j)

/-- A column of M. -/
def mCol (e : OsEntry) (s : State) (j : Nat) : List Nat :=
  (List.range e.rows).map fun i => mAt e.lr s (e.offset + i * e.cols + j)

/-- An element of the initial Q (R123). -/
def initialQ (seed t i j : Nat) : Nat :=
  let h := crc64 (bytesBE 4 seed ++ bytesBE 4 t ++ bytesBE 4 i ++ bytesBE 4 j)
  let v : Int := (h / 2 ^ 40 : Nat) - (2 ^ 23 : Nat)
  (encodeElem 0 .tiesToEven (.fin (decide (v < 0)) v.natAbs (-23))).1

/-- A record slot. -/
def OuterStep.slotOf (o : OuterStep) (i : Nat) : SMap Byte := if i = 0 then o.slot0 else o.slot1

/-- Write bytes in a record slot. -/
def OuterStep.writeSlot (i off : Nat) (bs : List Byte) (o : OuterStep) : OuterStep :=
  if i = 0 then { o with slot0 := memWrite off bs o.slot0 } else { o with slot1 := memWrite off bs o.slot1 }

/-- An element of P̂ in a slot. -/
def phatAt (es : List OsEntry) (t : Nat) (e : OsEntry) (m : SMap Byte) (i j : Nat) : Nat :=
  f32At m (recOffset es t / 4 + i * e.rank + j)

/-- An element of Q̄ in a slot. -/
def qbarAt (es : List OsEntry) (t : Nat) (e : OsEntry) (m : SMap Byte) (i j : Nat) : Nat :=
  f32At m (recOffset es t / 4 + (e.rows + i) * e.rank + j)

/-- An element of Q_prev (Table 4.4). -/
def qPrev (es : List OsEntry) (t : Nat) (e : OsEntry) (s : State) (i j : Nat) : Nat :=
  if s.os.slotEmpty then initialQ (getN O.OS_SEED s) t i j else qbarAt es t e (s.os.slotOf s.os.slot) i j

/-- P_s of an entry, or M_s of an XC entry, in JF16 (R121 steps 1 and 2). -/
def formEntry (es : List OsEntry) (t : Nat) (e : OsEntry) (s : State) : List Byte :=
  let codes : List Nat :=
    if e.lr then
      (List.range e.rows).flatMap fun i =>
        let row := mRow e s i
        (List.range e.rank).map fun j =>
          fJf16 (matElem 0 row ((List.range e.cols).map fun k => qPrev es t e s k j))
    else (List.range e.size).map fun k => fJf16 (mAt false s (e.offset + k))
  bytesOfCodes 2 codes

/-- Project a column against an earlier one. -/
def projectOut (v q : List Nat) : List Nat :=
  let d := Config.orthoDot q v
  List.zipWith (fun x y => fFma (fNeg d) y x) v q

/-- One column after its projections: normalised, or zero below 2⁻¹²⁶ (R122). -/
def normalise (v : List Nat) : List Nat :=
  let n2 := Config.orthoDot v v
  if (decodeElem 0 n2).lt (.fin false 1 (-126)) then v.map fun _ => 0
  else
    let r := (vecElem .sqrt 0 .tiesToEven n2 0 0 0).1
    v.map fun x => (vecElem .div 0 .tiesToEven x r 0 0).1

/-- Modified Gram–Schmidt over columns from the first (R122). -/
def orthonormalise : List (List Nat) → List (List Nat) → List (List Nat)
  | done, [] => done
  | done, v :: vs => orthonormalise (done ++ [normalise (done.foldl projectOut v)]) vs

/-- P̂ of an entry from P̄, by rows. -/
def phatOf (e : OsEntry) (pbar : List Nat) : List (List Nat) :=
  let cols := (List.range e.rank).map fun j => (List.range e.rows).map fun i => pbar.getD (i * e.rank + j) 0
  let ortho := orthonormalise [] cols
  (List.range e.rows).map fun i => ortho.map fun c => c.getD i 0

/-- Q_s of an entry in JF16 (R121 step 4). -/
def qsOf (e : OsEntry) (phat : List (List Nat)) (s : State) : List (List Nat) :=
  (List.range e.cols).map fun j =>
    let col := mCol e s j
    (List.range e.rank).map fun k => fJf16 (matElem 0 col (phat.map fun r => r.getD k 0))

/-- The next residual of an entry (R121 step 5): one pass that adds −P̂·Q_sᵀ to M_s. -/
def nextResidual (e : OsEntry) (phat qs : List (List Nat)) (s : State) : List Byte :=
  bytesOfCodes 2 ((List.range e.rows).flatMap fun i => (List.range e.cols).map fun j =>
    fJf16 (matElem (mAt true s (e.offset + i * e.cols + j)) (phat.getD i [])
      ((qs.getD j []).map fun v => fNeg (fWide 2 v))))

/-- g of a parameter of an entry from a record slot (R121 step 6). -/
def gAt (es : List OsEntry) (t : Nat) (e : OsEntry) (m : SMap Byte) (k : Nat) : Nat :=
  if e.lr then
    matElem 0 ((List.range e.rank).map fun x => phatAt es t e m (k / e.cols) x)
      ((List.range e.rank).map fun x => qbarAt es t e m (k % e.cols) x)
  else f32At m (recOffset es t / 4 + k)

/-- Step 7 of R121: μm' and a'. -/
def nesterov (eta beta a mu g : Nat) : Nat × Nat :=
  let m' := fFma beta mu g
  let u := fFma beta m' g
  (fFma (fNeg eta) u a, m')

/-! ### Roll-forward (R133) -/

/-- Roll one page forward when it is pending: step 7 of R121 on its values with the committed record, into a free page pair, which its
entry then names (R133). A page that is held waits for its refill (R141). -/
def rollPage (p : Nat) (s : State) : State :=
  if !isPending p s || pageHeld p s then s
  else
    let es := osEntries s
    match (osPages es)[p]? with
    | none => s
    | some (t, first) => match es[t]? with
      | none => s
      | some e =>
        let n := min 262144 (e.size - first)
        let m := s.os.slotOf s.os.slot
        let vals := (List.range n).map fun k =>
          let i := e.offset + first + k
          nesterov s.os.etaC s.os.betaC (f32At s.os.anchor i) (f32At s.os.mom i) (gAt es t e m (first + k))
        let at0 := 4 * (e.offset + first)
        switchPage p (modOs (fun o => { o with
          anchor := memWrite at0 (vals.flatMap fun v => bytesLE 4 v.1) o.anchor
          mom := memWrite at0 (vals.flatMap fun v => bytesLE 4 v.2) o.mom }) s)

/-- Roll the pages of an entry forward before they are read. -/
def rollEntry (t : Nat) (s : State) : State := (pagesOf t s).foldl (fun u p => rollPage p u) s

/-- The fingerprints (R129). -/
def computeFps (s : State) : State :=
  let n := 4 * osParams s
  setN O.OS_MOMENTUM_FP (crc64 (memRead 0 n s.os.mom)) (setN O.OS_ANCHOR_FP (crc64 (memRead 0 n s.os.anchor)) s)

/-! ### Buffers of the step engine -/

/-- Allocate crates for `n` bytes: handles with their used bytes. -/
def allocCrates (tenant : Nat) : Nat → Nat → State → Option (List (Nat × Nat)) × State
  | 0, _, s => (some [], s)
  | fuel + 1, n, s =>
    if n = 0 then (some [], s)
    else
      let k := min n mib
      let q : CrateReq := { size := k, loc := 2, prio := 0, spill := true, nowait := true, die := 0, owner := 0x3001,
                            tenant := Fin.ofNat 64 tenant }
      match allocNow q s with
      | (none, t) => (none, t)
      | (some h, t) => match allocCrates tenant fuel (n - k) t with
        | (some l, u) => (some ((h, k) :: l), u)
        | (none, u) => (none, letGo h 0x3001 u)

/-- Allocate a buffer with its crate list (R238). -/
def allocBuf (tenant n : Nat) (s : State) : Option StepBuf × State :=
  match allocCrates tenant (n / mib + 1) n s with
  | (none, t) => (none, t)
  | (some es, t) => match allocCrates tenant 1 (16 + 8 * es.length) t with
    | (some [(h, _)], u) =>
      let body := bytesLE 4 es.length ++ bytesLE 4 0 ++ bytesLE 8 n ++ es.flatMap fun e => bytesLE 4 e.1 ++ bytesLE 4 e.2
      (some ⟨crateAddr h u, h :: es.map (·.1)⟩, writeDev (crateAddr h u) body u)
    | (_, u) => (none, es.foldl (fun w e => letGo e.1 0x3001 w) u)

/-- Release crates of the step engine. -/
def freeBufs (hs : List Nat) (s : State) : State := hs.foldl (fun u h => letGo h 0x3001 u) s

/-- The crates of a part. -/
def StepPart.crates (p : StepPart) : List Nat :=
  (match p.inBuf with | some b => b.crates | none => []) ++ (match p.outBuf with | some b => b.crates | none => [])

/-- Write bytes into a buffer. -/
def bufWrite (b : StepBuf) (off : Nat) (bs : List Byte) (s : State) : State :=
  match readList b.list s with
  | some l => writeListBytes l.entries off (clean bs) s
  | none => s

/-- Read bytes of a buffer. -/
def bufRead (b : StepBuf) (off n : Nat) (s : State) : List Byte :=
  match readList b.list s with
  | some l => (readListBytes s l.entries off n).map (·.1)
  | none => []

/-! ### The collectives of a step (R127, R128) -/

/-- The sequence of a part of the running step. -/
def partSeq (part : Nat) (s : State) : Nat := 32 * getN O.OS_CUR_STEP s + 8 * getN O.OS_ATTEMPT s + part

/-- Bytes of an entry in the payload of the P all-reduce. -/
def pBytes (e : OsEntry) : Nat := if e.lr then e.rows * e.rank * 2 else e.size * 2

/-- Bytes of an entry in the payload of the Q all-reduce. -/
def qBytes (e : OsEntry) : Nat := if e.lr then e.cols * e.rank * 2 else 0

/-- Where an entry begins in a payload. -/
def payOffset (f : OsEntry → Nat) (es : List OsEntry) (t : Nat) : Nat := (es.take t).foldl (fun a e => a + f e) 0

/-- The certificate of this member (Table 4.7). -/
def stepCert (s : State) : List Byte :=
  bytesLE 4 (getN O.OS_CUR_STEP s) ++ bytesLE 1 (getN O.OS_ATTEMPT s) ++ bytesLE 1 (getN O.OS_ATTEMPT_LIMIT s)
    ++ bytesLE 1 (getN O.OS_MODE s) ++ [0#8] ++ bytesLE 4 s.os.eta ++ bytesLE 4 s.os.beta
    ++ bytesLE 8 (getN O.OS_ANCHOR_FP s) ++ bytesLE 8 (getN O.OS_MOMENTUM_FP s)

/-- The engine keeps a reference of its own to the crates of the lists (R235). Post one part, or the two parts of an all-reduce, over new
buffers filled by `fill`; the ranges `xc` travel as XC blocks. -/
def postPart (part op len : Nat) (coding : Nat) (xc : List (Nat × Nat)) (fill : StepBuf → State → State) (s : State) : State :=
  let g := osGroup s
  let tenant := (getGroup g s).tenant
  match allocBuf tenant len s with
  | (none, t) => t
  | (some bi, t) => match allocBuf tenant len t with
    | (none, u) => freeBufs bi.crates u
    | (some bo, u) =>
      let v := fill bi u
      let p : Posting := { group := g, pflags := if part = 0 then 13 else 9, seq := partSeq part s, length := len, inList := bi.list,
                           outList := bo.list, program := 1, redop := if part = 0 then 1 else 2,
                           elem := if part = 0 then 0 else 2, coding := coding, tallyBase := 0xFFFFFFFF }
      match postCollWith xc op p ⟨fnSequencer, 0, 0⟩ v with
      | (st, w) =>
        if st ≠ stOk then freeBufs (bi.crates ++ bo.crates) w
        else
          let mk (k : Nat) (a b : Option StepBuf) : StepPart := { part := k, seq := p.seq + (k - part), inBuf := a, outBuf := b }
          modOs (fun o => { o with parts := o.parts ++
            (if op = 3 then [mk part none none, mk (part + 1) (some bi) (some bo)] else [mk part (some bi) (some bo)]) })
            ((bi.crates.drop 1 ++ bo.crates.drop 1).foldl (fun y h => refUp h y) w)

/-- A part of the running step. -/
def findPart (k : Nat) (s : State) : Option StepPart := s.os.parts.find? fun p => p.part == k

/-- Whether a part's collective has all its chunks here. -/
def partLocal (k : Nat) (s : State) : Bool :=
  match findPart k s with
  | none => false
  | some p => (match p.ended with | some (st, _, _) => st == 0 | none => false)
    || (match findColl (osGroup s) p.seq (getGroup (osGroup s) s).epoch s with
      | some c => c.cstate == .localDone || c.cstate == .confirmed
      | none => false)

/-- Whether step collectives may be posted now (R127). -/
def mayPostParts (s : State) : Bool :=
  let x := getGroup (osGroup s) s
  x.gstate == 2 && x.allPresent && (pendingPages s).isEmpty

/-- The CODING of the P payload's posting (Table 4.6): LR factors, or XC when every entry is coded so. -/
def stepCoding (es : List OsEntry) : Nat := if es.any (·.lr) then 2 else 1

/-- The parts of the P payload that travel as XC blocks: those of the XC entries (Table 4.6). -/
def stepXc (es : List OsEntry) : List (Nat × Nat) :=
  es.zipIdx.filterMap fun et =>
    let o := payOffset pBytes es et.2
    if et.1.lr then none else some (o, o + pBytes et.1)

/-- P̄ has arrived: P̂, Q_s, the next residual, and g of the XC entries (R121 steps 3 to 5). -/
def takePbar (b : StepBuf) (s : State) : State :=
  let es := osEntries s
  let other := 1 - s.os.slot
  es.zipIdx.foldl (fun u et =>
    let e := et.1
    let off := payOffset pBytes es et.2
    let codes := (codesOf 2 (bufRead b off (pBytes e) s)).map (fWide 2)
    if e.lr then
      let phat := phatOf e codes
      let qs := qsOf e phat s
      let res := nextResidual e phat qs s
      modOs (fun o =>
        let o1 := o.writeSlot other (recOffset es et.2) (phat.flatMap fun r => r.flatMap (bytesLE 4))
        if o.bank = 0 then { o1 with resB := memWrite (2 * e.offset) res o1.resB }
        else { o1 with resA := memWrite (2 * e.offset) res o1.resA }) u
    else modOs (fun o => o.writeSlot other (recOffset es et.2) (codes.flatMap (bytesLE 4))) u) s

/-- The Q_s payload. -/
def qPayload (b : StepBuf) (s : State) : List Byte :=
  let es := osEntries s
  es.zipIdx.flatMap fun et =>
    if et.1.lr then
      let codes := (codesOf 2 (bufRead b (payOffset pBytes es et.2) (pBytes et.1) s)).map (fWide 2)
      (qsOf et.1 (phatOf et.1 codes) s).flatMap (bytesOfCodes 2)
    else []

/-- Q̄ has arrived: it goes to the slot being filled. -/
def takeQbar (b : StepBuf) (s : State) : State :=
  let es := osEntries s
  es.zipIdx.foldl (fun u et =>
    let e := et.1
    if e.lr then
      let codes := (codesOf 2 (bufRead b (payOffset qBytes es et.2) (qBytes e) s)).map (fWide 2)
      modOs (fun o => o.writeSlot (1 - o.slot) (recOffset es et.2 + e.rows * e.rank * 4) (codes.flatMap (bytesLE 4))) u
    else u) s

/-- Whether a chunk of the output of a part is here: sealed by this member, or received, checked and decoded. -/
def chunkHere (c : Coll) (k : Nat) (s : State) : Bool :=
  c.chunkBytes k == 0 || (c.seals.any (fun p => p.1 == k) && (owns (getGroup c.group s) (selfSite s) k
    || c.xcRanges.isEmpty || c.decoded.contains k))

/-- Whether the bytes of a payload range of a part's all-gather are all here (R134). -/
def rangeHere (part off n : Nat) (s : State) : Bool :=
  partLocal part s || (match findPart part s with
    | none => false
    | some p => match findColl (osGroup s) p.seq (getGroup (osGroup s) s).epoch s with
      | some c => (List.range c.k).all fun k =>
          decide (off + n ≤ (c.range k).1) || decide ((c.range k).2 ≤ off) || chunkHere c k s
      | none => false)

/-- Whether what a' of an entry is made of is here (R134): Q̄ of an LR entry, with P̂ formed; P̄ of an XC entry. -/
def entryReady (t : Nat) (e : OsEntry) (s : State) : Bool :=
  let es := osEntries s
  if e.lr then s.os.qDone || (s.os.pDone && rangeHere 4 (payOffset qBytes es t) (qBytes e) s)
  else s.os.pDone || rangeHere 2 (payOffset pBytes es t) (pBytes e) s

/-- Put an entry's Q̄, or the g of an XC entry, into the slot being filled, unless the whole payload has been taken there. -/
def takeEntry (t : Nat) (e : OsEntry) (s : State) : State :=
  let es := osEntries s
  if e.lr then
    match (if s.os.qDone then none else (findPart 4 s).bind (·.outBuf)) with
    | some b =>
      let codes := (codesOf 2 (bufRead b (payOffset qBytes es t) (qBytes e) s)).map (fWide 2)
      modOs (fun o => o.writeSlot (1 - o.slot) (recOffset es t + e.rows * e.rank * 4) (codes.flatMap (bytesLE 4))) s
    | none => s
  else
    match (if s.os.pDone then none else (findPart 2 s).bind (·.outBuf)) with
    | some b =>
      let codes := (codesOf 2 (bufRead b (payOffset pBytes es t) (pBytes e) s)).map (fWide 2)
      modOs (fun o => o.writeSlot (1 - o.slot) (recOffset es t) (codes.flatMap (bytesLE 4))) s
    | none => s

/-- Whether the step has a Q all-reduce: an all-XC shard has none to make (log entry 42). -/
def hasQ (es : List OsEntry) : Bool := decide (0 < es.foldl (fun a e => a + qBytes e) 0)

/-- Carry the running step on: post what can be posted, take P̄ and Q̄ when they have arrived. -/
def stepAdvance (s : State) : State :=
  if getN O.OS_STEP_STATE s ≠ 1 then s
  else
    let es := osEntries s
    let x := getGroup (osGroup s) s
    let me := selfSite s
    let s1 := if (findPart 0 s).isNone && mayPostParts s then
        postPart 0 2 (256 * x.n * x.dirs) 0 [] (fun b u => (List.range (x.n * x.dirs)).foldl (fun w k =>
          if owns x me k then bufWrite b (256 * k) (stepCert s ++ List.replicate 224 0#8) w else w) u) s
      else s
    let all := (List.range es.length).all fun t => s1.os.formed.any fun f => f.1 == t
    let s2 := if (findPart 0 s1).isSome && (findPart 1 s1).isNone && all && mayPostParts s1 then
        postPart 1 3 (es.foldl (fun a e => a + pBytes e) 0) (stepCoding es) (stepXc es) (fun b u => u.os.formed.foldl (fun w f =>
          bufWrite b (payOffset pBytes es f.1) f.2 w) u) s1
      else s1
    let s3 := match (if !s2.os.pDone && partLocal 2 s2 then (findPart 2 s2).bind (·.outBuf) else none) with
      | some b => modOs (fun o => { o with pDone := true, qDone := !hasQ es }) (takePbar b s2)
      | none => s2
    let s4 := match (if s3.os.pDone && hasQ es && (findPart 3 s3).isNone && mayPostParts s3
        then (findPart 2 s3).bind (·.outBuf) else none) with
      | some b =>
        let q := qPayload b s3
        postPart 3 3 q.length 2 [] (fun c u => bufWrite c 0 q u) s3
      | none => s3
    match (if !s4.os.qDone && partLocal 4 s4 then (findPart 4 s4).bind (·.outBuf) else none) with
    | some b => modOs (fun o => { o with qDone := true }) (takeQbar b s4)
    | none => s4

/-! ### The decision (R128, R130, R136) -/

def ocCommitted : Nat := 1
def ocRetry : Nat := 2
def ocFailed : Nat := 3
def cauLimit : Nat := 9
def cauCert : Nat := 7
def cauGroup : Nat := 8
def cauRequested : Nat := 6

/-- The cause of Table 4.9 for an ended part; the table has none for DEPENDENT (a free value). -/
def partCause (st cause : Nat) (tainted : Bool) (s : State) : Nat :=
  if st = 0 then (if tainted then 1 else 0)
  else if st = 2 then 6 else if st = 3 then 5
  else match cause with
    | 1 => 3 | 2 => 2 | 3 => 4 | 6 => 8 | _ => freeAt 43 s % 256

/-- The outcome record's bytes (Table 4.9). -/
def outcomeBytes (o : Outcome) : List Byte :=
  bytesLE 4 o.step ++ bytesLE 1 o.attempt ++ bytesLE 1 o.outcome ++ bytesLE 1 o.cause ++ [0#8] ++ bytesLE 4 o.committed
    ++ List.replicate 4 0#8

/-- Write the outcome record to the site on the door queue pair (R459). -/
def emitOutcome (o : Outcome) (s : State) : State :=
  match doorQpNow s with
  | some q => qpSend q (.outcomeRecord (0x70000000 + o.outcome) (outcomeBytes o)) s
  | none => s

/-- The step is decided: parts still open are cancelled where they can be, every part is closed in the sense of R23, the
buffers go back, the record falls due. -/
def stepDecided (oc cause newState : Nat) (s : State) : State :=
  let g := osGroup s
  let ep := (getGroup g s).epoch
  let ps := s.os.parts
  let s1 := ps.foldl (fun u p => match findColl g p.seq ep u with
    | some c => if c.cstate == .posted || c.cstate == .active then
        collEnd g p.seq ep .cancelled ccRequested false
          (sendEach ((getGroup g u).others (selfSite u)) (fun d => .cancel (ctlTo g d p.seq u)) u) else u
    | none => u) s
  let me := selfSite s
  let s2 := closeKept (fun y => y.src == me && y.group == g && ps.any fun p => p.seq == y.seq) s1
  let isOpen (p : StepPart) : Bool := match findColl g p.seq ep s2 with | some c => !c.isFinal | none => false
  let s3 := freeBufs ((ps.filter fun p => !isOpen p).flatMap (·.crates)) s2
  let late := (ps.filter isOpen).map fun p => (p.seq, p.crates)
  let s4 := setN O.OS_LAST_OUTCOME (oc * 256 + cause) (setN O.OS_STEP_STATE newState s3)
  let rec0 : Outcome := ⟨getN O.OS_CUR_STEP s, getN O.OS_ATTEMPT s, oc, cause, getN O.OS_COMMITTED_STEP s4⟩
  modOs (fun o => { o with
    parts := [], formed := [], pDone := false, qDone := false, lateBufs := o.lateBufs ++ late,
    decided := some rec0, recordDue := true }) s4

/-- The commit bell closes, in the sense of R23, every CONFIRMED collective that was posted with STEP (R108). -/
def closeSteps (s : State) : State :=
  let me := selfSite s
  let t := closeKept (fun y => y.src == me && s.coll.stepOpen.contains (y.group, y.seq, y.epoch)) s
  { t with coll := { t.coll with stepOpen := [] } }

/-- The commit bell (R130): the pages, whose entries name the step before, are all pending now. -/
def ringBell (s : State) : State :=
  let n := getN O.OS_CUR_STEP s
  let a := getN O.OS_ATTEMPT s
  let s1 := closeSteps (stepDecided ocCommitted 0 0 (setN O.OS_COMMITTED_STEP n s))
  let s2 := modOs (fun o => { o with
    bank := 1 - o.bank, slot := 1 - o.slot, slotEmpty := false, etaC := o.eta, betaC := o.beta,
    decided := some ⟨n, a, ocCommitted, 0, n⟩ }) s1
  logEvent 0x4801 n (setN O.OS_ATTEMPT 0 (countPending s2))

/-- RETRY, or FAILED with cause LIMIT at the attempt limit (R130). -/
def stepRetry (cause : Nat) (s : State) : State :=
  let n := getN O.OS_CUR_STEP s
  let a := getN O.OS_ATTEMPT s
  if a + 1 < getN O.OS_ATTEMPT_LIMIT s then
    let s1 := modOs (fun o => { o with returned := [], retWaits := [] }) (stepDecided ocRetry cause 0 s)
    logEvent 0x4802 (n * 2 ^ 32 + a * 256 + cause) (addN O.OS_RETRIES 1 (setN O.OS_ATTEMPT (a + 1) s1))
  else
    let s1 := modOs (fun o => { o with returned := [], retWaits := [] }) (stepDecided ocFailed cauLimit 2 s)
    logEvent 0x4803 (n * 2 ^ 32 + cauLimit) (addN O.OS_LOST_STEPS 1 s1)

/-- HALTED (R130). -/
def stepHalt (cause : Nat) (s : State) : State :=
  let n := getN O.OS_CUR_STEP s
  let s1 := modOs (fun o => { o with returned := [], retWaits := [] }) (stepDecided ocFailed cause 2 s)
  logEvent 0x4803 (n * 2 ^ 32 + cause) s1

/-- The lowest site whose certificate differs from this member's (R128). -/
def certMismatch (b : StepBuf) (s : State) : Option Nat :=
  let x := getGroup (osGroup s) s
  let me := selfSite s
  let mine := stepCert s
  let bad := (List.range (x.n * x.dirs)).filter fun k => !owns x me k && bufRead b (256 * k) 32 s != mine
  (bad.map fun k => x.siteAt (x.ownerPos k)).min?

/-- Decide the running step when what is known decides it. -/
def stepDecide (s : State) : State :=
  if getN O.OS_STEP_STATE s ≠ 1 then s
  else if !(getGroup (osGroup s) s).isOpen then stepHalt cauGroup s
  else match s.os.parts.find? fun p => match p.ended with | some (st, _, ta) => st != 0 || ta | none => false with
    | some p => (match p.ended with
      | some (st, ca, ta) =>
        if st = 1 ∧ ca = ccGroupFailed then stepHalt cauGroup s else stepRetry (partCause st ca ta s) s
      | none => s)
    | none =>
      let fin (k : Nat) : Bool := match findPart k s with | some p => p.ended.isSome | none => false
      let need := if hasQ (osEntries s) then [0, 1, 2, 3, 4] else [0, 1, 2]
      if s.os.pDone && s.os.qDone && need.all fin then ringBell s else s

/-- A collective has become final: when it is a part of the running step, that part has ended; certificates are compared
when part 0 is CONFIRMED, tainted or not (R128). -/
def stepEnded (e : Nat × Nat × Nat) (s : State) : State :=
  let late := s.os.lateBufs.filter fun l => l.1 == e.2.1 && e.1 == osGroup s
  let s0 := if late.isEmpty then s else freeBufs (late.flatMap (·.2))
    (modOs (fun o => { o with lateBufs := o.lateBufs.filter fun l => l.1 != e.2.1 }) s)
  if getN O.OS_STEP_STATE s0 ≠ 1 ∨ e.1 ≠ osGroup s0 then s0
  else match findColl e.1 e.2.1 e.2.2 s0 with
    | none => s0
    | some c =>
      if !(s0.os.parts.any fun p => p.seq == e.2.1) then s0
      else
        let s1 := modOs (fun o => { o with parts := o.parts.map fun p =>
          if p.seq == e.2.1 then { p with ended := some (c.cstate.code, c.cause, c.tainted) } else p }) s0
        match (if c.cstate == .confirmed then (findPart 0 s1) else none) with
        | some p0 =>
          if p0.seq ≠ e.2.1 then s1
          else (match p0.outBuf.bind fun b => certMismatch b s1 with
            | some site => stepHalt cauCert (logEvent 0x4804 site s1)
            | none => s1)
        | none => s1

/-! ### Settling -/

/-- Draw the consequences of the collectives that became final, then carry the running step on. -/
def settleRound (s : State) : State :=
  let s1 := collRound s
  let es := s1.coll.ended
  let s2 := { s1 with coll := { s1.coll with ended := [] } }
  let s3 := es.foldl (fun u e => stepEnded e u) s2
  let s4 := es.foldl (fun u e => settleEnded e u) s3
  stepAdvance (stepDecide s4)

/-- Settle: rounds until nothing more became final, at most `fuel`. -/
def settleN : Nat → State → State
  | 0, s => s
  | fuel + 1, s =>
    let t := settleRound s
    if t.coll.ended.isEmpty && t.coll.colls == s.coll.colls && t.os.parts == s.os.parts then t else settleN fuel t

/-- Let everything a command set in motion come about: chunks finished, sent and sealed, collectives and steps decided. -/
def settle (s : State) : State := if s.coll.colls.isEmpty && s.coll.ended.isEmpty && getN O.OS_STEP_STATE s != 1 then s else settleN 16 s

end Sys2Proof.Machine
end

