-- ==== Sys2Proof/Machine/ProtOps.lean ====
section
/-! DEFINITION. Line ports in protection: withdrawal and return (R442), bridged pairs (R443, R444), the accepted switching
request of a port (R318, R440) and what follows from any change of a carrier. -/

namespace Sys2Proof.Machine

/-- The ports that count as one for withdrawal: a pair, or the port alone (R443). -/
def pairPorts (n : Nat) (s : State) : List Nat := match pairOf n s with | some (k, m) => [k, m] | none => [n]

/-- The ports whose carriers count for withdrawal and return: of a pair under LOCKOUT only the working port, as what arrives on the
other is discarded (R443, R444, Table 16.12). -/
def countedPorts (n : Nat) (s : State) : List Nat :=
  match pairOf n s with
  | some (k, m) => if [k, m].any fun j => (getPort j s).lockoutCmd || (getPort j s).lockoutFar then [k] else [k, m]
  | none => [n]

/-- The port a withdrawal names: the working port of a pair. -/
def workingPort (n : Nat) (s : State) : Nat := match pairOf n s with | some (k, _) => k | none => n

/-- Whether a group's relay map names a port, in either mask. -/
def groupNames (n : Nat) (x : Group) : Bool := x.relay.any fun e => bitOf e.1 n || bitOf e.2 n

/-- Every open group whose relay map names a port. -/
def groupsOf (n : Nat) (s : State) : List Nat := (s.coll.groups.filter fun p => p.2.isOpen && groupNames n p.2).map (·.1)

/-- Announce a re-placement of a kind to every open group that uses a port (R111). -/
def announceAll (n kind site ports : Nat) (s : State) : State :=
  (groupsOf n s).foldl (fun u g => announceEpoch g kind site ports u) s

/-- PROT_STATE of a port (Table 16.13). -/
def protState (n : Nat) (s : State) : Nat :=
  let p := getPort n s
  let sel := match pairOf n s with | some (k, _) => k == n && lpActive n s == 0 | none => false
  ofBool p.withdrawn + 2 * ofBool p.bridged + 4 * ofBool (p.lockoutCmd || p.lockoutFar) + 8 * ofBool sel

/-- Whether every condition of R442 that is no interval holds of a port and, in a pair, of the other one. -/
def mayWithdraw (n : Nat) (s : State) : Bool :=
  let ns := countedPorts n s
  ns.any (fun k => (getPort k s).everActive) && ns.all fun k =>
    lpActive k s == 0 && !(getPort k s).promotedSince
      && !((carsOf k s).any fun c => (getCar c s).drainReason != 0 || (getCar c s).partnerDrain)

/-- A port is withdrawn (R442): the fallback masks apply, and the groups that use it advance their epoch. -/
def withdrawPort (n : Nat) (s : State) : State :=
  if (getPort n s).withdrawn || !mayWithdraw n s then s
  else
    let s1 := (pairPorts n s).foldl (fun u k => modPort k (fun p => { p with withdrawn := true }) u) s
    let k := workingPort n s
    flushUnsent (logEvent 0x8812 (k * 2 ^ 56 + 1) (announceAll k 2 (selfSite s) (2 ^ k) s1))

/-- A withdrawn port returns (R442). -/
def returnPort (n : Nat) (s : State) : State :=
  let s1 := (pairPorts n s).foldl (fun u k => modPort k (fun p => { p with withdrawn := false }) u) s
  let k := workingPort n s
  flushUnsent (logEvent 0x8812 (k * 2 ^ 56 + 2) (announceAll k 2 (selfSite s) (2 ^ k) s1))

/-- The bridge of the pair a port works in: set while the pair is applied and no LOCKOUT is in force (R443, R444). -/
def settleBridge (n : Nat) (s : State) : State :=
  let want := match pairOf n s with
    | some (k, m) => [k, m].all fun j => !(getPort j s).lockoutCmd && !(getPort j s).lockoutFar
    | none => false
  if (getPort n s).bridged == want then s else modPort n (fun p => { p with bridged := want }) s

/-- What follows on one port from a change of its carriers. -/
def settlePort (n : Nat) (s : State) : State :=
  let s1 := settleBridge n s
  if lpActive n s1 = 0 then s1
  else
    let p := getPort n s1
    let s2 := if p.everActive && !p.promotedSince then s1 else setPort n { p with everActive := true, promotedSince := false } s1
    if p.withdrawn && (countedPorts n s2).contains n then returnPort n s2 else s2

/-- What follows from any change of carriers, defects, requests or configuration on the line: rates, shares and caps
(R272, R333, R337), SWITCH (R440), bridges and the return of ports (R442, R443). -/
def lineSettle (s : State) : State := settleLine ((List.range 4).foldl (fun u n => settlePort n u) s)

/-- A port's accepted SWITCH changes (R318): counted on the carrier that caused it, logged, and acted on (R440, R444). -/
def switchAccepted (n c v : Nat) (s : State) : State :=
  if getN (O.SW_PORT_RX + n) s = v then s
  else
    let s1 := logEvent 0x2103 (n * 2 ^ 56 + c * 2 ^ 48 + v) (modLedger c (fun l => { l with swChanges := l.swChanges + 1 })
      (setN (O.SW_PORT_RX + n) v s))
    let s2 := modPort n (fun p => { p with lockoutFar := v / 4096 == 5 }) s1
    lineSettle (applySwitch n v s2)

/-- A control-lane message has been taken on a carrier (Table 11.15, CL_MSGS_RX). -/
def laneCount (c : Nat) (s : State) : State := modLedger c (fun l => { l with clMsgsRx := l.clMsgsRx + 1 }) s

end Sys2Proof.Machine
end

