-- ==== Sys2Proof/Machine/OpticOps.lean ====
section
/-! DEFINITION. Carriers and lasers: the frequency plan (R375), the states of Table 14.5, draining (R391, R392), spare lasers
(R394 to R396) and what a carrier's configuration does (R400). -/

namespace Sys2Proof.Machine

/-! ### Configuration and lasers -/

/-- The key of member `k` of a carrier's configuration (Table 14.10). -/
def carKey (c k : Nat) : Nat := objKey (0x2010 + c) k

/-- CAR_ENABLE in the applied configuration. -/
def carEnabled (c : Nat) (s : State) : Bool := getN (carKey c 1) s == 1

/-- CAR_FREQ_N. -/
def carFreqN (c : Nat) (s : State) : Int := getI (carKey c 2) s

/-- CAR_SLOT_M. -/
def carSlotM (c : Nat) (s : State) : Nat := getN (carKey c 3) s

/-- CAR_MODES. -/
def carModes (c : Nat) (s : State) : Nat := getN (carKey c 4) s

/-- The centre frequency of a slot in MHz (R375). -/
def slotMhz (n : Int) : Nat := (193100000 + n * 6250).toNat

/-- The cores of one pool of a carrier that are not fenced, of 128 (R353, R538): core `k` of the carrier is in pool k / 128. -/
def poolCores (c pool : Nat) (s : State) : Nat :=
  128 - ((smGet (fun _ => ([] : List Nat)) c s.dev.bist.coresLost).filter fun k => k / 128 == pool).length

/-- The good cores of the weaker pool of a carrier. -/
def goodCores (c : Nat) (s : State) : Nat := min (poolCores c 0 s) (poolCores c 1 s)

/-- The MODES this end sends: L16 is left out once a pool has fewer than 125 good cores (R538). -/
def sentModes (c : Nat) (s : State) : Nat := if goodCores c s < 125 then clrBit (carModes c s) 4 else carModes c s

/-- Whether a carrier is configured for mode Z4 (R374). -/
def carZ4 (c : Nat) (s : State) : Bool := carModes c s == 0x20

/-- The probe mode of a slot (R384). -/
def probeMode (c : Nat) (s : State) : Nat := if carZ4 c s then modeZ4 else if carSlotM c s = 20 then 2 else 1

/-- A laser nothing has been read of. -/
def Laser.new0 : Laser := {}

/-- A laser by position (Table 1.6). -/
def getLaser (p : Nat) (s : State) : Laser := smGet (fun _ => Laser.new0) p s.line.lasers

/-- Store a laser. -/
def setLaser (p : Nat) (x : Laser) (s : State) : State :=
  { s with line := { s.line with lasers := smPut (fun _ => Laser.new0) p x s.line.lasers } }

/-- Change a laser. -/
def modLaser (p : Nat) (f : Laser → Laser) (s : State) : State := setLaser p (f (getLaser p s)) s

/-- The laser position that feeds a carrier. -/
def laserPos (c : Nat) (s : State) : Nat := if (getCar c s).spareIn then 8 + c / 4 else c

/-- LF_STAT bits (Table 14.3). -/
def Laser.tuned (x : Laser) : Bool := bitOf x.stat 0

/-- The carrier a spare input serves or is reserved for (R27). -/
def spareUser (i : Nat) (s : State) : Option Nat := smGet (fun _ => (none : Option Nat)) i s.line.spareFor

/-- Store it. -/
def setSpareUser (i : Nat) (c : Option Nat) (s : State) : State :=
  { s with line := { s.line with spareFor := smPut (fun _ => (none : Option Nat)) i c s.line.spareFor } }

/-- LASER_SPARE_STATE (Table 1.7). -/
def laserSpareState (s : State) : Nat :=
  let one (i base : Nat) : Nat := match spareUser i s with | some c => 8 + (c - base) | none => 0
  one 1 4 * 16 + one 0 0

/-- The code of a carrier state (Table 14.12). -/
def CarState.code : CarState → Nat
  | .dark => 0 | .tuning => 1 | .locking => 2 | .acquiring => 3 | .probing => 4 | .active => 5 | .draining => 6
  | .shuttered => 7 | .down => 8

/-- CAR_STATUS (Table 14.12). -/
def carStatus (c : Nat) (s : State) : Nat :=
  let x := getCar c s
  x.cstate.code * 2 ^ 60 + x.mode * 2 ^ 56 + ofBool (carDrains x) * 2 ^ 55 + ofBool x.shutter * 2 ^ 54
    + ofBool x.locked * 2 ^ 53 + ofBool x.spareIn * 2 ^ 52 + x.downCause * 2 ^ 40 + ofSigned 16 x.freqErr * 2 ^ 24
    + x.round % 256 * 2 ^ 16

/-- Whether a laser feeds a carrier. -/
def laserInUse (p : Nat) (s : State) : Bool := (List.range 8).any fun c => laserPos c s == p && (getCar c s).cstate != .dark

/-- LASER_STATUS (Table 14.13). -/
def laserStatus (p : Nat) (s : State) : Nat :=
  let x := getLaser p s
  ofSigned 16 x.power * 2 ^ 48 + x.bias % 65536 * 2 ^ 32 + x.biasEol % 65536 * 2 ^ 16 + x.fadeH % 4096 * 16
    + 8 * ofBool x.fade + 4 * ofBool x.fault + 2 * ofBool (laserInUse p s) + ofBool x.tuned

/-- RX_CARRIER_ID (Table 11.17). -/
def rxCarrierId (c : Nat) (s : State) : Nat :=
  let x := getCar c s
  ofBool x.rxLocked * 128 + ofBool x.rxSeen * 64 + x.rxCar % 8

/-! ### The laser bus (R25, R378)

Transfers go to the module's address LASER_I2C_ADDR. How registers are split into transfers the spec leaves open (log entry 137). -/

/-- A write of registers from an address on. -/
def lmWrite (reg : Nat) (bs : List Byte) (s : State) : State :=
  emit (.i2cWrite (getN O.LASER_I2C_ADDR s % 128) (bytesBE 1 reg ++ bs)) s

/-- A read of registers from an address on. -/
def lmRead (reg len : Nat) (s : State) : State := emit (.i2cRead (getN O.LASER_I2C_ADDR s % 128) reg len) s

/-- The address of a register of laser `p`. -/
def lfReg (p off : Nat) : Nat := 0x10 + 0x10 * p + off

/-- LF_CTRL of a laser is written. -/
def setLaserCtrl (p v : Nat) (s : State) : State :=
  lmWrite (lfReg p 4) (bytesBE 1 v) (modLaser p (fun x => { x with ctrl := v }) s)

/-! ### Tuning -/

/-- Tune a laser to a carrier's slot: the target is written and the output enabled, with fine steering (Table 14.5). -/
def tuneLaser (p c : Nat) (s : State) : State :=
  let f := slotMhz (carFreqN c s)
  lmWrite (lfReg p 0) (bytesBE 4 f ++ bytesBE 1 3) (lmWrite (lfReg p 6) (bytesBE 2 0)
    (modLaser p (fun x => { x with targetMhz := f, ctrl := 3, fine := 0, stat := clrBit x.stat 0 }) s))

/-- Switch a laser's output off unless a carrier that is not dark uses it. -/
def laserOff (p : Nat) (s : State) : State := if laserInUse p s then s else setLaserCtrl p 0 s

/-- Whether carriers may run at this gateway (Table 14.5, R15, R438): the device and power states allow it, it is no spare
that serves no place, and it is not displaced. -/
def mayLight (s : State) : Bool :=
  (s.devState == .init || s.devState == .ready || s.devState == .service || s.devState == .lineHold)
    && getN O.PWR_STATE s ≤ 1
    && (getN O.BG_PLACE s != 8 || (getN O.CR_ADOPTED_PLACE s != 0xFF && !s.crier.waitingAck)) && getN O.CR_STATE s != 5

/-- Whether the line-control processor of a carrier's line die runs (Table 16.10). -/
def lncUp (c : Nat) (s : State) : Bool := procUp (2 + c / 4) s

/-- A carrier starts tuning: shutter closed, its laser written (Table 14.5). -/
def enterTuning (c : Nat) (s : State) : State :=
  let t := modCar c (fun x => { x with cstate := .tuning, shutter := true, locked := false, lockRun := 0, test := {} }) s
  tuneLaser (laserPos c t) c t

/-- A DARK carrier whose CAR_ENABLE is set starts (Table 14.5). -/
def startCarrier (c : Nat) (s : State) : State :=
  if (getCar c s).cstate == .dark && carEnabled c s && mayLight s then enterTuning c s else s

/-- Start every carrier that may run. -/
def startCarriers (s : State) : State := lineSettle ((List.range 8).foldl (fun u c => startCarrier c u) s)

/-- A carrier goes to LOCKING (Table 14.5). -/
def enterLocking (c : Nat) (s : State) : State :=
  modCar c (fun x => { x with cstate := .locking, shutter := true, locked := false, lockRun := 0 }) s

/-- One round trip plus 2 ms after the shutter opens, in clocks: on A1 the carrier's own samples are discarded until then
(R553). -/
def discardClk (c : Nat) (s : State) : Nat :=
  let ns := match portOfCar c s with | some n => rttNs n s | none => getN O.RS_RTT_DEFAULT_US s * 1000
  s.time.clocks + (ns + 2000000) * 5 / 4

/-- The receiver has to lock again: LOCK and LOF are raw, and the codeword lock is gone (R330, Table 11.16). -/
def relock (c : Nat) (s : State) : State :=
  opticalDefect c dLock (setN (O.FEC_STATE + c) 1 (modCar c (fun x => { x with fecLock := false, fecGood := 0, fecBad := 0 }) s))

/-- The transmitter and receiver run a mode; one that ran another has to lock again. -/
def runIn (c mode : Nat) (s : State) : State :=
  let x := getCar c s
  let t := modCar c (fun y => { y with runMode := mode }) s
  if x.runMode = mode then s else if x.runMode = 0 then setN (O.FEC_STATE + c) (if x.fecLock then getN (O.FEC_STATE + c) s else 1) t else relock c t

/-- A locked carrier opens its shutter and acquires, in its settled mode or the probe mode (Table 14.5, R389, R396). -/
def enterAcquiring (c : Nat) (s : State) : State :=
  let y := getCar c s
  runIn c (if y.mode = 0 then probeMode c s else y.mode) (modCar c (fun x => { x with
    cstate := .acquiring, shutter := false, locked := true, peer := false, acquireLogged := false, lastDep := 0, firstFrame := true,
    test := { verify := x.mode != 0 }, tt := { x.tt with discardUntil := discardClk c s } }) s)

/-- A carrier goes DOWN with a cause (Tables 14.5 and 14.6). -/
def goDown (c cause : Nat) (s : State) : State :=
  logEvent 0x2002 (c * 2 ^ 56 + cause) (modCar c (fun x => { x with
    cstate := .down, downCause := cause, shutter := true, locked := false, test := {}, fastStart := false,
    mode := if cause = 3 then 0 else x.mode }) s)

/-- Release the spare input a carrier has reserved and not yet switched to. -/
def releaseReserved (c : Nat) (s : State) : State :=
  let x := getCar c s
  if x.laserMove = 1 ∨ x.laserMove = 2 then
    modCar c (fun y => { y with laserMove := 0 }) (setLaserCtrl (8 + c / 4) 0 (setSpareUser (c / 4) none s))
  else if x.laserMove = 4 ∨ x.laserMove = 5 then modCar c (fun y => { y with laserMove := 0 }) s
  else s

/-- A carrier goes DARK (Table 14.5): shutter closed, output disabled; a later start tests anew. -/
def goDark (c : Nat) (s : State) : State :=
  let t := releaseReserved c s
  let p := laserPos c t
  let u := modCar c (fun x => { x with
    cstate := .dark, shutter := true, locked := false, lockRun := 0, drainReason := 0, drainNext := 0, inService := false,
    mode := 0, runMode := 0, test := {}, fastStart := false, lowRun := 0, fecLock := false, fecGood := 0, fecBad := 0, fecRx := [] }) t
  laserOff p (setN (O.FEC_STATE + c) 0 (setRaw c dLof true (alignerHunt c u)))

/-- Every carrier goes DARK: SAFE, HALT, P2 and P3 (Table 14.5). -/
def allDark (s : State) : State :=
  lineSettle ((List.range 8).foldl (fun u c => if (getCar c u).cstate == .dark then u else goDark c u) s)

/-! ### The start of a margin test (R386) -/

/-- Change a carrier's test. -/
def modTest (c : Nat) (f : MarginTest → MarginTest) (s : State) : State := modCar c (fun x => { x with test := f x.test }) s

/-- A MARGIN message of this end. -/
def ownMsg (c ty mode : Nat) (s : State) : MarginMsg :=
  { mgType := ty, round := (getCar c s).round, mode := mode, modes := sentModes c s, snr := 0, qmargin := 0,
    target := getN O.MG_TARGET_CDB s, pass := false, verify := false }

/-- Make a message the current one of a carrier, due at once. -/
def sayMargin (c : Nat) (m : MarginMsg) (s : State) : State := modTest c (fun t => { t with msg := some m, msgDue := true }) s

/-- Enter PROBING with a full test (R386 step 1). -/
def startTest (c : Nat) (s : State) : State :=
  let x := getCar c s
  let t : MarginTest := { below := x.test.below }
  let u := runIn c (probeMode c s) (setCar c { x with cstate := .probing, test := t, round := 0, berSum := 0, berN := 0 } s)
  sayMargin c (ownMsg c 1 0 u) u

/-! ### Draining (R391, R392) -/

/-- The drain moves the carrier on (Table 14.5): to change lasers the input switch moves, between the shutter's closing and
the relock. -/
def drainMoves (c : Nat) (s : State) : State :=
  let x := getCar c s
  match x.drainNext with
  | 1 =>
    let moved := x.laserMove == 2 || x.laserMove == 5
    enterLocking c (setCar c { x with
      drainNext := 0, spareIn := if moved then !x.spareIn else x.spareIn, laserMove := if moved then x.laserMove + 1 else 0 } s)
  | 2 => enterTuning c (setCar c { x with drainNext := 0, mode := 0 } s)
  | 3 => startTest c (setCar c { x with drainNext := 0, shutter := false } s)
  | 4 => goDark c s
  | _ => s

/-- A drain is complete (R392 t1). -/
def drainComplete (c : Nat) (s : State) : State :=
  if (getCar c s).cstate == .draining then drainMoves c s else s

/-- An ACTIVE carrier starts to drain, for a reason of EV-0x2005; one in Z4 has no drain and moves on at once (R396). -/
def startDrain (c reason next : Nat) (s : State) : State :=
  let x := getCar c s
  if x.cstate != .active then s
  else
    let t := logEvent 0x2005 (c * 2 ^ 56 + reason) (setCar c { x with
      cstate := .draining, drainReason := reason, drainNext := next, farDrainRun := 0 } s)
    if x.mode = modeZ4 then drainComplete c t else t

/-- A carrier enters ACTIVE (Table 14.5): its mode is settled, a drain ends (R392 t2), and a laser move ends (R394 t4, R395). -/
def enterActive (c : Nat) (s : State) : State :=
  let x := getCar c s
  let s1 := setCar c { x with
    cstate := .active, mode := x.runMode, inService := true, drainReason := 0, drainNext := 0, lowRun := 0, fastStart := false,
    laserMove := if x.laserMove = 3 ∨ x.laserMove = 6 then 0 else x.laserMove } s
  let s2 := logEvent 0x2001 (c * 2 ^ 56 + x.runMode) s1
  let s3 := if x.drainReason = 0 then s2 else logEvent 0x2006 (c * 2 ^ 56) (addN (O.CAR_DRAINS + c) 1 s2)
  let s4 := if x.laserMove = 6 then setSpareUser (c / 4) none s3 else s3
  if x.laserMove = 3 ∨ x.laserMove = 6 then logEvent 0x2043 (c * 2 ^ 56 + laserPos c s4) s4 else s4

/-- An ACTIVE carrier that reports LOS or LOCK goes to ACQUIRING in its settled mode (Table 14.5). -/
def activeDefect (c : Nat) (s : State) : State :=
  let x := getCar c s
  if x.cstate == .active && x.reported % 4 != 0 then
    setCar c { x with cstate := .acquiring, peer := false, acquireLogged := false, test := { verify := true } } s
  else s

/-- What follows from a change of a carrier's defects. -/
def defectFollow (c : Nat) (s : State) : State := lineSettle (activeDefect c s)

/-! ### Spare lasers (R27, R393 to R396) -/

/-- Reserve and tune the group's spare laser for a carrier (R394 t0); with the input in use nothing can be moved (R27). -/
def reserveSpare (c : Nat) (s : State) : Option State :=
  if (spareUser (c / 4) s).isSome || (getLaser (8 + c / 4) s).fault then none
  else some (modCar c (fun x => { x with laserMove := 1 }) (tuneLaser (8 + c / 4) c (setSpareUser (c / 4) (some c) s)))

/-- The carrier a laser feeds, if one that is not dark. -/
def laserFeeds (p : Nat) (s : State) : Option Nat :=
  (List.range 8).find? fun c => laserPos c s == p && (getCar c s).cstate != .dark

/-- A fade of the laser of a carrier (R27, R393, R394): with the spare input of its group in use, by another carrier or by this one, the
carrier is drained; with the input free it moves there, if LASER_AUTO_SPARE is set. DESIGN CHOICE (log entry 138): a carrier for which the
spare laser is already being tuned goes on with its move; where the input is free and its laser is marked FAULT the carrier is drained as
with an input in use, with code 3 in EV-0x2042; with LASER_AUTO_SPARE clear and the input free nothing follows but EV-0x2041. -/
def fadeDeclared (p hours : Nat) (s : State) : State :=
  let s1 := logEvent 0x2041 (p * 2 ^ 56 + hours % 65536) (modLaser p (fun x => { x with fade := true }) s)
  match laserFeeds p s1 with
  | none => s1
  | some c =>
    let x := getCar c s1
    let drained (code : Nat) : State := startDrain c 1 0 (logEvent 0x2042 (c * 2 ^ 56 + code) s1)
    if x.laserMove = 1 ∨ x.laserMove = 2 then s1
    else if (spareUser (c / 4) s1).isSome then drained 1
    else if getN O.LASER_AUTO_SPARE s1 = 0 then s1
    else match reserveSpare c s1 with
      | some t => t
      | none => drained 3

/-- A carrier of a laser whose LF_STAT shows TUNED, with light enough at the engine, starts its locker (Table 14.5). -/
def laserTuned (p : Nat) (s : State) : State :=
  match (List.range 8).find? fun c => laserPos c s == p && (getCar c s).cstate == .tuning with
  | some c =>
    let x := getLaser p s
    if x.tuned && getI O.LASER_IN_MIN_CDBM s ≤ x.power then enterLocking c (modLaser p (fun l => { l with fault := bitOf l.stat 2 }) s)
    else s
  | none => s

/-- The laser a carrier moves to has settled: the carrier drains, or, with nothing to drain, its switch moves (R394 t2, t3,
R396). -/
def moveSettled (c : Nat) (s : State) : State :=
  let x := getCar c s
  let target := if x.laserMove = 1 then 8 + c / 4 else c
  if (x.laserMove = 1 ∨ x.laserMove = 4) ∧ (getLaser target s).tuned then
    let t := setCar c { x with laserMove := x.laserMove + 1 } s
    if x.cstate == .active then startDrain c (if x.laserMove = 1 then 1 else 2) 1 t
    else if x.cstate == .draining then setCar c { x with laserMove := x.laserMove + 1, drainNext := 1 } s
    else if x.cstate == .dark then s
    else
      let u := drainMoves c (setCar c { x with laserMove := x.laserMove + 1, drainNext := 1 } s)
      if x.cstate == .down then laserTuned target (modCar c (fun y => { y with cstate := .tuning }) u) else u
  else s

/-- The laser a carrier moves to did not settle or failed (R394, Table 14.9): marked FAULT and released. -/
def moveFails (c code : Nat) (s : State) : State :=
  let x := getCar c s
  let target := if x.laserMove ≤ 2 then 8 + c / 4 else c
  let s1 := logEvent 0x2042 (c * 2 ^ 56 + code) (modLaser target (fun l => { l with fault := true }) (releaseReserved c s))
  if (getLaser (laserPos c s1) s1).fault && (getCar c s1).cstate != .dark then goDown c 4 s1 else s1

/-- A laser has failed (R396, Table 14.9); `cause` is that of a carrier that goes DOWN with it (Table 14.6). -/
def laserFailedBy (cause p : Nat) (s : State) : State :=
  let s1 := modLaser p (fun x => { x with fault := true }) s
  let reserved := (List.range 8).find? fun c =>
    let x := getCar c s
    (p == 8 + c / 4 && (x.laserMove == 1 || x.laserMove == 2)) || (p == c && (x.laserMove == 4 || x.laserMove == 5))
  let s2 := match reserved with | some c => moveFails c 3 s1 | none => s1
  match (List.range 8).find? fun c => laserPos c s == p && (getCar c s).cstate != .dark && (getCar c s).cstate != .down with
  | none => lineSettle s2
  | some c =>
    let s3 := activeDefect c (opticalDefect c dLock (modCar c (fun x => { x with shutter := true, locked := false, lockRun := 0 }) s2))
    let s4 := if p < 8 ∧ getN O.LASER_AUTO_SPARE s3 = 1 then
        (match reserveSpare c s3 with | some t => t | none => goDown c cause s3)
      else goDown c cause s3
    lineSettle s4

/-- A laser has failed: cause LASER. -/
def laserFailed (p : Nat) (s : State) : State := laserFailedBy 4 p s

/-! ### The laser module (R25, R26, R379) -/

/-- LASER_SHUT_N is low while the gateway is in SAFE, HALT, P2 or P3, or judges the module faulty (R26). -/
def settleShut (s : State) : State :=
  let low := s.devState == .safe || s.devState == .halt || (2 ≤ getN O.PWR_STATE s && s.devState != .off) || s.line.lmFault
  { s with line := { s.line with laserShutLow := low } }

/-- The module is judged faulty (R379). -/
def moduleFaulty (s : State) : State :=
  if s.line.lmFault then s
  else logEvent 0x2044 s.line.lmStatus (settleShut { s with line := { s.line with lmFault := true } })

/-- Whether a laser feeds a carrier that has tuned on it. -/
def laserLit (p : Nat) (s : State) : Bool :=
  (List.range 8).any fun c =>
    let x := getCar c s
    laserPos c s == p && x.cstate != .dark && x.cstate != .tuning && x.cstate != .shuttered && x.cstate != .down

/-- Take one laser's registers as read (Table 14.3), with the engine input power. -/
def takeLaser (r : LaserRead) (s : State) : State :=
  let s1 := modLaser r.pos (fun x => { x with
    stat := r.stat, power := r.power, bias := r.bias, biasEol := r.biasEol, fmon := r.fmon }) s
  let fails := bitOf r.stat 2 || (laserLit r.pos s1 && decide (r.power < getI O.LASER_IN_MIN_CDBM s1))
  let s2 := if fails && !(getLaser r.pos s).fault then laserFailed r.pos s1 else s1
  let s3 := if bitOf r.stat 3 && !(getLaser r.pos s2).fade && laserInUse r.pos s2 then fadeDeclared r.pos 0 s2 else s2
  laserTuned r.pos s3

/-- The module's status as read over the bus (R25, R379): the identity, LM_STATUS and every laser whose LM_INT bit
is set, which the gateway then clears. -/
def takeModule (m : ModuleRead) (s : State) : State :=
  let asked := lmWrite 4 (bytesBE 2 (m.int % 65536))
    ((bitsSet 12 m.int).foldl (fun u p => lmRead (lfReg p 0) 16 u) (lmRead 0 7 s))
  let s1 := setN O.LM_IDENT (m.id % 65536 * 65536 + m.ver % 256 * 256 + m.count % 256)
    { asked with line := { asked.line with lmStatus := m.status } }
  if m.id ≠ 0x4C4D ∨ m.ver ≠ 1 ∨ bitOf m.status 1 ∨ bitOf m.status 2 then moduleFaulty s1
  else
    let s2 := settleShut { s1 with line := { s1.line with lmFault := false } }
    lineSettle ((m.lasers.filter fun r => bitOf m.int r.pos && r.pos < 10).foldl (fun u r => takeLaser r u) s2)

/-! ### Locking (R380, R381) -/

/-- Whether a sample shows a wrong order (R381); `fmonDiff` is LF_FMON minus the locker's estimate in units of 10 MHz. -/
def wrongOrder (orderOk : Bool) (fmonDiff : Int) : Bool := !orderOk || 2500 < fmonDiff || fmonDiff < -2500

/-- A wrong-order lock (R381): the carrier is SHUTTERED; a drain in progress completes; the third within 10 minutes fails
the laser. -/
def wrongOrderLock (c : Nat) (fmonDiff : Int) (s : State) : State :=
  let recent := (getCar c s).wrongOrders.filter fun k => s.time.clocks - k < 600 * clkSec
  let s0 := drainComplete c s
  let s1 := logEvent 0x2004 (c * 2 ^ 56 + ofSigned 32 fmonDiff) (addN (O.CAR_WRONG_ORDER + c) 1
    (modCar c (fun x => { x with
      cstate := if x.cstate == .dark then .dark else .shuttered, shutter := true, locked := false, lockRun := 0,
      wrongOrders := recent ++ [s.time.clocks] }) s0))
  if 2 ≤ recent.length then laserFailedBy 5 (laserPos c s1) s1 else lineSettle s1

/-- Samples within ±0.5 GHz that make a lock: 1 ms of them; the first one on a promoted spare's fast start (R380, R431). -/
def lockNeeds (x : Carrier) : Nat := if x.fastStart then 1 else 1000

/-- One locker sample (R380): the error in units of 10 MHz. -/
def lockerSample (c : Nat) (err : Int) (orderOk : Bool) (fmonDiff : Int) (s : State) : State :=
  let x := getCar c s
  match x.cstate with
  | .dark | .tuning | .down => s
  | .shuttered => enterTuning c s
  | _ =>
    if wrongOrder orderOk fmonDiff then wrongOrderLock c fmonDiff (setCar c { x with freqErr := err } s)
    else if x.locked then
      if -200 ≤ err ∧ err ≤ 200 then setCar c { x with freqErr := err } s
      else
        defectFollow c (opticalDefect c dLock (setCar c { x with freqErr := err, locked := false, lockRun := 0, shutter := true } s))
    else
      let run := if -50 ≤ err && err ≤ 50 && orderOk then x.lockRun + 1 else 0
      let s1 := setCar c { x with freqErr := err, lockRun := run } s
      if run < lockNeeds x then s1
      else if x.cstate == .locking then lineSettle (enterAcquiring c s1)
      else lineSettle (setCar c { x with freqErr := err, lockRun := run, locked := true, shutter := false } s1)

/-! ### A carrier's configuration (R400, Table 14.9) -/

/-- A port whose carrier is configured for Z4 has no far end that an IDENT named (R17). -/
def forgetFar (c : Nat) (s : State) : State :=
  match portOfCar c s with
  | some n => if carZ4 c s then setN (O.LP_FAR_ID + n) 0 (modPort n (fun p => { p with farSite := none }) s) else s
  | none => s

/-- What the applied configuration does to a carrier: `changed` when the frequency, slot or modes differ. -/
def carConfigured (c : Nat) (changed : Bool) (s : State) : State :=
  let s0 := forgetFar c (modCar c (fun x => { x with rxSeen := false }) s)
  let x := getCar c s0
  let t := if !carEnabled c s0 then
      (match x.cstate with
        | .dark => s0
        | .active => startDrain c 5 4 s0
        | .draining => setCar c { x with drainNext := 4 } s0
        | _ => goDark c s0)
    else match x.cstate with
      | .dark => startCarrier c s0
      | .down => enterTuning c s0
      | .active => if changed then startDrain c 5 2 s0 else s0
      | _ => if changed then enterTuning c (modCar c (fun y => { y with mode := 0 }) (releaseReserved c s0)) else s0
  lineSettle t

end Sys2Proof.Machine
end

