-- ==== Sys2Proof/Machine/MarginOps.lean ====
section
/-! DEFINITION. The margin test, verification and the margin in service (R383 to R390, Table 14.7). -/

namespace Sys2Proof.Machine

/-! ### The Q-margin (R383)

Computed in fixed point with 160 fraction bits. -/

/-- One. -/
def fxOne : Nat := 2 ^ 160

/-- The product of two fixed-point numbers. -/
def fxMul (a b : Nat) : Nat := a * b / fxOne

/-- ln 10. -/
def fxLn10 : Nat := 0x24d763776aaa2b05ba95b58ae0b4c28a38a3fb3e7

/-- 2 / √π. -/
def fxTwoOverSqrtPi : Nat := 0x120dd750429b6d11ae3a914fed7fd8688281341d7

/-- Terms of the exponential series from term `n` on. -/
def fxExpFrom (x : Nat) : Nat → Nat → Nat → Nat
  | 0, _, _ => 0
  | fuel + 1, n, term => term + fxExpFrom x fuel (n + 1) (fxMul term x / n)

/-- The exponential of a fixed-point number. -/
def fxExp (x : Nat) : Nat := fxExpFrom x 320 1 fxOne

/-- Terms of Σ 2ⁿ x²ⁿ / (2n + 1)!! from term `n` on; `y` is x². -/
def fxErfFrom (y : Nat) : Nat → Nat → Nat → Nat
  | 0, _, _ => 0
  | fuel + 1, n, term => term + fxErfFrom y fuel (n + 1) (2 * fxMul term y / (2 * n + 1))

/-- The BER at which the Q-margin is `m` in units of 0.01 dB: ½ · erfc(x) with x² = ½ · 10^((m + 625) / 1000). -/
def berAtMargin (m : Int) : Nat :=
  let e := fxLn10 * (m + 625).natAbs / 1000
  let q2 := if 0 ≤ m + 625 then fxExp e else fxOne * fxOne / fxExp e
  let y := q2 / 2
  let x := isqrt (y * fxOne)
  let erf := fxMul (fxMul fxTwoOverSqrtPi (fxMul x (fxErfFrom y 320 1 fxOne))) (fxOne * fxOne / fxExp y)
  (fxOne - erf) / 2

/-- The largest margin in a range whose BER is at least `ber`, by bisection. -/
def marginSearch (ber : Nat) : Nat → Int → Int → Int
  | 0, lo, _ => lo
  | fuel + 1, lo, hi =>
    let mid := (lo + hi) / 2
    if ber ≤ berAtMargin mid then marginSearch ber fuel mid hi else marginSearch ber fuel lo mid

/-- The Q-margin of a BER above zero, in units of 0.01 dB, rounded down. -/
def qMargin (ber : Nat) : Int := marginSearch ber 13 (-3000) 1500

/-- The BER averaged over a carrier's measurement, and none without an estimate. -/
def measuredBer (c : Nat) (s : State) : Option Nat :=
  let x := getCar c s
  if x.berN = 0 then none else some (x.berSum * 2 ^ 64 / x.berN)

/-- The Q-margin of a carrier's measurement and whether it reaches a threshold; the spec states no number for a BER of zero
or for no estimate at all (log entry 47). -/
def carMargin (c : Nat) (limit : Int) (s : State) : Int × Bool × State :=
  match measuredBer c s with
  | some ber =>
    if ber = 0 then (toSigned 16 (freeAt 47 s), true, freeNext s)
    else (qMargin ber, decide (limit ≤ qMargin ber), s)
  | none => (toSigned 16 (freeAt 47 s), false, freeNext s)

/-! ### Modes -/

/-- The SNR at the FEC threshold in units of 0.01 dB (Table 14.1). -/
def modeSnr : Nat → Int
  | 1 => 700 | 2 => 700 | 3 => 1080 | 4 => 1370 | _ => 0

/-- The margin predicted in a mode, in units of 0.0001 dB (R386): 10 · log₁₀(240 / 120) is 3.0103 dB. -/
def predicted (snr : Int) (mode : Nat) : Int := (snr - modeSnr mode) * 100 + (if mode = 1 then 30103 else 0)

/-- The modes both ends allow and no round has excluded, highest first. -/
def testModes (c : Nat) (t : MarginTest) (s : State) : List Nat :=
  [4, 3, 2, 1].filter fun k => bitOf (sentModes c s) k && bitOf (t.farModes.getD 0) k && !bitOf t.excluded k
    && (t.below == 0 || k ≤ t.below)

/-- Whether this end leads: the lower SITE_ID. -/
def leads (c : Nat) (s : State) : Bool :=
  match (getCar c s).ident with | some i => selfSite s < i.site | none => false

/-- A port holds a current transmit key, or its carrier needs none (Z4). -/
def holdsKey (c : Nat) (s : State) : Bool :=
  carZ4 c s || (match portOfCar c s with | some n => (getPort n s).curTx.isSome | none => false)

/-! ### The test -/

/-- A carrier that has JOIN sent or taken and whose port holds a key enters ACTIVE (Table 14.5). -/
def tryActive (c : Nat) (s : State) : State :=
  let x := getCar c s
  if x.cstate == .probing && x.test.passed && holdsKey c s then lineSettle (enterActive c s) else s

/-- Every carrier of a port: used when a key becomes CURRENT. -/
def tryActivePort (n : Nat) (s : State) : State := (carsOf n s).foldl (fun u c => tryActive c u) s

/-- The carrier reaches PROBING once its receiver is in codeword lock and in SYNC without LOS or LOCK and it has taken an IDENT from a peer
(Table 14.5); a promoted spare's carrier skips the test (R397). -/
def tryProbing (c : Nat) (s : State) : State :=
  let x := getCar c s
  if x.cstate != .acquiring || x.raw % 4 != 0 || !x.fecLock || x.fa != 2 || !x.peer then s
  else if x.fastStart then
    tryActive c (setCar c { x with cstate := .probing, test := { verify := true, passed := true }, berSum := 0, berN := 0 } s)
  else if x.test.verify then setCar c { x with cstate := .probing, berSum := 0, berN := 0 } s
  else startTest c s

/-- A test ends with a settled mode or 0 and this end's and the far end's margins (R388); the laser's power is kept (R393). -/
def testEnded (c mode : Nat) (s : State) : State :=
  let t := (getCar c s).test
  let q (r : Option MarginMsg) : Nat := match r with | some m => ofSigned 16 m.qmargin | none => 0
  logEvent 0x2003 (c * 2 ^ 56 + mode * 2 ^ 48 + q t.ownRep * 2 ^ 32 + q t.farRep * 2 ^ 16 + sentModes c s % 256 * 256
    + t.farModes.getD 0 % 256)
    (modLaser (laserPos c s) (fun l => { l with powerAtTest := l.power }) (modCar c (fun x => { x with mode := mode }) s))

/-- No mode passes: both ends go DOWN (R387). -/
def testFails (c : Nat) (s : State) : State := lineSettle (goDown c 3 (testEnded c 0 s))

/-- The mode passes: the leader sends JOIN (R386 step 5). -/
def testPasses (c : Nat) (s : State) : State :=
  if leads c s then sayMargin c (ownMsg c 5 (getCar c s).runMode s) s else s

/-- The leader sends SET with a mode and the next round; it changes on the first SET_ACK. -/
def sendSet (c mode : Nat) (s : State) : State :=
  let m := { ownMsg c 3 mode s with round := ((getCar c s).round + 1) % 256 }
  modTest c (fun t => { t with setMode := mode, setPending := true, msg := some m, msgDue := true }) s

/-- A round's mode is left: the next lower mode, or the end of the test. -/
def stepDown (c : Nat) (s : State) : State :=
  let x := getCar c s
  let t := { x.test with excluded := setBit x.test.excluded x.runMode }
  let u := setCar c { x with test := t } s
  match (testModes c t u).filter (fun k => decide (k < x.runMode)) with
  | k :: _ => if leads c u then sendSet c k u else u
  | [] => testFails c u

/-- Step 2 of R386, from the round-0 reports: the highest mode predicted to hold in both directions. -/
def chooseMode (c : Nat) (s : State) : State :=
  let t := (getCar c s).test
  match t.ownRep0, t.farRep0 with
  | some a, some b =>
    let ks := testModes c t s
    if ks.isEmpty then testFails c s
    else if ks = [probeMode c s] then (if a.pass && b.pass then testPasses c s else testFails c s)
    else
      let need : Int := ((max (getN O.MG_TARGET_CDB s) b.target + getN O.MG_PRED_GUARD_CDB s : Nat) : Int) * 100
      match ks.find? fun k => decide (need ≤ predicted a.snr k) && decide (need ≤ predicted b.snr k) with
      | some k => if leads c s then sendSet c k s else s
      | none => testFails c s
  | _, _ => s

/-- Act once both REPORTs of the round are there (R386, R389). -/
def decideRound (c : Nat) (s : State) : State :=
  let x := getCar c s
  match x.test.ownRep, x.test.farRep with
  | some a, some b =>
    if x.test.verify then
      if a.pass && b.pass then tryActive c (modTest c (fun t => { t with passed := true }) s)
      else if x.cstate == .probing then startTest c s
      else startDrain c 3 3 s
    else if x.round = 0 then chooseMode c s
    else if a.pass && b.pass then testPasses c s
    else stepDown c s
  | _, _ => s

/-- Change the transmitter and receiver to a mode for a round (R386 step 3). -/
def changeMode (c mode round : Nat) (s : State) : State :=
  runIn c mode (modCar c (fun x => { x with
    round := round, berSum := 0, berN := 0,
    test := { x.test with ownRep := none, farRep := none, setPending := false, msg := none, msgDue := false, ackLeft := 0 } }) s)

/-- Whether a carrier's receiver has acquired: codeword lock and SYNC. -/
def acquiredNow (x : Carrier) : Bool := x.fecLock && x.fa == 2 && x.raw % 4 == 0

/-- Whether the partner is in another slot (R376, log entry 48): the far end's frequency offset, in units of 10 MHz, is half a
grid step or more, or its IDENT does not count the carrier it sends on. -/
def otherSlot (c : Nat) (farOffset : Int) (s : State) : Bool :=
  let x := getCar c s
  3125 ≤ 10 * farOffset || 10 * farOffset ≤ -3125 || (match x.ident with | some i => !bitOf i.carriers x.rxCar | none => true)

/-- This end's REPORT of a finished measurement. -/
def report (c : Nat) (snr : Int) (s : State) : State :=
  let x := getCar c s
  let (q, pass, s1) := carMargin c (getN O.MG_TARGET_CDB s) s
  let m : MarginMsg := { ownMsg c 2 x.runMode s with snr := snr, qmargin := q, pass := pass, verify := x.test.verify }
  let s2 := setI (O.CAR_SNR_CDB + c) snr (setI (O.CAR_QMARGIN_CDB + c) q s1)
  let s3 := modCar c (fun y => { y with
    berSum := 0, berN := 0,
    test := { y.test with
      ownRep := some m, ownRep0 := if !y.test.verify && y.round = 0 then some m else y.test.ownRep0, msg := some m, msgDue := true } }) s2
  decideRound c s3

/-- A measurement window ends (R386, R388, Table 14.8). -/
def measEnd (c : Nat) (snr farOffset : Int) (skewOk : Bool) (s : State) : State :=
  let x := getCar c s
  if !lncUp c s || x.cstate != .probing || x.test.verify || !acquiredNow x || x.test.ownRep.isSome then s
  else
    let s1 := if x.round = 0 && !skewOk then logEvent 0x2051 (c * 2 ^ 56 + 4) s else s
    if otherSlot c farOffset s1 then logEvent 0x2008 (c * 2 ^ 56) s1 else report c snr s1

/-- A verification window ends (R389); a carrier returned to service by a promotion verifies in service (R397, R432). -/
def verifyEnd (c : Nat) (snr : Int) (s : State) : State :=
  let x := getCar c s
  if !lncUp c s || !(x.cstate == .probing || x.cstate == .active) || !x.test.verify || !acquiredNow x || x.test.ownRep.isSome then s
  else report c snr s

/-- An end has not acquired in the mode of a round: back to the probe mode, the mode excluded (R387). -/
def acqTimeout (c : Nat) (s : State) : State :=
  let x := getCar c s
  if !lncUp c s || x.cstate != .probing || x.test.verify || x.round = 0 || acquiredNow x then s
  else
    let t : MarginTest := { x.test with
      excluded := setBit x.test.excluded x.runMode, ownRep := none, farRep := none, msg := x.test.ownRep0, msgDue := true }
    chooseMode c (runIn c (probeMode c s) (setCar c { x with berSum := 0, berN := 0, test := t } s))

/-! ### Messages -/

/-- A MARGIN message taken on a carrier: acted on when its content has changed (R384). -/
def takeMargin (c : Nat) (m : MarginMsg) (s : State) : State :=
  let x := getCar c s
  if !lncUp c s || !(x.cstate == .probing || x.cstate == .active) || x.test.lastFar == some m then s
  else
    let u := modTest c (fun t => { t with lastFar := some m, farModes := some m.modes, farTarget := m.target }) s
    let isect := Nat.land (sentModes c s) m.modes
    match m.mgType with
    | 1 => if x.cstate == .probing && isect = 0 then testFails c u else u
    | 2 =>
      if m.verify ≠ x.test.verify ∨ (!m.verify ∧ m.round ≠ x.round) then
        (if x.test.verify && !m.verify && x.cstate == .probing then startTest c u else u)
      else
        decideRound c (modTest c (fun t => { t with
          farRep := some m, farRep0 := if !m.verify && m.round = 0 then some m else t.farRep0 }) u)
    | 3 =>
      if x.cstate != .probing || leads c s || !bitOf (sentModes c s) m.mode then u
      else
        modTest c (fun t => { t with
          setMode := m.mode, setPending := true, ackLeft := 3, msg := some { ownMsg c 4 m.mode u with round := m.round }, msgDue := true }) u
    | 4 =>
      if x.cstate == .probing && x.test.setPending && leads c s && m.mode = x.test.setMode && m.round = (x.round + 1) % 256
      then changeMode c m.mode m.round u else u
    | 5 =>
      if x.cstate == .probing && m.mode = x.runMode then
        tryActive c (modTest c (fun t => { t with passed := true }) (testEnded c m.mode u))
      else u
    | _ => u

/-- A MARGIN message has left in a frame: SET_ACK goes in three frames, and then the follower changes mode; a JOIN sent lets
the leader enter ACTIVE (R386). -/
def marginLeft (c : Nat) (m : MarginMsg) (s : State) : State :=
  let x := getCar c s
  if m.mgType = 4 then
    if x.test.ackLeft ≤ 1 then changeMode c m.mode m.round s
    else modTest c (fun t => { t with ackLeft := t.ackLeft - 1, msgDue := true }) s
  else if m.mgType = 5 ∧ x.cstate == .probing ∧ !x.test.joinSent then
    tryActive c (modTest c (fun t => { t with joinSent := true, passed := true }) (testEnded c m.mode s))
  else s

/-! ### In service (R390, R393) -/

/-- A carrier that re-planning has chosen is tested again once no other carrier of its port is away from ACTIVE (R546). -/
def upshiftNext (c : Nat) (s : State) : State :=
  let others := match portOfCar c s with | some n => (carsOf n s).filter (· != c) | none => []
  if s.dev.bist.upshift.contains c && (getCar c s).cstate == .active
      && others.all (fun d => !(getCar d s).inService || (getCar d s).cstate == .active) then
    startDrain c 3 3 (modTest c (fun t => { t with below := 0 })
      { s with dev := { s.dev with bist := { s.dev.bist with upshift := s.dev.bist.upshift.filter (· != c) } } })
  else s

/-- The margin is updated in ACTIVE: a margin low for MG_DOWN_S drains the carrier for a test from the next lower mode, and one
below its target with the light gone down is a fade. -/
def marginUpdate (c : Nat) (snr : Int) (s : State) : State :=
  let x := getCar c s
  if !lncUp c s || x.cstate != .active then s
  else
    let low (q : Int) : Bool := decide (q < (getN O.MG_DOWN_CDB s : Int))
    let (q, _, s1) := carMargin c 0 s
    let known := match measuredBer c s with | some b => b != 0 | none => false
    let s2 := setI (O.CAR_SNR_CDB + c) snr (setI (O.CAR_QMARGIN_CDB + c) q s1)
    let run := if known && low q then x.lowRun + 1 else 0
    let s3 := modCar c (fun y => { y with lowRun := run, berSum := 0, berN := 0 }) s2
    let p := laserPos c s3
    let l := getLaser p s3
    let s4 := if known && decide (q < (getN O.MG_TARGET_CDB s3 : Int)) && decide (l.power + 100 < l.powerAtTest) && !l.fade
      then fadeDeclared p 0 s3 else s3
    let lower := [3, 2, 1].find? fun k => decide (k < x.mode) && bitOf (sentModes c s4) k && bitOf (x.test.farModes.getD (sentModes c s4)) k
    match lower with
    | some k =>
      if getN O.MG_DOWN_S s4 * 1000 ≤ run * getN O.MG_MEAS_MS s4 && leads c s4 && (getCar c s4).cstate == .active then
        startDrain c 4 3 (modTest c (fun t => { t with below := k }) (logEvent 0x2007 (c * 2 ^ 56 + k) s4))
      else upshiftNext c s4
    | none => upshiftNext c s4

/-! ### The trend of the lasers (R393) -/

/-- The sums of a fit: n, Σx, Σy, Σx², Σxy. -/
def fitSums (ps : List (Int × Int)) : Int × Int × Int × Int × Int :=
  ps.foldl (fun (n, sx, sy, sxx, sxy) (x, y) => (n + 1, sx + x, sy + y, sxx + x * x, sxy + x * y)) (0, 0, 0, 0, 0)

/-- Whole hours until the least-squares line of samples (minute, value) reaches a limit, downward or upward; none when it does
not go there. -/
def hoursTo (ps : List (Int × Int)) (now limit : Int) (downward : Bool) : Option Nat :=
  let (n, sx, sy, sxx, sxy) := fitSums ps
  let d := n * sxx - sx * sx
  if d ≤ 0 then none
  else
    let num := n * sxy - sx * sy
    let gap := (limit * n - sy) * d - num * (n * now - sx)
    if downward then (if 0 ≤ gap then some 0 else if 0 ≤ num then none else some (gap.natAbs / (n * num).natAbs / 60))
    else (if gap ≤ 0 then some 0 else if num ≤ 0 then none else some (gap.natAbs / (n * num).natAbs / 60))

/-- The sooner of two projections. -/
def sooner : Option Nat → Option Nat → Option Nat
  | some a, some b => some (min a b)
  | some a, none => some a
  | none, b => b

/-- One laser in use is sampled, and fades when a fit crosses its limit within LF_LEAD_H (R393). -/
def trendLaser (r : LaserRead) (s : State) : State :=
  let now := s.line.trendMin
  let s1 := modLaser r.pos (fun x => { x with
    power := r.power, bias := r.bias, biasEol := r.biasEol,
    samples := (x.samples.filter fun t => now < t.1 + getN O.LF_WINDOW_H s * 60) ++ [(now, r.power, r.bias)] }) s
  let l := getLaser r.pos s1
  let ps := l.samples.map fun t => ((t.1 : Int), t.2.1)
  let bs := l.samples.map fun t => ((t.1 : Int), (t.2.2 : Int))
  let h := sooner (hoursTo ps now (getI O.LF_FLOOR_CDBM s1) true) (hoursTo bs now l.biasEol false)
  let fh := match h with | some k => if k ≤ 4094 then k else 0xFFF | none => 0xFFF
  let s2 := modLaser r.pos (fun x => { x with fadeH := fh }) s1
  match h with
  | some k => if k ≤ getN O.LF_LEAD_H s2 ∧ !l.fade then fadeDeclared r.pos k s2 else s2
  | none => s2

/-- Every 60 s each laser in use whose line-control processor runs is sampled (R393, Table 16.10). -/
def trendSample (rs : List LaserRead) (s : State) : State :=
  let s1 := { s with line := { s.line with trendMin := s.line.trendMin + 1 } }
  (rs.filter fun r => r.pos < 10 && laserInUse r.pos s1).foldl (fun u r =>
    if (List.range 8).any fun c => laserPos c u == r.pos && lncUp c u then trendLaser r (lmRead (lfReg r.pos 10) 4 u) else u) s1

end Sys2Proof.Machine
end

