-- ==== Sys2Proof/Machine/PowerOps.lean ====
section
/-! DEFINITION. Abandoning self-test slices (R539) and migrations (R175, R176). -/

namespace Sys2Proof.Machine

/-! ### Self-test slices -/

/-- Change the device part. -/
def modDev (f : Device → Device) (s : State) : State := { s with dev := f s.dev }

/-- Change the self-test part. -/
def modBist (f : Bist → Bist) (s : State) : State := modDev (fun d => { d with bist := f d.bist }) s

/-- A stall under test goes back to SPARE. -/
def endTesting (row : Nat) (s : State) : State :=
  let st := spareOf row s
  let x := getStall st s
  if x.sstate == .testing then setStall st { x with sstate := .spare } s else s

/-- One slice ends without a result: its island goes back to service. -/
def releaseSlice (z : Slice) (s : State) : State :=
  let s1 := modBist (fun b => { b with slices := b.slices.filter fun y => y.slot != z.slot }) s
  match z.item with
  | .stall _ => endTesting z.island s1
  | _ => s1

/-- Abandon the slices that meet a condition (R539). -/
def abandonSlices (p : Slice → Bool) (s : State) : State :=
  (s.dev.bist.slices.filter p).foldl (fun u z => addN O.BIST_ABANDONED 1 (releaseSlice z u)) s

/-! ### Migration (R175, R176) -/

/-- Whether the unit of a migration has drained (R175 t1): nothing it has issued is outstanding, and its porter channels rest with every
write of their moves made. -/
def migDrained (m : Migration) (s : State) : Bool :=
  !rtreeOut m.a s && (getStall m.a s).moveQueue.isEmpty && (getUnit m.tag s).channels.all fun c =>
    let x := getChan c s
    x.cstate != .run && x.cstate != .stopping && (x.moves.isEmpty || x.cstate == .fault)

/-- Copy the stall store of stall `a` to stall `b`. -/
def copyStore (a b : Nat) (s : State) : State :=
  let pa := stallBase a
  let pb := stallBase b
  let n := 0x200000
  let moved := (s.mem.filter fun c => pa ≤ c.1 && c.1 < pa + n).map fun c => (c.1 - pa + pb, c.2)
  let movedP := (s.poison.filter fun c => pa / 8 ≤ c.1 && c.1 < (pa + n) / 8).map fun c => (c.1 - pa / 8 + pb / 8, c.2)
  { s with
    mem := s.mem.filter (fun c => c.1 < pb) ++ moved ++ s.mem.filter (fun c => pb + n ≤ c.1)
    poison := s.poison.filter (fun c => c.1 < pb / 8) ++ movedP ++ s.poison.filter (fun c => (pb + n) / 8 ≤ c.1) }

/-- The unit resumes on stall `b`: its state is copied, its tag gets a new generation, its channels follow, and `a` becomes
the spare (R175 t2 to t4). -/
def finishMigration (m : Migration) (s : State) : State :=
  let x := getStall m.a s
  let u := getUnit m.tag s
  let gen := (u.gen + 1) % 256
  let row := stallRow m.a
  let s1 := copyStore m.a m.b s
  let s2 := setStall m.b { x with
    sstate := .running, moved := x.moved + 1, lastCause := (getStall m.b s).lastCause, trapCode := (getStall m.b s).trapCode, eccSeen := [] } s1
  let s3 := setStall m.a { Stall.idle0 with sstate := .spare, lastTenant := some x.tenant, lastCause := x.lastCause, trapCode := x.trapCode } s2
  let s4 := setUnit m.tag { u with stall := m.b, gen := gen } s3
  let s5 := u.channels.foldl (fun v c => setChan c { getChan c v with gen := gen } v) s4
  let s6 := { s5 with comp := { s5.comp with
    migrations := s5.comp.migrations.filter fun y => y.a != m.a
    sparePos := smPut (fun _ => 0) row (m.a % 8) s5.comp.sparePos } }
  let s7 := modBist (fun b => { b with stallDone := smPut (fun _ => 0) row 0 b.stallDone }) s6
  releaseFreq row (addN O.MIGRATIONS 1 s7)

/-- Abandon one migration: stall `a` resumes (R176). -/
def abandonMigration (m : Migration) (s : State) : State :=
  let x := getStall m.a s
  let s1 := if x.sstate == .moving then setStall m.a { x with sstate := .running } s else s
  let s2 := { s1 with comp := { s1.comp with migrations := s1.comp.migrations.filter fun y => y.a != m.a } }
  releaseFreq (stallRow m.a) (logEvent 0x5004 (m.a * 256 + m.b) s2)

end Sys2Proof.Machine
end

