-- ==== Sys2Proof/Machine/ProgOps.lean ====
section
/-! DEFINITION. Program images (R167, R168, Tables 5.8 and 5.9) and code tables (R204 to R206). -/

namespace Sys2Proof.Machine

/-- A little-endian field of an image. -/
def imgAt (bs : List Byte) (o n : Nat) : Nat := natOfLE ((bs.drop o).take n)

/-- The instructions of an image. -/
def imgCode (bs : List Byte) : List Nat := (List.range (imgAt bs 12 4)).map fun i => imgAt bs (64 + 8 * i) 8

/-- The program an image describes. -/
def imgProgram (bs : List Byte) (crate : Nat) : Program :=
  let cw := imgAt bs 12 4
  { hflags := imgAt bs 6 2, progId := imgAt bs 8 4, storeBytes := imgAt bs 20 4, unitsMin := imgAt bs 24 2,
    unitsMax := imgAt bs 26 2, tallies := imgAt bs 28 2, rowxKib := imgAt bs 30 2, porters := imgAt bs 32 1,
    entry := imgAt bs 36 4, tenantMask := imgAt bs 40 8, codeCrc := imgAt bs 48 4,
    code := (imgCode bs).map (BitVec.ofNat 64), consts := (bs.drop (64 + 8 * cw)).take (imgAt bs 16 4), crate := crate }

/-- Operation codes of each class that Table 5.6 lists. -/
def opListed (cls op : Nat) : Bool :=
  match cls with
  | 0 => op ≤ 0x0C || op == 0x10 || op == 0x11 || (0x18 ≤ op && op ≤ 0x1A) || op == 0x1C || op == 0x1D
  | 1 => op ≤ 0x06 || op == 0x07 || (0x09 ≤ op && op ≤ 0x0B) || op == 0x10 || op == 0x11 || op == 0x14 || op == 0x15
  | 2 => op ≤ 0x03 || op == 0x08
  | _ => op ≤ 0x02 || (0x04 ≤ op && op ≤ 0x06) || op == 0x08 || op == 0x0C || op == 0x0E || op == 0x0F

/-- The reserved fields of an instruction are zero (Table 5.5). -/
def reservedZero (cls op w : Nat) : Bool :=
  match cls with
  | 2 => field w 26 0 == 0
  | 3 => if 4 ≤ op && op ≤ 6 then field w 55 51 == 0 && field w 35 32 == 0 && field w 15 0 == 0 else field w 39 32 == 0
  | _ => true

/-- The format codes of an instruction are ones Table 6.1 allows there, and FMT and XSEL a pair of Table 5.4. -/
def formatAllowed (cls op w : Nat) : Bool :=
  match cls with
  | 1 =>
    let f := field w 32 29
    if op == 0x09 then f ≤ 9 && field w 40 36 ≤ 9
    else if op == 0x10 || op == 0x11 || op == 0x15 then f ≤ 9
    else arithFmt f
  | 2 =>
    let f := field w 37 34
    xselOk (field w 33 32) f && (if op == 0x00 then f ≤ 8 else if op == 0x01 then f ≤ 4 else true)
  | _ => true

/-- Check 5 of Table 5.9 on one instruction. -/
def wordListed (w : Nat) : Bool :=
  let cls := field w 63 62
  let op := field w 61 56
  opListed cls op && reservedZero cls op w && formatAllowed cls op w

/-- The target of a BR or JAL lies within the code (check 6). -/
def targetOk (n pc w : Nat) : Bool :=
  let op := field w 61 56
  if field w 63 62 == 0 && (op == 0x18 || op == 0x19) then
    let t := (pc : Int) + toSigned 32 (field w 31 0)
    decide (0 ≤ t) && decide (t < (n : Int))
  else true

/-- TOFF and immediate addresses (check 7). -/
def addressOk (p : Program) (w : Nat) : Bool :=
  let cls := field w 63 62
  let op := field w 61 56
  let reach (imm : Int) (n : Nat) : Bool := decide (0 ≤ imm) && storeReach p.storeBytes imm.toNat n
  if cls == 3 && op ≤ 2 then field w 31 16 < p.tallies
  else if cls == 0 && (op == 0x10 || op == 0x11) && field w 50 46 == 0 then reach (toSigned 32 (field w 31 0)) 8
  else if cls == 1 && (op == 0x10 || op == 0x11) && field w 25 21 == 0 then
    let f := field w 32 29
    let n := if isBlockFmt f then 2 * (blockGeom f).2.1 else elemCount f * elemBytes f
    reach (toSigned 21 (field w 20 0)) n
  else true

/-- The flags a program must declare (check 8). -/
def declares (hflags w : Nat) : Bool :=
  let cls := field w 63 62
  let op := field w 61 56
  (!(cls == 3 && op == 6) || bitOf hflags 0) && (!(cls == 2 && op == 8) || bitOf hflags 1)
    && (!(cls == 2 && op == 0 && (bitOf w 31 || bitOf w 30)) || bitOf hflags 2)

/-- The first check of Table 5.9 that an image fails; 0 when it passes all. -/
def imageCheck (bs : List Byte) : Nat :=
  let p := imgProgram bs 0
  let cw := imgAt bs 12 4
  let cb := imgAt bs 16 4
  let code := imgCode bs
  if bs.length < 64 || imgAt bs 0 4 ≠ 0x53544C50 || imgAt bs 4 2 ≠ 1 || imgAt bs 33 3 ≠ 0 || imgAt bs 52 12 ≠ 0
      || 16 ≤ p.hflags then 1
  else if p.progId < 0x10000 || p.progId = 0xFFFFFFFF then 2
  else if bs.length ≠ 64 + 8 * cw + cb || 1048576 < bs.length || crc32c (bs.drop 64) ≠ p.codeCrc then 3
  else if cw < 1 || 8192 < cw || 262144 < cb || cb % 64 ≠ 0 || p.storeBytes < cb || 0x1FFF00 < p.storeBytes
      || p.unitsMin < 1 || 128 < p.unitsMin || p.unitsMax < p.unitsMin || 128 < p.unitsMax || 1024 < p.tallies
      || 4096 < p.rowxKib || 4 < p.porters then 4
  else if !code.all wordListed then 5
  else if cw ≤ p.entry || !((code.zipIdx).all fun c => targetOk cw c.2 c.1) then 6
  else if !code.all (addressOk p) then 7
  else if !code.all (declares p.hflags) then 8
  else 0

/-- Register an image that passed its checks in an H1M crate from the control reserve (R168): E-0x31 when 256 are
registered or no crate is free. -/
def registerImage (bs : List Byte) (s : State) : Nat × State :=
  let p := imgProgram bs 0
  let old := s.comp.programs.find? fun g => g.progId == p.progId
  if old.isNone && 256 ≤ s.comp.programs.length then (0x31, s)
  else
    let q : CrateReq := { size := 1048576, loc := 2, prio := 1, spill := false, nowait := true, die := 0, owner := 0x4006, tenant := 0 }
    match allocNow q s with
    | (none, t) => (0x31, t)
    | (some h, t) =>
      let t1 := { t with comp := { t.comp with
        programs := t.comp.programs.filter (fun g => g.progId != p.progId) ++ [{ p with crate := h }]
        unloading := t.comp.unloading.filter (· != p.progId)
        oldImages := t.comp.oldImages ++ (match old with | some g => [g.crate] | none => []) } }
      (0, imagesSettle (logEvent 0x5005 p.progId (writeDev (crateAddr h t1) bs t1)))

/-- The write of PROG_IMAGE: from the PF only; a failed check is E-0x14 and EV-0x5006. -/
def writeProgImage (sess : Nat) (bs : List Byte) (s : State) : Nat × State :=
  if sess ≠ 8 then (0x19, s)
  else
    let n := imageCheck bs
    if n ≠ 0 then (0x14, logEvent 0x5006 n s) else registerImage bs s

/-- The check of a write of PROG_UNLOAD: the identifier is registered. -/
def progUnloadCheck (v : Nat) (s : State) : Nat := if s.comp.programs.any fun g => g.progId == v then 0 else 0x14

/-- The write of PROG_UNLOAD. -/
def progUnloadEffect (v : Nat) (s : State) : State :=
  imagesSettle { s with comp := { s.comp with unloading := s.comp.unloading.filter (· != v) ++ [v] } }

/-- The check of a write of XC_TABLE (R205). -/
def xcTableCheck (bs : List Byte) : Nat := if xcTableOk bs then 0 else 0x14

/-- The write of XC_TABLE: the table is loaded and the event logged (R205, Table 7.10). -/
def xcTableEffect (table : Nat) (bs : List Byte) (s : State) : State := logEvent 0x5012 table (setB (O.XC_TABLE + table) bs s)

/-- XC_TABLE_DIGEST (R206). -/
def xcDigest (s : State) : Nat := crc64 (xcTables s).flatten

end Sys2Proof.Machine
end

