-- ==== Sys2Proof/Machine/StallRun.lean ====
section
/-! DEFINITION. Running one stall instruction with everything it sets in motion: placements that end, collectives that go
on. -/

namespace Sys2Proof.Machine

/-- Whether the word at the PC of a stall's instruction store spells no instruction (R154). -/
def wordIllegal (st : Nat) (s : State) : Bool :=
  let x := getStall st s
  match x.istore[x.pc]? with
  | some w => (stallInstr 0 w.toNat).isNone
  | none => false

/-- Whether a stall runs the next instruction of its unit. -/
def stallRuns (st : Nat) (s : State) : Bool := stallIssues st s && !wordIllegal st s

/-- One instruction of a stall: nothing on a stall that does not issue; a word that spells no instruction ends the unit with ILLEGAL
(R154). -/
def issueStep (st : Nat) (f : State → State) (s : State) : State :=
  if !stallIssues st s then s
  else if wordIllegal st s then settle (stallTake st illegal s)
  else f s

/-- One instruction of a stall that issues; the end of a unit sets more in motion (R172). -/
def stallStep (st : Nat) (f : State → StallOut) (s : State) : State :=
  issueStep st (fun u => match f u with
    | .ok t => t
    | .error c => settle (stallTake st (.error c) u)) s

/-- One MOPA, whose end leaves the damage it has found reported (R217). -/
def mopaStep (st : Nat) (o : MatrixOp) (s : State) : State :=
  issueStep st (fun u => match matrixMopa st o u with
    | .ok t => t
    | .error (c, t) => settle (stallTake st (.error c) t)) s

/-! ### Errors of the stall store (R145) -/

/-- Mark words of a stall store, by number, poisoned or clean. -/
def markWords (st : Nat) (b : Bool) (ws : List Nat) (s : State) : State :=
  ws.foldl (fun u w => { u with poison := smPut (fun _ => false) (stallBase st / 8 + w) b u.poison }) s

/-- Whether a word of a stall store is among the bytes read. -/
def wordRead (span : List (Nat × Nat)) (w : Nat) : Bool := span.any fun r => decide (r.1 / 8 ≤ w) && decide (8 * w < r.1 + r.2)

/-- Run an instruction whose read finds errors in words of the stall store (R145): a single-bit error is corrected and counted, an
uncorrectable one delivers its word poisoned, and one at an address that has had one before ends the unit with STORE_ECC and fences
the stall (Table 5.11, log entry 152). -/
def eccRun (st : Nat) (e : StoreErrs) (span : List (Nat × Nat)) (f : State → State) (s : State) : State :=
  let ue := (e.double.filter (wordRead span)).eraseDups
  let ce := (e.single.filter fun w => wordRead span w && !ue.contains w).eraseDups
  if ce.isEmpty && ue.isEmpty then f s
  else
    let x := getStall st s
    let s1 := setStall st { x with eccSeen := x.eccSeen ++ ue } (addN (O.STALL_ECC_CE + st) ce.length s)
    if ue.any x.eccSeen.contains then settle (stallTake st (.error (cStoreEcc, 0)) s1)
    else
      let fresh := ue.filter fun w => !smGet (fun _ => false) (stallBase st / 8 + w) s.poison
      markWords st false fresh (f (markWords st true fresh s1))

/-- The same where the stall runs the instruction. -/
def eccStep (st : Nat) (e : StoreErrs) (span : List (Nat × Nat)) (f : State → State) (s : State) : State :=
  if stallRuns st s then eccRun st e span f s else f s

/-! ### The movement unit (R157) -/

/-- STOP and TRAP: the unit ends with the cause; a reserved field is ILLEGAL (R154). -/
def stallEnd (cause : Nat) (o : MoveTOp) (_ : State) : StallOut :=
  if o.reserved ≠ 0 then illegal else .error (cause, o.imm16.toNat)

/-- What a movement instruction does when the movement unit comes to it. -/
def moveOut (st : Nat) : MoveInstr → State → StallOut
  | .add o => stallTallyAdd st o
  | .wait o => stallTallyWait st o
  | .reset o => stallTallyReset st o
  | .xld o => stallXld st o
  | .xst o _ => stallXst st o
  | .rtree o _ => stallRtree st o
  | .pkick o => stallPkick st o
  | .stop o => stallEnd cStop o
  | .trap o => stallEnd cTrap o

/-- The errors of the stall store its read finds, and the bytes it reads. -/
def moveErrs (st : Nat) (m : MoveInstr) (s : State) : StoreErrs × List (Nat × Nat) :=
  match m with
  | .xst o e | .rtree o e => (e, [((moveXArgs st o s).1, (moveXArgs st o s).2.2)])
  | _ => (⟨[], []⟩, [])

/-- The movement unit runs one instruction. -/
def moveRun (st : Nat) (m : MoveInstr) (s : State) : State :=
  eccRun st (moveErrs st m s).1 (moveErrs st m s).2 (fun u => match moveOut st m u with
    | .ok t => t
    | .error c => settle (stallTake st (.error c) u)) s

/-- The scalar registers a movement instruction reads. -/
def MoveInstr.sources : MoveInstr → List Nat
  | .add o | .wait o | .reset o | .pkick o | .stop o | .trap o => [o.sa.val, o.sb.val]
  | .xld o | .xst o _ | .rtree o _ => [o.sa.val, o.sb.val, o.sc.val]

/-- A movement instruction issues into the queue, with the registers it reads; the core does not go past a wait or an end (R157). -/
def moveQueued (st : Nat) (m : MoveInstr) (s : State) : State :=
  let x := getStall st s
  let e : MoveEntry := ⟨m, (m.sources.filter (· != 0)).foldl (fun a r => smPut (fun _ => SReg.zero) r (x.rdS r) a) []⟩
  let stays := match m with | .wait _ | .stop _ | .trap _ => true | _ => false
  setStall st { x with moveQueue := x.moveQueue ++ [e], pc := if stays then x.pc else x.pc + 1 } s

/-- Run a queued instruction on the registers as it read them; only the result of a TALLY.ADD is kept. -/
def moveQueueRun (st : Nat) (e : MoveEntry) (s : State) : State :=
  let x := getStall st s
  let y := e.regs.foldl (fun a r => a.wrS r.1 r.2) x
  let t := moveRun st e.op (setStall st { y with moveQueue := x.moveQueue.drop 1 } s)
  let z := getStall st t
  if z.tag ≠ x.tag ∨ z.sstate ≠ x.sstate then t
  else
    let kept := match e.op with | .add o => x.wrS o.sd.val (z.rdS o.sd.val) | _ => x
    let pc := match e.op with | .wait _ => z.pc | _ => x.pc
    setStall st { z with sregs := kept.sregs, pc := pc } t

/-- The movement unit of a stall runs its queue in order, as far as an RTREE that is out or a wait lets it. -/
def runMoveQueue (st : Nat) : Nat → State → State
  | 0, s => s
  | fuel + 1, s =>
    let x := getStall st s
    match x.moveQueue with
    | [] => s
    | e :: _ =>
      if rtreeOut st s || x.waiting.isSome || !(x.sstate == .running || x.sstate == .moving) then s
      else runMoveQueue st fuel (moveQueueRun st e s)

/-- One movement instruction: the unit's movement queue, 16 deep, runs in order, so one that comes while an RTREE of its own unit is still
gathering waits in it (R157). -/
def moveStep (st : Nat) (m : MoveInstr) (s : State) : State :=
  issueStep st (fun u =>
    if rtreeOut st u then (if (getStall st u).moveQueue.length < 16 then moveQueued st m u else u)
    else moveRun st m u) s

/-- A waiting stall is looked at again (R159, R161, Table 5.12): one that moves only ends when its tally failed. -/
def wakeStall (st : Nat) (s : State) : State :=
  let x := getStall st s
  if x.waiting.isNone then s
  else match x.sstate with
  | .running => stallTake st (stallWake st s) s
  | .moving =>
    (match x.waiting with
    | some (t, _, _) =>
      if waitFailed t s then
        unitEnds st cTallyError ((s.comp.migrations.filter fun m => m.a == st).foldl (fun u m => abandonMigration m u) s)
      else s
    | none => s)
  | _ => s

/-- An RTREE all of whose members have issued theirs writes its sum and ends (R148), and their movement units go on (R157). -/
def completeRtree (pl row tag : Nat) (s : State) : State :=
  match findRtree pl row tag s with
  | none => s
  | some q =>
    if !rtreeReady q then s
    else
      let t := writeRowx (rtreeDest q) (rtreeBytes q s) s
      let u := { t with comp := { t.comp with rtrees := t.comp.rtrees.filter (· != q) } }
      q.issued.foldl (fun v i => runMoveQueue i.2.1 17 v) u

end Sys2Proof.Machine
end

