-- ==== Sys2Proof/Machine/PorterOps.lean ====
section
/-! DEFINITION. Porter channels: reach (R255), operands (R254, R257), loops (R256), bursts (R263 to R266), what a MOVE does
to its bytes (R259 to R262), and how programs end (R267, R268). -/

namespace Sys2Proof.Machine

/-! ### Causes (Table 9.6) -/

def pcBadInstr : Nat := 1
def pcFetch : Nat := 2
def pcAddr : Nat := 3
def pcCrate : Nat := 4
def pcXcDamage : Nat := 5
def pcTallyRange : Nat := 6
def pcTallyError : Nat := 7
def pcHost : Nat := 8
def pcWatchdog : Nat := 9

/-! ### Channels -/

/-- The line die whose engines a channel uses (R248, R250). -/
def chanDie (c : Nat) : Nat := if c < 192 then 0 else if c < 384 then 1 else if c < 448 then 0 else 1

/-- Whether a channel is a host channel: the first PORTER_HOST_CH of each line die (Table 9.1). -/
def hostChan (c : Nat) (s : State) : Bool := c < 384 && c % 192 < getN O.PORTER_HOST_CH s

/-- Whether a channel is an engine channel (Table 9.1). -/
def engineChan (c : Nat) (s : State) : Bool := c < 384 && getN O.PORTER_HOST_CH s ≤ c % 192

/-- The fields of a channel's configuration (Table 9.9). -/
def chanCfg (c : Nat) (s : State) : Nat := getN (inst128 O.PORTER_CH_CFG c) s
def cfgRate (v : Nat) : Nat := v % 128
def cfgPrio (v : Nat) : Nat := field v 9 8
def cfgStage (v : Nat) : Nat := field v 22 16

/-- Whether an engine channel is the step engine's: firmware gives the engines their channels, and the spec does not say which (free
value 300, log entry 153). -/
def stepChan (c : Nat) : Bool := Config.freeValue 300 c % 2 == 1

/-- The owner code of a porter channel's crates (Table 8.8). -/
def chanOwnerCode (c : Nat) : Nat := c

/-- Change a channel. -/
def modChan (c : Nat) (f : Channel → Channel) (s : State) : State := setChan c (f (getChan c s)) s

/-- The stall of the unit that owns a channel. -/
def chanStall (x : Channel) (s : State) : Nat := (getUnit x.tag s).stall

/-- The placement of the unit that owns a channel. -/
def chanPlacement (x : Channel) (s : State) : Option Placement := getPlacement (getUnit x.tag s).placement s

/-- A fault falls on the channel; it is entered once no burst is in flight, and the first one stands (R267). -/
def faultChan (c cause pc : Nat) (s : State) : State :=
  modChan c (fun x => { x with
    pendingFault := some (x.pendingFault.getD cause), pc := if x.pendingFault.isSome then x.pc else pc, waitFor := none, afterMoves := none,
    cstate := if x.cstate == .stopping then .stopping else .run }) s

/-! ### Places a MOVE reads and writes -/

/-- A resolved place: device bytes, bytes of a crate, exchange bytes, host bytes, or bytes of a shard area. -/
inductive PLoc where
  | dev (a : Nat)
  | crate (h o : Nat)
  | rowx (a : Nat)
  | host (a : Nat)
  | shard (area o : Nat)
  deriving DecidableEq, Repr

/-- Bytes to the next 4 KiB boundary (R263). -/
def toPage (a : Nat) : Nat := 4096 - a % 4096

/-- The entry of a list and the offset in it at byte `off` from the start of entry `i`; BYTES bound an entry. -/
def listPlace (es : List (Nat × Nat)) : Nat → Nat → Nat → Option (Nat × Nat × Nat × Nat)
  | 0, _, _ => none
  | fuel + 1, i, off =>
    match es[i]? with
    | none => none
    | some (h, b) => if off < b then some (i, h, off, b - off) else listPlace es fuel (i + 1) (off - b)

/-- The address of a list operand and its first entry. -/
def listAddr (v : Nat) : Nat := v % 2 ^ 40
def listFirst (v : Nat) : Nat := v / 2 ^ 40

/-- The entries of a list as they stand. -/
def listEntries (a : Nat) (s : State) : List (Nat × Nat) := readEntries s (min 65536 (natOfLE (readDev a 4 s))) (a + 16)

/-- Whether a list's FILL flag is set. -/
def listFill (a : Nat) (s : State) : Bool := natOfLE (readDev (a + 4) 4 s) % 2 == 1

/-- Whether a crate lies within a channel's reach (Table 9.4). -/
def crateReach (x : Channel) (h : Nat) (s : State) : Bool :=
  match x.owner with
  | .unit => (match chanPlacement x s with | some p => unitMayRead p h s | none => false)
  | .host => (getCrate h s).tenant == x.tenant || (getCrate h s).rstate == 0
  | .engine => true
  | .none => false

/-- Whether device bytes lie within a unit's own stall store. -/
def inOwnStore (x : Channel) (a n : Nat) (s : State) : Bool :=
  let b := stallBase (chanStall x s)
  b ≤ a && a + n ≤ b + 0x200000

/-- Whether a list lies whole, and aligned, where its user may reach it (R197, R238, Table 9.4). -/
def listReach (x : Channel) (a : Nat) (s : State) : Bool :=
  let n := listSize a s
  a % 8 == 0 && devExists a && (match x.owner with
    | .engine => devExists (a + n - 1) && decide (a + n ≤ histBase)
    | _ => inOwnStore x a n s && x.owner == .unit
      || spanCrates (fun h => (getCrate h s).rstate != 0 && crateReach x h s) a n s)

/-- Whether a move may use a list: it is within reach and breaks no rule of Table 8.4. The destination of XC_ENCODE gets its BYTES and
TOTAL_BYTES from the move (R260), so only its COUNT is held to the table. -/
def listGood (x : Channel) (enc : Bool) (a : Nat) (s : State) : Bool :=
  listReach x a s && (if enc then 1 ≤ natOfLE (readDev a 4 s) && natOfLE (readDev a 4 s) ≤ 65536 else (readList a s).isSome)

/-- The place of byte `off` of an operand and how many bytes may follow in one burst, or a fault cause. A list that breaks a rule of Table
8.4 faults with ADDR, which Table 9.6 does not say (log entry 158). Which stall the STALL operand of an engine channel names is not stated
(free value 99, log entry 153). -/
def locate (x : Channel) (kind v off : Nat) (s : State) : Except Nat (PLoc × Nat) :=
  match kind with
  | 0 => .ok (.dev (v + off), toPage (v + off))
  | 1 =>
    let h := v / 2 ^ 32
    let o := v % 2 ^ 32 + off
    if !handleValid h s || classSize (handleClass h) ≤ o then .error pcAddr
    else .ok (.crate h o, min (toPage (crateAddr h s + o)) (classSize (handleClass h) - o))
  | 2 =>
    if !listGood x false (listAddr v) s then .error pcAddr
    else (match listPlace (listEntries (listAddr v) s) 65537 (listFirst v) off with
    | none => .error pcCrate
    | some (_, h, o, room) =>
      if h = 0 then .ok (.crate 0 o, min (toPage o) room)
      else .ok (.crate h o, min (toPage (crateAddr h s + o)) room))
  | 3 =>
    let st := if x.owner == .engine then Config.freeValue 99 v % 128 else chanStall x s
    if (x.owner == .unit || x.owner == .engine) && v + off < 0x200000 then .ok (.dev (stallBase st + v + off), toPage (v + off))
    else .error pcAddr
  | 4 => .ok (.rowx (v + off), toPage (v + off))
  | 5 => .ok (.host (v + off), toPage (v + off))
  | 7 => .ok (.shard (v / 2 ^ 61) (v % 2 ^ 48 + off), toPage (v % 2 ^ 48 + off))
  | _ => .error pcAddr

/-- Whether device bytes lie in the histogram window or its alias of a tag (R197). -/
def inHist (tag a n : Nat) : Bool :=
  (histBase + tag * 0x800 ≤ a && a + n ≤ histBase + tag * 0x800 + 0x800)
    || (histAlias + tag * 0x800 ≤ a && a + n ≤ histAlias + tag * 0x800 + 0x800)

/-- The bytes of a shard area. -/
def shardBytes (s : State) : Nat := 4 * osParams s

/-- Whether `n` bytes at a place lie within the reach: 0, or a fault cause (R255, Table 9.4). `viaStall` marks a STALL
operand, which reaches the unit's own store, or that of any stall for an engine; `c` is the channel. -/
def reachCause (c : Nat) (x : Channel) (dst viaStall : Bool) (l : PLoc) (n : Nat) (s : State) : Nat :=
  match l with
  | .dev a =>
    if viaStall then
      (if x.owner == .engine then (if (a - stallBase 0) % 0x200000 + n ≤ 0x200000 then 0 else pcAddr)
       else if inOwnStore x a n s then 0 else pcAddr)
    else (match x.owner with
      | .unit => if !dst && inHist x.tag a n then 0 else pcAddr
      | .engine => if devExists a && devExists (a + n - 1) && a < histBase then 0 else pcAddr
      | _ => pcAddr)
  | .crate h _ => if (getCrate h s).rstate = 0 then pcCrate else if crateReach x h s then 0 else pcAddr
  | .rowx a =>
    (match x.owner, chanPlacement x s with
    | .unit, some p => if rowxReach p a n then 0 else pcAddr
    | _, _ => pcAddr)
  | .host _ => if x.owner == .host || x.owner == .engine then 0 else pcAddr
  | .shard area o =>
    if x.owner == .engine && (!dst || stepChan c) && area ≤ 3 && o + n ≤ (if area ≤ 1 then shardBytes s else shardBytes s / 2) then 0 else pcAddr

/-- Count a refusal of an access to another tenant's crate or to an invalid handle (R222, R230). -/
def noteRefused (x : Channel) (c : Nat) (l : PLoc) (s : State) : State :=
  match l with
  | .crate h _ => if x.owner == .engine || (getCrate h s).tenant == x.tenant then s else badCrateOp h (chanOwnerCode c) s
  | _ => s

/-- The invalid handle, or the crate exceeded, that byte `off` of an operand names (R222, R223). -/
def badHandle (x : Channel) (kind v off : Nat) (s : State) : Option Nat :=
  match kind with
  | 1 =>
    let h := v / 2 ^ 32
    if !handleValid h s || classSize (handleClass h) ≤ v % 2 ^ 32 + off then some h else none
  | 2 =>
    if !listReach x (listAddr v) s then none
    else ((listEntries (listAddr v) s).find? fun e => e.1 != 0 && !handleValid e.1 s).map (·.1)
  | _ => none

/-- Count the refusal of an operand that names an invalid handle (R222). -/
def noteBad (x : Channel) (c kind v off : Nat) (s : State) : State :=
  match badHandle x kind v off s with
  | some h => badCrateOp h (chanOwnerCode c) s
  | none => s

/-- The crate a place lies in, by handle or by device address. -/
def placeCrate (l : PLoc) (s : State) : Option Nat :=
  match l with
  | .crate h _ => some h
  | .dev a => crateOfAddr a s
  | _ => none

/-- The pages of the shard a byte range of an area touches (R133). -/
def shardPages (area o n : Nat) (s : State) : List Nat :=
  let w := if area ≤ 1 then 4 else 2
  let es := osEntries s
  ((osPages es).zipIdx.filter fun p => match es[p.1.1]? with
    | some e =>
      let b := e.offset + p.1.2
      let len := min 262144 (e.size - p.1.2)
      decide (w * b < o + n) && decide (o < w * (b + len))
    | none => false).map (·.2)

/-- A shard area's bytes. -/
def shardArea (area : Nat) (s : State) : SMap Byte :=
  match area with
  | 0 => s.os.anchor | 1 => s.os.mom | 2 => s.os.cur | _ => if s.os.bank = 0 then s.os.resB else s.os.resA

/-- Write bytes into a shard area. -/
def writeShard (area o : Nat) (bs : List Byte) (s : State) : State :=
  modOs (fun x => match area with
    | 0 => { x with anchor := memWrite o bs x.anchor }
    | 1 => { x with mom := memWrite o bs x.mom }
    | k => if (k = 2) = (x.bank = 0) then { x with resA := memWrite o bs x.resA } else { x with resB := memWrite o bs x.resB }) s

/-- The bytes of the histogram window from an address (R197). -/
def histRead (a n : Nat) (s : State) : List Byte :=
  (List.range n).map fun i =>
    let o := (a + i) % 0x100000
    (histBytes (o / 0x800) (o % 0x800 / 0x200) s).getD (o % 0x200) 0#8

/-- Clear the slots an alias read touched. -/
def histReadClear (a n : Nat) (s : State) : State :=
  if a < histAlias then s
  else
    let o := a - histAlias
    ((List.range ((o + n - 1) / 0x200 + 1 - o / 0x200)).map (· + o / 0x200)).foldl (fun u k => histClear (k / 4) (k % 4) u) s

/-- Read `n` bytes of a place with their poison; host bytes are what the read returned. -/
def readPlace (l : PLoc) (n : Nat) (hostData : List Byte) (s : State) : List (Byte × Bool) × State :=
  match l with
  | .dev a => if histBase ≤ a then (clean (histRead a n s), histReadClear a n s) else (readDevP a n s, markUsedAt a n s)
  | .crate h o => (readCrate h o n s, markUsed h s)
  | .rowx a => (readRowx a n s, s)
  | .host _ => (clean ((hostData ++ List.replicate n 0#8).take n), s)
  | .shard area o =>
    let t := if area ≤ 1 then
        let u := (shardPages area o n s).foldl (fun w p => rollPage p w) s
        if !(pendingPages s).isEmpty && (pendingPages u).isEmpty then computeFps u else u
      else s
    (clean (memRead o n (shardArea area t)), t)

/-- Write bytes at a place. -/
def writePlace (l : PLoc) (fn : Nat) (bs : List (Byte × Bool)) (s : State) : State :=
  match l with
  | .dev a =>
    let t := writeDevP a bs s
    (match (if anyPoison bs then crateOfAddr a s else none) with | some h => setCratePoison h t | none => t)
  | .crate h o => writeCrate h o bs s
  | .rowx a => writeRowx a bs s
  | .host a => emit (.hostWrite fn a (bs.map (·.1))) s
  | .shard area o => writeShard area o (bs.map (·.1)) s

/-! ### Program and fetch (R252, R255) -/

/-- The device address of the instruction at a channel's pc, for a program in device memory, and whether the channel may fetch there. -/
def fetchAddr (x : Channel) (s : State) : Nat × Bool :=
  if x.progInStore then
    let o := x.prog + 32 * x.pc
    (stallBase (chanStall x s) + o, decide (o + 32 ≤ 0x200000) && o % 32 == 0)
  else
    let a := match x.owner with | .host => crateAddr (x.prog / 2 ^ 32) s + x.prog % 2 ^ 32 + 32 * x.pc | _ => x.prog + 32 * x.pc
    (a, a % 32 == 0 && (match crateOfAddr a s with
      | some h => (getCrate h s).rstate != 0 && crateReach x h s
      | none => false))

/-- The address a fetch from host memory reads. -/
def hostFetch (x : Channel) : Nat := x.prog + 32 * x.pc

/-- Why the instruction at a channel's pc cannot be taken, 0 when it can (R252, R253, R255): an address out of reach, a poisoned word, an
error of the host, or bytes that spell no instruction. The program of an engine channel is its engine's (log entry 44). -/
def fetchCause (x : Channel) (hostOk : Bool) (s : State) : Nat :=
  if x.owner == .engine then 0
  else if x.progHost then (if x.prog % 32 != 0 then pcFetch else if !hostOk then pcHost else 0)
  else
    let a := fetchAddr x s
    let bs := readDevP a.1 32 s
    if !a.2 || anyPoison bs then pcFetch
    else if (porterInstr 0 (bs.map (·.1))).isNone then pcBadInstr else 0

/-- Move past the instruction at pc: loops whose body ends there go round or end (R256). -/
def loopEnd : Nat → List LoopFrame → Nat → Nat × List LoopFrame
  | 0, ls, pc => (pc, ls)
  | fuel + 1, ls, pc =>
    match ls with
    | [] => (pc, [])
    | l :: rest =>
      if pc = l.first + l.body then
        if l.i + 1 < l.count then (l.first, { l with i := l.i + 1 } :: rest) else loopEnd fuel rest pc
      else (pc, ls)

/-- The channel after the instruction at pc. -/
def Channel.advance (x : Channel) : Channel :=
  let r := loopEnd 5 x.loops (x.pc + 1)
  { x with pc := r.1, loops := r.2 }

/-- An operand with the strides of the enclosing loops added (R257). -/
def strided (w : Nat) (rel : Bool) (v : Nat) (f : LoopFrame → Int) (x : Channel) : Nat :=
  if !rel then v else ofSigned w ((v : Int) + (x.loops.map fun l => (l.i : Int) * f l).sum)

/-- An engine channel is started by its owner, which the table has no row for: its first instruction starts it (log entry 44). -/
def engineStart (c : Nat) (s : State) : State :=
  let x := getChan c s
  if engineChan c s && x.cstate != .run && x.cstate != .wait && x.cstate != .stopping then
    setChan c { x with
      cstate := .run, owner := .engine, cause := 0, pc := 0, loops := [], moves := [], waitFor := none, afterMoves := none,
      pendingFault := none, stopCode := 0, tag := 0xFF, gen := 0, fn := 0xFF } s
  else s

/-- Run one instruction of a channel: nothing unless it is in RUN with nothing held back; one that cannot be taken faults it. -/
def runChan (c : Nat) (hostOk : Bool) (f : Channel → State → State) (s0 : State) : State :=
  let s := engineStart c s0
  let x := getChan c s
  if x.cstate != .run || x.pendingFault.isSome || x.afterMoves.isSome then s
  else if fetchCause x hostOk s = pcHost then faultChan c pcHost x.pc (hostFault x.fn (hostFetch x) s)
  else if fetchCause x hostOk s ≠ 0 then faultChan c (fetchCause x hostOk s) x.pc s
  else f x s

/-! ### MOVE (R253, R258, R259) -/

/-- The reserved bits of an operand are zero (Table 9.3). -/
def operandOk (kind v : Nat) : Bool :=
  match kind with
  | 3 => v < 2 ^ 21
  | 6 => v < 2 ^ 11
  | 7 => field v 60 48 == 0 && v / 2 ^ 61 ≤ 3
  | _ => v < 2 ^ 64

/-- Whether a MOVE is one the format and its CODE allow (R253, R259, R261). -/
def moveOk (code : MoveCode) (o : MoveOp) (x : Channel) : Bool :=
  let srcOk := code == .zero || (o.srcKind.val ≤ 5 || o.srcKind.val == 7)
  let dst := o.dstKind.val
  let dstOk := match code with
    | .copy => dst ≤ 7
    | .xcEncode => dst == 2
    | .xcCheck => dst ≤ 7 || dst == 0xF
    | .xcDecode | .zero => dst ≤ 7 && dst != 6
  let xcOk := match code with
    | .xcEncode => o.fmt.val ≤ 2 && 1 ≤ o.blockElems64 && o.blockElems64 ≤ 32 && o.length % elemBytes o.fmt.val == 0
    | _ => o.blockElems64 < 64
  o.reserved == 0 && srcOk && dstOk && xcOk && 1 ≤ o.length && o.length ≤ 2 ^ 31 && (dst != 6 || o.length ≤ 8192)
    && o.prio.val ≤ 2 && (x.owner == .engine || o.prio.val == 0)

/-- Issue a MOVE (R258): at most 4 in flight, and none earlier in flight under FENCE; else it waits. -/
def issueMove (c : Nat) (code : MoveCode) (o : MoveOp) (x : Channel) (s : State) : State :=
  let src := strided 64 o.srel o.src (·.sstride) x
  let dst := strided 64 o.drel o.dst (·.dstride) x
  if !moveOk code o x || (code != .zero && !operandOk o.srcKind.val src) || !operandOk o.dstKind.val dst then faultChan c pcBadInstr x.pc s
  else if o.dstKind.val = 6 && x.owner != .engine then faultChan c pcAddr x.pc s
  else if 4 ≤ x.moves.length || (o.fence && !x.moves.isEmpty) then s
  else
    let j : MoveJob := { code := code, op := o, src := src, dst := dst, pc := x.pc, id := x.issued }
    setChan c ({ x with moves := x.moves ++ [j], issued := x.issued + 1 } : Channel).advance s

/-! ### Ends of programs -/

/-- The job of a host channel ends (R469). -/
def endChanJob (x : Channel) (status cause : Nat) (s : State) : State :=
  match x.job with
  | some src => endJob src status cause x.stopCode x.bytes s
  | none => s

/-- Whether a host channel may operate on a tally: one in a block of KIND host that its tenant holds (R251). -/
def hostTally (t : Nat) (x : Channel) (s : State) : Bool :=
  (getTally t s).kind == 1 && s.comp.blocks.any fun b => b.has t && b.tenant == x.tenant

/-- A SIGNAL reaches the tally: dropped as stale when the unit's tag or generation is no longer its own (R160, R269); a tally that is
FREE by then, or no longer the tenant's, faults the channel (R251, R159). -/
def sendSignal (c t v : Nat) (s : State) : State :=
  let x := getChan c s
  let u := getUnit x.tag s
  if x.owner == .unit && !(u.active && u.gen == x.gen) then
    staleOp (setChan c ({ x with afterMoves := none } : Channel).advance s)
  else if (getTally t s).tstate = 0 then faultChan c pcTallyRange x.pc (tallyFreeOp s)
  else if x.owner == .host && !hostTally t x s then faultChan c pcTallyRange x.pc s
  else engineAdd t v (setChan c ({ x with afterMoves := none } : Channel).advance s)

/-- A channel without moves in flight does what waited for them: its SIGNAL or its STOP (R258). -/
def afterMoves (c : Nat) (s : State) : State :=
  let x := getChan c s
  if !x.moves.isEmpty then s
  else match x.afterMoves with
  | none => s
  | some (some (t, v), _) => sendSignal c t v s
  | some (none, code) =>
    let y : Channel := { x with afterMoves := none, cstate := .stop, stopCode := code }
    endChanJob y 0 0 (setChan c { y with job := none } s)

/-- A channel is entered into FAULT once no burst is in flight (R267); STOPPING ends in FAULT with cause OWNER (R268). -/
def enterFault (c : Nat) (s : State) : State :=
  let x := getChan c s
  if x.inFlight then s
  else if x.cstate == .stopping then
    let t := setChan c { x with cstate := .fault, cause := pcOwner, moves := [], job := none } s
    if x.releasing then freeChannel c t else t
  else match x.pendingFault with
  | none => s
  | some cause =>
    let s1 := { s with
      pools := { s.pools with waiting := s.pools.waiting.filter fun w => w.waiter != .porter c }
      sched := { s.sched with waiting := s.sched.waiting.filter fun w => w.chan != some c } }
    let s2 := setChan c { x with cstate := .fault, cause := cause, pendingFault := none, moves := [], job := none } s1
    let s3 := logEvent 0x5020 (c * 2 ^ 48 + cause * 2 ^ 40 + x.pc % 2 ^ 24) (addN O.PORTER_FAULTS 1 s2)
    match x.owner with
    | .unit =>
      let u := getUnit x.tag s3
      if u.active then unitEnds u.stall cTrap (noteTrap u.stall (0xFF00 + cause) s3) else s3
    | .host => endChanJob x 1 cause s3
    | _ => s3

/-- A move is complete: it leaves the channel. -/
def moveDone (c id : Nat) (s : State) : State :=
  afterMoves c (modChan c (fun x => { x with moves := x.moves.filter fun m => m.id != id }) s)

/-- Replace a move of the channel by its number. -/
def putMove (c : Nat) (k : MoveJob) (s : State) : State :=
  modChan c (fun x => { x with moves := x.moves.map fun m => if m.id = k.id then k else m }) s

/-- A move of the channel as it now stands. -/
def curMove (c : Nat) (j : MoveJob) (s : State) : MoveJob := ((getChan c s).moves.find? fun m => m.id == j.id).getD j

/-! ### Bursts (R263 to R266) -/

/-- The engine clock, 1.4 GHz. -/
def engineClock (s : State) : Nat := s.time.clocks * 28 / 25

/-- Staging slots a channel holds. -/
def chanSlots (x : Channel) : Nat := x.moves.foldl (fun a m => a + m.bursts.length) 0

/-- Staging slots of a die held. -/
def dieSlots (die : Nat) (s : State) : Nat :=
  (s.port.chans.filter fun p => chanDie p.1 == die).foldl (fun a p => a + chanSlots p.2) 0

/-- Whether the move gathers its source before it writes: the XC codes, and QUEUE destinations. -/
def gathers (j : MoveJob) : Bool :=
  j.op.dstKind.val == 6 || (match j.code with | .xcEncode | .xcCheck | .xcDecode => true | _ => false)

/-- The first move of a channel with bytes left to read. -/
def nextMove (x : Channel) : Option MoveJob := x.moves.find? fun m => m.readDone < m.op.length

/-- The priority of a channel's bursts (Table 9.9); CONTROL and RESEND are one class of them (R265, log entry 160). -/
def burstPrio (c : Nat) (s : State) : Nat := cfgPrio (chanCfg c s)

/-- Whether the next burst of a move reads a page of the shard that waits for its refill (R141). -/
def shardHeld (j : MoveJob) (s : State) : Bool :=
  j.code != .zero && j.op.srcKind.val == 7 && decide (j.src / 2 ^ 61 ≤ 1)
    && (shardPages (j.src / 2 ^ 61) (j.src % 2 ^ 48 + j.readDone) (min 4096 (j.op.length - j.readDone)) s).any fun p => pageHeld p s

/-- Whether a channel has a burst its rate limiter and slot limit allow (R265), and that waits for no refill. -/
def burstReady (die c : Nat) (x : Channel) (s : State) : Bool :=
  chanDie c == die && (x.cstate == .run || x.cstate == .wait) && x.pendingFault.isNone
    && (match nextMove x with | some j => !shardHeld j s | none => false)
    && chanSlots x < cfgStage (chanCfg c s) && x.nextBurst ≤ engineClock s

/-- Whether a staging slot of the die is free to a priority: 64 are kept for CONTROL and RESEND (R264). -/
def slotFree (die prio : Nat) (s : State) : Bool := dieSlots die s < (if prio = 0 then 960 else 1024)

/-- The next channel in turn after the last one served among those ready. -/
def nextInTurn (last : Nat) (cs : List Nat) : Option Nat :=
  match cs.find? fun c => last < c with
  | some c => some c
  | none => cs.head?

/-- The channel whose burst is taken next, with its priority class (R265). -/
def pickBurst (die : Nat) (s : State) : Option (Nat × Nat) :=
  let ready := (s.port.chans.filter fun p => burstReady die p.1 p.2 s).map (·.1)
  let high := ready.filter fun c => burstPrio c s != 0
  let low := ready.filter fun c => burstPrio c s == 0
  let last (k : Nat) : Nat := smGet (fun _ => 511) (die * 2 + k) s.port.rr
  match (if slotFree die 1 s then nextInTurn (last 1) high else none) with
  | some c => some (c, 1)
  | none => match (if slotFree die 0 s then nextInTurn (last 0) low else none) with
    | some c => some (c, 0)
    | none => none

/-- The size of the next burst of a move, and the places it reads and, for a plain move, writes. -/
def burstOf (x : Channel) (j : MoveJob) (s : State) : Except Nat (Nat × Option PLoc) :=
  let left := j.op.length - j.readDone
  let src : Except Nat (Option PLoc × Nat) :=
    if j.code == .zero then .ok (none, 4096)
    else (locate x j.op.srcKind.val j.src j.readDone s).map fun p => (some p.1, p.2)
  match src with
  | .error e => .error e
  | .ok (l, room) =>
    if gathers j || j.op.dstKind.val = 0xF then .ok (min left (min 4096 room), l)
    else match locate x j.op.dstKind.val j.dst j.readDone s with
      | .error e => .error e
      | .ok (_, room2) => .ok (min left (min 4096 (min room room2)), l)

/-- Every channel whose NORMAL burst now waits for a slot is noted (EV-0x5021). -/
def noteSlotWaits (die : Nat) (s : State) : State :=
  if slotFree die 0 s then s
  else
    let note (p : Nat × Channel) : Nat × Channel :=
      if burstReady die p.1 p.2 s && burstPrio p.1 s == 0 && p.2.slotSince.isNone then
        (p.1, { p.2 with slotSince := some s.time.clocks })
      else p
    { s with port := { s.port with chans := s.port.chans.map note } }

/-- The device address of a place, when it has one. -/
def placeAddr (l : PLoc) (s : State) : Option Nat :=
  match l with | .dev a => some a | .crate h o => some (crateAddr h s + o) | _ => none

/-- Whether a place lies in an HBM stack that is too hot (Table 20.10). The spec does not give the stack of an address (log entry 172). -/
def inHotStack (l : PLoc) (s : State) : Bool :=
  match placeAddr l s with
  | some a => a < hbmEnd && bitOf s.dev.hot (12 + Config.hbmStack a % 6)
  | none => false

/-- The RATE a burst is read at: the channel's; for a NORMAL burst 32 at most while OT_THROTTLE is set for the line die of its engine or
for an HBM stack it reads or writes (Table 20.10). -/
def burstRate (die c : Nat) (j : MoveJob) (src : Option PLoc) (s : State) : Nat :=
  let rate := max 1 (cfgRate (chanCfg c s))
  let dst := match locate (getChan c s) j.op.dstKind.val j.dst j.readDone s with | .ok (p, _) => inHotStack p s | .error _ => false
  let src := match src with | some p => inHotStack p s | none => false
  if bitOf (getN O.EMERG_FLAGS s) 1 && burstPrio c s == 0 && (bitOf s.dev.hot (2 + die) || dst || src) then min 32 rate else rate

/-- The read of one burst: the bytes go into staging, or the fault falls (R255, R263, R266). -/
def takeBurst (die c prio : Nat) (hostData : List Byte) (hostOk : Bool) (s : State) : State :=
  let x := getChan c s
  match nextMove x with
  | none => s
  | some j => match burstOf x j s with
    | .error e =>
      faultChan c e j.pc (if j.code != .zero && (badHandle x j.op.srcKind.val j.src j.readDone s).isSome
        then noteBad x c j.op.srcKind.val j.src j.readDone s else noteBad x c j.op.dstKind.val j.dst j.readDone s)
    | .ok (n, l) =>
      let cause := match l with | some p => reachCause c x false (j.op.srcKind.val == 3) p n s | none => 0
      if cause ≠ 0 then faultChan c cause j.pc (match l with | some p => noteRefused x c p s | none => s)
      else if !hostOk && (match l with | some (.host _) => true | _ => false) then
        faultChan c pcHost j.pc (match l with | some (.host a) => hostFault x.fn a s | _ => s)
      else
        let (bs, s1) := match l with
          | some p => readPlace p n hostData s
          | none => (clean (List.replicate n 0#8), s)
        let dnt := match l.bind fun p => placeCrate p s with | some h => (getCrate h s).dnt | none => false
        let k : MoveJob := { j with readDone := j.readDone + n, bursts := j.bursts ++ [(j.readDone, bs)], srcDnt := j.srcDnt || dnt }
        let rate := burstRate die c j l s
        let late := match x.slotSince with | some t => decide (125000 < s.time.clocks - t) | none => false
        let s2 := modChan c (fun y => { y with nextBurst := engineClock s + (n + 4 * rate - 1) / (4 * rate), slotSince := none }) (putMove c k s1)
        let s3 := { s2 with port := { s2.port with rr := smPut (fun _ => 511) (die * 2 + prio) c s2.port.rr } }
        let s4 := if dnt then j.wrote.foldl (fun u h => setDnt h u) s3 else s3
        let s5 := if late then logEvent 0x5021 (c * 2 ^ 48 + die) s4 else s4
        maxN (O.STAGE_PEAK + die) (dieSlots die s5) s5

/-- A free read engine of a die takes the next ready burst (R265). -/
def porterBurst (die : Nat) (hostData : List Byte) (hostOk : Bool) (s : State) : State :=
  let t := noteSlotWaits die s
  match pickBurst die t with
  | some (c, prio) => takeBurst die c prio hostData hostOk t
  | none => t

/-! ### Writes -/

/-- The request a FILL entry or a QUEUE destination makes (R261). -/
def fillReq (c : Nat) (x : Channel) (j : MoveJob) (size : Nat) : CrateReq :=
  { size := size, loc := if j.op.dstKind.val = 6 then 1 else j.op.loc, prio := Fin.ofNat 3 j.op.prio.val, spill := j.op.spill,
    nowait := j.op.nowait, die := Fin.ofNat 2 (chanDie c), owner := chanOwnerCode c, tenant := Fin.ofNat 64 x.tenant }

/-- Whether a crate request of the channel waits. -/
def crateWaits (c : Nat) (s : State) : Bool := s.pools.waiting.any fun w => w.waiter == .porter c

/-- The place of the entry a list write of a move has reached. -/
def fillEntry (j : MoveJob) (off : Nat) (s : State) : Option Nat :=
  if j.code == .xcEncode then some (listFirst j.dst + j.listEntry)
  else (listPlace (listEntries (listAddr j.dst) s) 65537 (listFirst j.dst) off).map (·.1)

/-- A crate has been given to the move that asked for one: it goes into the list entry, or is the crate of a QUEUE move. -/
def giveCrate (c h : Nat) (s : State) : State :=
  let x := getChan c s
  match x.moves.find? fun m => m.id == x.asker with
  | none => s
  | some j =>
    let s1 := modChan c (fun y => { y with crates := h :: y.crates }) s
    if j.op.dstKind.val = 6 then putMove c { j with qCrate := h } s1
    else
      let off := match j.bursts with | b :: _ => b.1 | [] => 0
      match fillEntry j off s1 with
      | some i => writeDev (listAddr j.dst + 16 + 8 * i) (bytesLE 4 h) s1
      | none => s1

/-- Ask for a crate for a channel: given, waiting, or the fault CRATE. -/
def askCrate (c : Nat) (j : MoveJob) (size : Nat) (s0 : State) : State :=
  let s := modChan c (fun y => { y with asker := j.id }) s0
  let q := fillReq c (getChan c s) j size
  match tryCrate q s with
  | (.served h, t) => giveCrate c h t
  | (.wait cls, t) => { t with pools := { t.pools with waiting := t.pools.waiting ++ [⟨cls, q, .porter c⟩] } }
  | (.noCrate cls, t) => faultChan c pcCrate j.pc (refuseCrate cls q.prio t)
  | (.tooBig, t) => faultChan c pcCrate j.pc t

/-- A channel whose move has written a crate. -/
def Channel.noteWrote (id h : Nat) (x : Channel) : Channel :=
  { x with moves := x.moves.map (fun m => if m.id == id && !(m.wrote.contains h) then { m with wrote := h :: m.wrote } else m) }

/-- A move writes a crate: it is marked when the source has carried DNT, and else kept in mind until the move reads such a crate
(R236). -/
def passDnt (c : Nat) (j : MoveJob) (l : PLoc) (s : State) : State :=
  match placeCrate l s with
  | some h => if j.srcDnt then setDnt h s else modChan c (Channel.noteWrote j.id h) s
  | none => s

/-- The outcome of one write of a move: written, held back for a crate, or a fault. -/
inductive WriteResult where
  | done | held | fault
  deriving DecidableEq, Repr

/-- Whether the write of a burst in flight of a channel that is stopping still lands (R268): where its owner has gone, in a crate its
tenant still holds, and in exchange space no placement has. -/
def lastWrite (x : Channel) (l : PLoc) (s : State) : Bool :=
  match l with
  | .crate h _ => (getCrate h s).rstate == 1 && (x.owner == .engine || (getCrate h s).tenant == x.tenant)
  | .rowx a => !(s.comp.placements.any fun p => p.2.rowx.any fun r => decide (r.2.1 ≤ a) && decide (a < r.2.2))
  | _ => true

/-- Write bytes of a move at a place within reach. -/
def writeAt (c : Nat) (j : MoveJob) (l : PLoc) (bs : List (Byte × Bool)) (hostOk : Bool) (s : State) : WriteResult × State :=
  let x := getChan c s
  if x.cstate == .stopping && (chanPlacement x s).isNone && x.owner == .unit then
    (.done, if lastWrite x l s then passDnt c j l (addN (O.PORTER_BYTES + chanDie c) bs.length (writePlace l x.fn bs s)) else s)
  else
  let cause := reachCause c x true (j.op.dstKind.val == 3) l bs.length s
  if cause ≠ 0 then (.fault, faultChan c cause j.pc (noteRefused x c l s))
  else if !hostOk && (match l with | .host _ => true | _ => false) then
    (.fault, faultChan c pcHost j.pc (match l with | .host a => hostFault x.fn a s | _ => s))
  else (.done, passDnt c j l (addN (O.PORTER_BYTES + chanDie c) bs.length
    (modChan c (fun y => { y with bytes := y.bytes + bs.length }) (writePlace l x.fn bs s))))

/-- Write bytes of a move at offset `off` of its destination; an empty FILL entry gets its crate first (R261). -/
def moveWrite (c : Nat) (j : MoveJob) (off : Nat) (bs : List (Byte × Bool)) (hostOk : Bool) (s : State) : WriteResult × State :=
  match locate (getChan c s) j.op.dstKind.val j.dst off s with
  | .error e => (.fault, faultChan c e j.pc (noteBad (getChan c s) c j.op.dstKind.val j.dst off s))
  | .ok (.crate 0 _, _) =>
    if !listFill (listAddr j.dst) s then (.fault, faultChan c pcAddr j.pc s)
    else if crateWaits c s then (.held, s)
    else
      let t := askCrate c j (min mib (j.op.length - off)) s
      if (getChan c t).pendingFault.isSome then (.fault, t)
      else if crateWaits c t then (.held, t)
      else match locate (getChan c t) j.op.dstKind.val j.dst off t with
        | .ok (l, _) => writeAt c j l bs hostOk t
        | .error e => (.fault, faultChan c e j.pc t)
  | .ok (l, _) => writeAt c j l bs hostOk s

/-- Write a run of bytes of a gathered move from what it has written on, cut where places end. -/
def writeRun (c : Nat) (hostOk : Bool) (out : List (Byte × Bool)) : Nat → MoveJob → State → WriteResult × State
  | 0, _, s => (.held, s)
  | fuel + 1, j, s =>
    let bs := out.drop j.written
    if bs.isEmpty then (.done, s)
    else
      let room := match locate (getChan c s) j.op.dstKind.val j.dst j.written s with | .ok (_, r) => r | .error _ => 1
      let n := min bs.length (max 1 room)
      match moveWrite c j j.written (bs.take n) hostOk s with
      | (.done, t) =>
        let k := { curMove c j t with written := j.written + n }
        writeRun c hostOk out fuel k (putMove c k t)
      | r => r

/-- Blocks of an XC stream as a porter reads them: the bytes and elements before the first damaged block, and its cause and
offset (R218, R262). -/
def checkStream (tables : List (List Byte)) (fmt : Nat) : Nat → Nat → List (Byte × Bool) →
    List (Byte × Bool) × List XcElem × Option (Nat × Nat)
  | 0, off, _ => ([], [], some (8, off))
  | fuel + 1, off, bs =>
    if bs.isEmpty then ([], [], none)
    else match xcDecodeBlock tables fmt bs with
      | .ok es len =>
        if bs.length < len then ([], [], some (8, off))
        else
          let r := checkStream tables fmt fuel (off + len) (bs.drop len)
          (bs.take len ++ r.1, es ++ r.2.1, r.2.2)
      | .bad cause _ _ => ([], [], some (cause, off))

/-- A damaged block found by a porter engine (R218, R262). -/
def porterDamage (c : Nat) (j : MoveJob) (d : Nat × Nat) (s : State) : State :=
  faultChan c pcXcDamage j.pc (logEvent 0x5011 (d.1 * 2 ^ 56 + c * 2 ^ 32 + d.2 % 2 ^ 32) (addN O.XC_DAMAGED 1 s))

/-- The RAW size of what XC_ENCODE has still to encode (R261). -/
def rawLeft (j : MoveJob) : Nat :=
  let w := elemBytes j.op.fmt.val
  let b := max 1 (64 * j.op.blockElems64)
  let n := j.op.length / max 1 w - j.blocks * b
  n * w + 8 * ((n + b - 1) / b)

/-- One block of XC_ENCODE is written at its place, poisoned when an element of it came poisoned (R236, log entry 157). -/
def putBlock (c : Nat) (j : MoveJob) (h i : Nat) (b : List Byte × Bool) (s : State) : State :=
  let n := j.written + b.1.length
  let w := 64 * j.op.blockElems64 * elemBytes j.op.fmt.val
  let p := anyPoison ((j.gathered.drop (j.blocks * w)).take w)
  let s1 := writeDev (listAddr j.dst + 20 + 8 * i) (bytesLE 4 n)
    (passDnt c j (.crate h 0) (writeCrate h j.written (b.1.map fun x => (x, p)) s))
  let s2 := noteEncode (min w (j.op.length - j.blocks * w)) [b] s1
  let s3 := addN (O.PORTER_BYTES + chanDie c) b.1.length s2
  modChan c (fun y => { y with bytes := y.bytes + b.1.length }) (putMove c { curMove c j s3 with written := n, blocks := j.blocks + 1 } s3)

/-- Write the blocks of XC_ENCODE: whole blocks into the current entry while they fit, then the next (R260). -/
def writeBlocks (c : Nat) (all : List (List Byte × Bool)) : Nat → MoveJob → State → WriteResult × State
  | 0, _, s => (.held, s)
  | fuel + 1, j, s =>
    match all[j.blocks]? with
    | none => (.done, s)
    | some b =>
      let x := getChan c s
      let i := listFirst j.dst + j.listEntry
      match (listEntries (listAddr j.dst) s)[i]? with
      | none => (.fault, faultChan c pcCrate j.pc s)
      | some (h, _) =>
        if h = 0 then
          if !listFill (listAddr j.dst) s then (.fault, faultChan c pcAddr j.pc s)
          else if crateWaits c s then (.held, s)
          else
            let t := askCrate c j (min mib (rawLeft j)) s
            if (getChan c t).pendingFault.isSome then (.fault, t)
            else if crateWaits c t then (.held, t)
            else writeBlocks c all fuel (curMove c j t) t
        else if !handleValid h s then (.fault, faultChan c pcAddr j.pc (badCrateOp h (chanOwnerCode c) s))
        else
          let cause := reachCause c x true false (.crate h 0) b.1.length s
          if cause ≠ 0 then (.fault, faultChan c cause j.pc (noteRefused x c (.crate h 0) s))
          else if classSize (handleClass h) < j.written + b.1.length then
            if j.written = 0 then (.fault, faultChan c pcCrate j.pc s)
            else
              let k := { j with listEntry := j.listEntry + 1, written := 0 }
              writeBlocks c all fuel k (putMove c k s)
          else
            let t := putBlock c j h i b s
            writeBlocks c all fuel (curMove c j t) t

/-- TOTAL_BYTES of a list is set from its entries. -/
def setTotal (a : Nat) (s : State) : State :=
  writeDev (a + 8) (bytesLE 8 ((listEntries a s).foldl (fun t e => t + e.2) 0)) s

/-- The blocks XC_ENCODE makes of a source (R207, R259). -/
def encodeBlocks (j : MoveJob) (s : State) : List (List Byte × Bool) :=
  let f := j.op.fmt.val
  xcEncode f j.op.table.val (xcTable j.op.table.val s) (64 * j.op.blockElems64) (codesOf f (j.gathered.map (·.1)))

/-- XC_ENCODE with its whole source read (R260). -/
def finishEncode (c : Nat) (j : MoveJob) (s : State) : State :=
  let all := encodeBlocks j s
  if j.op.dstKind.val = 2 && !listGood (getChan c s) true (listAddr j.dst) s then faultChan c pcAddr j.pc s
  else match writeBlocks c all (3 * all.length + 65537) j s with
    | (.done, t) => moveDone c j.id (setTotal (listAddr j.dst) t)
    | (_, t) => t

/-- XC_CHECK or XC_DECODE with its whole stream read: what stands before the first damaged block is written, then the
damage faults the channel (R262). -/
def finishStream (c : Nat) (j : MoveJob) (hostOk : Bool) (s : State) : State :=
  let r := checkStream (xcTables s) j.op.fmt.val (j.gathered.length + 8) 0 j.gathered
  let out : List (Byte × Bool) :=
    if j.code == .xcCheck then r.1
    else r.2.1.flatMap fun e => (bytesLE (elemBytes j.op.fmt.val) e.code).map fun b => (b, e.poison)
  let w := if j.op.dstKind.val = 0xF then (WriteResult.done, s) else writeRun c hostOk out (out.length + 1) j s
  match w with
  | (.done, t) => (match r.2.2 with | some d => porterDamage c j d t | none => moveDone c j.id t)
  | (_, t) => t

/-- Hand the segment of a QUEUE move to its transmit queue, and its crate to the line engine (R254, R258, R259). -/
def queueSegment (c : Nat) (j : MoveJob) (s : State) : State :=
  let s0 := passDnt c j (.crate j.qCrate 0) (writeCrate j.qCrate 0 j.gathered s)
  let s1 := setCrate j.qCrate { getCrate j.qCrate s0 with owner := 0x3000 } s0
  let seg := segOfBytes (j.gathered.map (·.1))
  let s2 := addN (O.PORTER_BYTES + chanDie c) j.gathered.length
    (modChan c (fun y => { y with bytes := y.bytes + j.gathered.length, crates := y.crates.filter (· != j.qCrate) }) s1)
  match enqueueSeg (j.dst % 8) (j.dst / 8 % 4) (j.dst / 32 % 64) { seg := seg, crate := j.qCrate } (some c) s2 with
  | (.waits, t) => putMove c { curMove c j t with queueWait := true } t
  | (_, t) => moveDone c j.id t

/-- A QUEUE move with its whole source read: a stream is checked first; one C8K crate is taken, then the segment queued. -/
def finishQueue (c : Nat) (j : MoveJob) (s : State) : State :=
  let damage := if j.code == .xcCheck then
      (checkStream (xcTables s) j.op.fmt.val (j.gathered.length + 8) 0 j.gathered).2.2 else none
  match damage with
  | some d => porterDamage c j d s
  | none =>
    if j.queueWait || crateWaits c s then s
    else if j.qCrate ≠ 0 then queueSegment c j s
    else
      let t := askCrate c j 8192 s
      let k := curMove c j t
      if k.qCrate = 0 then t else queueSegment c k t

/-- A waiting enqueue of a channel has found room: its QUEUE move is complete (R258). -/
def queueRoomFound (c : Nat) (s : State) : State :=
  match (getChan c s).moves.find? fun m => m.queueWait with
  | some j => moveDone c j.id s
  | none => s

/-- A move whose source has been read to the end and whose bursts have all landed goes on to its end. -/
def finishMove (c : Nat) (j : MoveJob) (hostOk : Bool) (s : State) : State :=
  if j.readDone < j.op.length || !j.bursts.isEmpty then s
  else if j.op.dstKind.val = 6 then finishQueue c j s
  else match j.code with
    | .xcEncode => finishEncode c j s
    | .xcCheck | .xcDecode => finishStream c j hostOk s
    | _ => moveDone c j.id s

/-- A move with one burst less in flight. -/
def dropBurst (c : Nat) (j : MoveJob) (rest : List (Nat × List (Byte × Bool))) (more : List (Byte × Bool)) (s : State) : State :=
  putMove c { curMove c j s with bursts := rest, gathered := j.gathered ++ more } s

/-- After an acknowledgement: a channel that stops or faults is entered into FAULT when nothing is left in flight; else the
move goes on. -/
def afterBurst (c : Nat) (j : MoveJob) (hostOk : Bool) (s : State) : State :=
  let x := getChan c s
  if x.cstate == .stopping then enterFault c s
  else if x.pendingFault.isSome then s
  else finishMove c (curMove c j s) hostOk s

/-- The oldest burst in flight of a channel is acknowledged: written at its place, or gathered, and its slot is free (R264).
With none in flight, a move held back for a crate goes on. -/
def burstDone (c : Nat) (hostOk : Bool) (s : State) : State :=
  let x := getChan c s
  match x.moves.find? fun m => !m.bursts.isEmpty with
  | some j =>
    (match j.bursts with
    | [] => s
    | (off, bs) :: rest =>
      if gathers j then afterBurst c j hostOk (dropBurst c j rest bs s)
      else match moveWrite c j off bs hostOk s with
        | (.held, t) => if x.cstate == .stopping then afterBurst c j hostOk (dropBurst c j rest [] s) else t
        | (_, t) => afterBurst c j hostOk (dropBurst c j rest [] t))
  | none =>
    if x.pendingFault.isSome || x.cstate == .stopping then s
    else match x.moves.find? fun m => m.readDone == m.op.length && !m.queueWait with
      | some j => finishMove c j hostOk s
      | none => s

end Sys2Proof.Machine
end

