-- ==== Sys2Proof/Machine/Sha.lean ====
section
/-! DEFINITION. SHA-384 (FIPS 180-4), HMAC and the counter-mode KDF (NIST SP 800-108), and P-384 (FIPS 186-5), which R499, R502,
R512 and Table 18.7 name. -/

namespace Sys2Proof.Machine

/-! ### SHA-384 -/

/-- The 80 round constants. -/
def shaK : List Nat :=
  [0x428a2f98d728ae22, 0x7137449123ef65cd, 0xb5c0fbcfec4d3b2f, 0xe9b5dba58189dbbc]
  ++ [0x3956c25bf348b538, 0x59f111f1b605d019, 0x923f82a4af194f9b, 0xab1c5ed5da6d8118]
  ++ [0xd807aa98a3030242, 0x12835b0145706fbe, 0x243185be4ee4b28c, 0x550c7dc3d5ffb4e2]
  ++ [0x72be5d74f27b896f, 0x80deb1fe3b1696b1, 0x9bdc06a725c71235, 0xc19bf174cf692694]
  ++ [0xe49b69c19ef14ad2, 0xefbe4786384f25e3, 0xfc19dc68b8cd5b5, 0x240ca1cc77ac9c65]
  ++ [0x2de92c6f592b0275, 0x4a7484aa6ea6e483, 0x5cb0a9dcbd41fbd4, 0x76f988da831153b5]
  ++ [0x983e5152ee66dfab, 0xa831c66d2db43210, 0xb00327c898fb213f, 0xbf597fc7beef0ee4]
  ++ [0xc6e00bf33da88fc2, 0xd5a79147930aa725, 0x6ca6351e003826f, 0x142929670a0e6e70]
  ++ [0x27b70a8546d22ffc, 0x2e1b21385c26c926, 0x4d2c6dfc5ac42aed, 0x53380d139d95b3df]
  ++ [0x650a73548baf63de, 0x766a0abb3c77b2a8, 0x81c2c92e47edaee6, 0x92722c851482353b]
  ++ [0xa2bfe8a14cf10364, 0xa81a664bbc423001, 0xc24b8b70d0f89791, 0xc76c51a30654be30]
  ++ [0xd192e819d6ef5218, 0xd69906245565a910, 0xf40e35855771202a, 0x106aa07032bbd1b8]
  ++ [0x19a4c116b8d2d0c8, 0x1e376c085141ab53, 0x2748774cdf8eeb99, 0x34b0bcb5e19b48a8]
  ++ [0x391c0cb3c5c95a63, 0x4ed8aa4ae3418acb, 0x5b9cca4f7763e373, 0x682e6ff3d6b2b8a3]
  ++ [0x748f82ee5defb2fc, 0x78a5636f43172f60, 0x84c87814a1f0ab72, 0x8cc702081a6439ec]
  ++ [0x90befffa23631e28, 0xa4506cebde82bde9, 0xbef9a3f7b2c67915, 0xc67178f2e372532b]
  ++ [0xca273eceea26619c, 0xd186b8c721c0c207, 0xeada7dd6cde0eb1e, 0xf57d4f7fee6ed178]
  ++ [0x6f067aa72176fba, 0xa637dc5a2c898a6, 0x113f9804bef90dae, 0x1b710b35131c471b]
  ++ [0x28db77f523047d84, 0x32caab7b40c72493, 0x3c9ebe0a15c9bebc, 0x431d67c49c100d4c]
  ++ [0x4cc5d4becb3e42b6, 0x597f299cfc657e2a, 0x5fcb6fab3ad6faec, 0x6c44198c4a475817]

/-- The initial hash value. -/
def shaH0 : List Nat :=
  [0xcbbb9d5dc1059ed8, 0x629a292a367cd507, 0x9159015a3070dd17, 0x152fecd8f70e5939]
  ++ [0x67332667ffc00b31, 0x8eb44a8768581511, 0xdb0c2e0d64f98fa7, 0x47b5481dbefa4fa4]

/-- Reduce to 64 bits. -/
def w64 (x : Nat) : Nat := x % 2 ^ 64

/-- Rotate a 64-bit word right. -/
def rotr (n x : Nat) : Nat := x / 2 ^ n + x % 2 ^ n * 2 ^ (64 - n)

/-- The functions of the message schedule and of the rounds. -/
def sSmall0 (x : Nat) : Nat := Nat.xor (Nat.xor (rotr 1 x) (rotr 8 x)) (x / 2 ^ 7)
def sSmall1 (x : Nat) : Nat := Nat.xor (Nat.xor (rotr 19 x) (rotr 61 x)) (x / 2 ^ 6)
def sBig0 (x : Nat) : Nat := Nat.xor (Nat.xor (rotr 28 x) (rotr 34 x)) (rotr 39 x)
def sBig1 (x : Nat) : Nat := Nat.xor (Nat.xor (rotr 14 x) (rotr 18 x)) (rotr 41 x)

/-- Extend the schedule, held newest first. -/
def shaExpand : Nat → List Nat → List Nat
  | 0, w => w
  | n + 1, w =>
    let x := w64 (sSmall1 (w.getD 1 0) + w.getD 6 0 + sSmall0 (w.getD 14 0) + w.getD 15 0)
    shaExpand n (x :: w)

/-- The rounds over constants and schedule. -/
def shaRounds : List (Nat × Nat) → List Nat → List Nat
  | (k, w) :: r, [a, b, c, d, e, f, g, h] =>
    let ch := Nat.xor (Nat.land e f) (Nat.land (2 ^ 64 - 1 - e) g)
    let maj := Nat.xor (Nat.xor (Nat.land a b) (Nat.land a c)) (Nat.land b c)
    let t1 := h + sBig1 e + ch + k + w
    let t2 := sBig0 a + maj
    shaRounds r [w64 (t1 + t2), a, b, c, w64 (d + t1), e, f, g]
  | _, v => v

/-- One block of 128 bytes. -/
def shaBlock (h : List Nat) (block : List Byte) : List Nat :=
  let ws := (shaExpand 64 ((piecesOf 8 17 block).map natOfBE).reverse).reverse
  List.zipWith (fun a b => w64 (a + b)) h (shaRounds (shaK.zip ws) h)

/-- The SHA-384 digest, 48 bytes. -/
def sha384 (m : List Byte) : List Byte :=
  let padded := m ++ [0x80#8] ++ List.replicate ((239 - m.length % 128) % 128) 0#8 ++ bytesBE 16 (8 * m.length)
  ((piecesOf 128 (padded.length + 1) padded).foldl shaBlock shaH0).flatMap (bytesBE 8) |>.take 48

/-- HMAC-SHA-384. -/
def hmac384 (key m : List Byte) : List Byte :=
  let k0 := (if 128 < key.length then sha384 key else key)
  let k := k0 ++ List.replicate (128 - k0.length) 0#8
  sha384 (k.map (· ^^^ 0x5C#8) ++ sha384 (k.map (· ^^^ 0x36#8) ++ m))

/-- The KDF in counter mode: `n` bytes for a label and a one-byte context; counter and length are 32-bit fields (log entry
54). -/
def kdf384 (key : List Byte) (label : Nat) (ctx n : Nat) : List Byte :=
  ((List.range (n / 48 + 1)).flatMap fun i =>
    hmac384 key (bytesBE 4 (i + 1) ++ bytesBE 4 label ++ [0#8] ++ bytesBE 1 ctx ++ bytesBE 4 (8 * n))).take n

/-! ### P-384 -/

/-- The field, the order of the base point, the coefficient b and the base point. -/
def p384p : Nat := 2 ^ 384 - 2 ^ 128 - 2 ^ 96 + 2 ^ 32 - 1
def p384n : Nat := 0xffffffffffffffffffffffffffffffffffffffffffffffffc7634d81f4372ddf581a0db248b0a77aecec196accc52973
def p384b : Nat := 0xb3312fa7e23ee7e4988e056be3f82d19181d9c6efe8141120314088f5013875ac656398d8a2ed19d2a85c8edd3ec2aef
def p384g : Nat × Nat :=
  (0xaa87ca22be8b05378eb1c71ef320ad746e1d3b628ba79b9859f741e082542a385502f25dbf55296c3a545e3872760ab7,
   0x3617de4a96262c6f5d9e98bf9292dc29f8f41dbd289a147ce9da3113b5f0b8c00a60b1ce1d7e819d7a431d7c90ea0e5f)

/-- A power modulo `m`, by the bits of the exponent from bit `n` down. -/
def powMod (m b e : Nat) : Nat → Nat → Nat
  | 0, acc => acc
  | n + 1, acc =>
    let sq := acc * acc % m
    powMod m b e n (if bitOf e n then sq * b % m else sq)

/-- The inverse modulo a prime. -/
def invMod (m a : Nat) : Nat := powMod m (a % m) (m - 2) 384 1

/-- The sum of two points; none is the point at infinity. -/
def p384Add : Option (Nat × Nat) → Option (Nat × Nat) → Option (Nat × Nat)
  | none, q => q
  | p, none => p
  | some (x1, y1), some (x2, y2) =>
    if x1 = x2 ∧ (y1 + y2) % p384p = 0 then none
    else
      let l := if x1 = x2 then (3 * x1 * x1 + (p384p - 3)) * invMod p384p (2 * y1) % p384p
        else (y2 + p384p - y1) * invMod p384p (x2 + p384p - x1) % p384p
      let x3 := (l * l + 2 * p384p - x1 - x2) % p384p
      some (x3, (l * (x1 + p384p - x3) + p384p - y1) % p384p)

/-- A difference in the field. -/
def p384Sub (a b : Nat) : Nat := (a + (p384p - b % p384p)) % p384p

/-- A point in Jacobian coordinates doubled: `(x, y, z)` stands for the point `(x / z ^ 2, y / z ^ 3)`, and `z = 0` for the point at
infinity. -/
def p384Dbl (j : Nat × Nat × Nat) : Nat × Nat × Nat :=
  let (x, y, z) := j
  let zz := z * z % p384p
  let yy := y * y % p384p
  let b := x * yy % p384p
  let a := 3 * p384Sub x zz * (x + zz) % p384p
  let x3 := p384Sub (a * a) (8 * b)
  (x3, p384Sub (a * p384Sub (4 * b) x3) (8 * yy * yy), 2 * y * z % p384p)

/-- A point in Jacobian coordinates and one in plain coordinates added. -/
def p384AddJ (j : Nat × Nat × Nat) (q : Nat × Nat) : Nat × Nat × Nat :=
  let (x, y, z) := j
  let (x2, y2) := q
  if z = 0 then (x2, y2, 1)
  else
    let zz := z * z % p384p
    let h := p384Sub (x2 * zz) x
    let r := p384Sub (y2 * zz * z) y
    if h = 0 then (if r = 0 then p384Dbl j else (1, 1, 0))
    else
      let hh := h * h % p384p
      let h3 := h * hh % p384p
      let v := x * hh % p384p
      let x3 := p384Sub (r * r) (h3 + 2 * v)
      (x3, p384Sub (r * p384Sub v x3) (y * h3), z * h % p384p)

/-- A multiple of a point in Jacobian coordinates, by the bits of the scalar from bit `n` down. -/
def p384MulJ (k : Nat) (q : Nat × Nat) : Nat → Nat × Nat × Nat → Nat × Nat × Nat
  | 0, acc => acc
  | n + 1, acc =>
    let d := p384Dbl acc
    p384MulJ k q n (if bitOf k n then p384AddJ d q else d)

/-- A multiple of a point by a scalar below 2 ^ 384. -/
def p384Mul (k : Nat) (q : Nat × Nat) : Option (Nat × Nat) :=
  let (x, y, z) := p384MulJ k q 384 (1, 1, 0)
  if z = 0 then none
  else
    let i := invMod p384p z
    let ii := i * i % p384p
    some (x * ii % p384p, y * ii * i % p384p)

/-- A public key of 97 bytes (0x04, X, Y) as a point of the curve. -/
def p384Point (bs : List Byte) : Option (Nat × Nat) :=
  let x := natOfBE ((bs.drop 1).take 48)
  let y := natOfBE ((bs.drop 49).take 48)
  if bs.length = 97 ∧ bs.take 1 = [4#8] ∧ x < p384p ∧ y < p384p ∧ y * y % p384p = (x * x * x + (p384p - 3) * x + p384b) % p384p
  then some (x, y) else none

/-- A public key as bytes. -/
def p384Bytes (p : Option (Nat × Nat)) : List Byte :=
  match p with
  | some (x, y) => 4#8 :: (bytesBE 48 x ++ bytesBE 48 y)
  | none => List.replicate 97 0#8

/-- ECDSA verification of a signature (r, s) over a digest. -/
def ecdsaOk (pub digest sig : List Byte) : Bool :=
  match p384Point pub with
  | none => false
  | some q =>
    let r := natOfBE (sig.take 48)
    let t := natOfBE ((sig.drop 48).take 48)
    if r = 0 || p384n ≤ r || t = 0 || p384n ≤ t || sig.length != 96 then false
    else
      let w := invMod p384n t
      let e := natOfBE (digest.take 48)
      match p384Add (p384Mul (e * w % p384n) p384g) (p384Mul (r * w % p384n) q) with
      | some (x, _) => x % p384n == r
      | none => false

/-- A private key from 448 bits of KDF output (FIPS 186-5, A.2.1). -/
def p384Private (bs : List Byte) : Nat := natOfBE bs % (p384n - 1) + 1

/-- The x-coordinate of an ECDH shared secret, 48 bytes. -/
def ecdhX (d : Nat) (peer : List Byte) : List Byte :=
  match p384Point peer with
  | some q => (match p384Mul d q with | some (x, _) => bytesBE 48 x | none => [])
  | none => []

end Sys2Proof.Machine
end

