-- ==== Sys2Proof/Machine/CipherOps.lean ====
section
/-! DEFINITION. Line keys: the derived keys (R498, R499), key records (R357 to R360), the change of a key (R361 to R367) and host
cipher jobs (R368 to R371). -/

namespace Sys2Proof.Machine

/-! ### Derived keys (R498, R499) -/

/-- The key class of a lifecycle state. -/
def keyClass (lc : Nat) : Nat := match lc with | 0 => 0 | 3 => 2 | _ => 1

/-- The context of the KDF: the key class of the lifecycle, and the OPEN bit as it stood at the last derivation. -/
def kdfContext (s : State) : Nat := keyClass (getN O.LC_STATE s) + 4 * ofBool s.dev.keyOpen

/-- The device secret as SEC alone reads it (R497). -/
def deviceSecret (s : State) : List Byte := (s.dev.secret ++ List.replicate 32 0#8).take 32

/-- The private key of a label (Table 19.1). -/
def derivedPrivate (label : Nat) (s : State) : Nat := p384Private (kdf384 (deviceSecret s) label (kdfContext s) 56)

/-- The public key of a private key, 97 bytes. -/
def publicOf (d : Nat) : List Byte := p384Bytes (p384Mul d p384g)

/-- LKEK. -/
def lkek (s : State) : List Byte :=
  kdf384 (ecdhX (derivedPrivate 0x444B414B s) (getB O.LKEK_PEER s)) 0x4C4B454B (kdfContext s) 32

/-- Whether SEC can unwrap key records: it runs, and LKEK exists (R499, Table 16.10). -/
def canUnwrap (s : State) : Bool := procUp 0 s && !(getB O.LKEK_PEER s).isEmpty

/-! ### Key records (Table 13.5) -/

/-- A key record that has been unwrapped. -/
structure KeyRec where
  use : Nat
  port : Nat
  slot : Nat
  place : Nat
  keyId : Nat
  key : List Byte
  salt : List Byte
  deriving DecidableEq, Repr

/-- Unwrap a record: the record, or the reason 1 or 2 of R358. -/
def openRecord (r : List Byte) (s : State) : Except Nat KeyRec :=
  match aesUnwrap (lkek s) (r.drop 8) with
  | none => .error 1
  | some p =>
    let b (i : Nat) : Nat := natOfLE ((r.drop i).take 1)
    let q (i n : Nat) : List Byte := (p.drop i).take n
    if b 0 != 1 || 2 < b 1 || (b 1 != 2 && 3 < b 2) || 63 < b 2 || 32 ≤ b 3 || q 36 4 != (r.drop 4).take 4
        || natOfLE (q 40 1) != b 1 || natOfLE (q 41 1) != b 2 || natOfLE (q 42 1) != b 3 % 16 || q 43 5 != List.replicate 5 0#8
    then .error 2
    else .ok ⟨b 1, b 2, b 3 / 16, b 3 % 16, natOfLE (q 36 4), q 0 32, q 32 4⟩

/-- The clear KEY_ID of a record. -/
def recordId (r : List Byte) : Nat := natOfLE ((r.drop 4).take 4)

/-- Whether this gateway is the spare (R10). -/
def isSpare (s : State) : Bool := getN O.BG_PLACE s == 8

/-- Whether PLACE of a record fits (R358, reason 3). -/
def placeFits (p : Nat) (s : State) : Bool := if isSpare s then p < 8 else p == getN O.BG_PLACE s

/-- The key of a staged slot (R360). -/
def stagedKey (place port dir slot : Nat) : Nat := place * 16 + port * 4 + dir * 2 + slot

/-- A staged slot. -/
def getStaged (k : Nat) (s : State) : KeySlot := smGet (fun _ => KeySlot.empty) k s.line.staged

/-- Store a staged slot. -/
def setStaged (k : Nat) (x : KeySlot) (s : State) : State :=
  { s with line := { s.line with staged := smPut (fun _ => KeySlot.empty) k x s.line.staged } }

/-- Whether a record goes to the staged sets: at the spare, unless it names the place the spare serves (log entry 56). -/
def goesStaged (k : KeyRec) (s : State) : Bool := isSpare s && getN O.CR_ADOPTED_PLACE s != k.place

/-- The slots a KEY_ID is compared with (R358, reason 4). -/
def rivalSlots (k : KeyRec) (s : State) : List KeySlot :=
  let p := getPort k.port s
  let line := if k.use = 0 then [p.tx0, p.tx1] else [p.rx0, p.rx1]
  if isSpare s then [getStaged (stagedKey k.place k.port k.use 0) s, getStaged (stagedKey k.place k.port k.use 1) s] ++ line else line

/-- The slot a record is aimed at. -/
def targetSlot (k : KeyRec) (s : State) : KeySlot :=
  if goesStaged k s then getStaged (stagedKey k.place k.port k.use k.slot) s
  else if k.use = 0 then (getPort k.port s).txSlot k.slot else (getPort k.port s).rxSlot k.slot

/-- The reason a key record written to KEY_LOAD is refused under R358, 0 for none. A record with USE 2 has no slot (log
entry 57). -/
def keyLoadReason (r : List Byte) (s : State) : Nat :=
  match openRecord r s with
  | .error e => e
  | .ok k =>
    if k.use = 2 then 2
    else if !placeFits k.place s then 3
    else if (rivalSlots k s).any fun x => x.kstate != 0 && x.keyId == k.keyId then 4
    else 0

/-- Whether KEY_LOAD is served at all: SEC runs, LKEK exists and the debug state is CLOSED (R499, R504, Table 16.10). -/
def keyLoadServed (s : State) : Bool := canUnwrap s && getN O.DBG_STATE s == 0

/-- The checks of KEY_LOAD. -/
def keyLoadCheck (r : List Byte) (s : State) : Nat :=
  if !keyLoadServed s then 0x30
  else if r.length ≠ 64 then 0x13
  else if keyLoadReason r s ≠ 0 then 0x14
  else match openRecord r s with
    | .ok k => if 2 ≤ (targetSlot k s).kstate then 0x30 else 0
    | .error _ => 0x14

/-- The event of a refused record (R358). -/
def keyLoadRefused (r : List Byte) (s : State) : State :=
  if keyLoadServed s && r.length == 64 && keyLoadReason r s != 0 then
    logEvent 0x2801 (recordId r * 2 ^ 32 + keyLoadReason r s) s
  else s

/-- The effect of KEY_LOAD: the slot, or the staged slot, is LOADED. -/
def keyLoadEffect (r : List Byte) (s : State) : State :=
  match openRecord r s with
  | .error _ => s
  | .ok k =>
    let x : KeySlot := { kstate := 1, keyId := k.keyId, key := k.key, salt := k.salt }
    if goesStaged k s then setStaged (stagedKey k.place k.port k.use k.slot) x s
    else if k.use = 0 then modPort k.port (LinePort.setTx k.slot x) s
    else modPort k.port (LinePort.setRx k.slot x) s

/-! ### Views (Tables 13.9 and 13.10) -/

/-- Seconds since a clock; stops at 0xFFFF. -/
def ageSec (since : Nat) (s : State) : Nat := min 0xFFFF ((s.time.clocks - since) / clkSec)

/-- The state word of two slots. -/
def keyStateWord (a b : KeySlot) (cur : Option Nat) (phase age : Nat) : Nat :=
  let cid := match cur with | some 0 => a.keyId | some _ => b.keyId | none => 0
  cid * 2 ^ 32 + (match cur with | some k => k | none => 0) * 2 ^ 31 + ofBool cur.isNone * 2 ^ 30 + a.kstate * 2 ^ 27 + b.kstate * 2 ^ 24
    + phase * 2 ^ 21 + age

/-- KEY_TX_STATE. -/
def keyTxState (n : Nat) (s : State) : Nat :=
  let p := getPort n s
  keyStateWord p.tx0 p.tx1 p.curTx p.phase (if p.curTx.isSome then ageSec p.txSince s else 0)

/-- KEY_RX_STATE. -/
def keyRxState (n : Nat) (s : State) : Nat :=
  let p := getPort n s
  let isOver := p.rx0.kstate == 4 || p.rx1.kstate == 4
  keyStateWord p.rx0 p.rx1 p.curRx (if isOver then 3 else 0) (if p.curRx.isSome then ageSec p.rxSince s else 0)

/-- The transmit slot that is not CURRENT; with none CURRENT, a slot that holds a key before an EMPTY one. -/
def nextTx (p : LinePort) : Nat :=
  match p.curTx with
  | some 0 => 1
  | some _ => 0
  | none => if p.tx0.kstate ≠ 0 then 0 else 1

/-- The receive slot that is not CURRENT. -/
def nextRx (p : LinePort) : Nat :=
  match p.curRx with
  | some 0 => 1
  | some _ => 0
  | none => if p.rx0.kstate ≠ 0 then 0 else 1

/-- KEY_TX_NEXT_ID. -/
def keyTxNextId (n : Nat) (s : State) : Nat := ((getPort n s).txSlot (nextTx (getPort n s))).keyId

/-- KEY_RX_NEXT_ID. -/
def keyRxNextId (n : Nat) (s : State) : Nat := ((getPort n s).rxSlot (nextRx (getPort n s))).keyId

/-- SPARE_KEY_MAP of a place (R360). -/
def spareKeyMap (q : Nat) (s : State) : Nat :=
  if isSpare s then
    ((List.range 16).filter fun i => (getStaged (q * 16 + i) s).kstate == 1).foldl (fun a i => a + 2 ^ i) 0
  else 0

/-! ### The change of a transmit key (R362) -/

/-- Whether the line-control processor that runs a port's changes is up: that of the die of its lowest carrier (log entry 58). -/
def portLnc (n : Nat) (s : State) : Bool := match (carsOf n s).head? with | some c => lncUp c s | none => procUp 2 s

/-- Whether a change runs, and has not reached T's announcement. -/
def announcing (p : LinePort) : Bool := (p.txSlot p.changeTo).kstate == 2 && p.switchAt == 0

/-- Whether T is set and t4 not reached. -/
def switching (p : LinePort) : Bool := (p.txSlot p.changeTo).kstate == 2 && p.switchAt != 0

/-- The port's phase unless the frame limit holds it (R366). -/
def LinePort.toPhase (v : Nat) (p : LinePort) : LinePort := if p.phase = 4 then p else { p with phase := v }

/-- Queue a KEY_CHANGE message of a port. -/
def queueKc (n : Nat) (m : KeyMsg) (s : State) : State := modPort n (fun p => { p with kcQ := p.kcQ ++ [m] }) s

/-- Queue the ANNOUNCE of the change that runs. -/
def sayAnnounce (n : Nat) (s : State) : State :=
  let p := getPort n s
  queueKc n ⟨1, p.changeTo, (p.txSlot p.changeTo).keyId, 0, 0⟩ s

/-- EV-0x2803: no key is LOADED where a change needs one. -/
def noNextKey (n : Nat) (s : State) : State := logEvent 0x2803 (n * 2 ^ 56) s

/-- A change starts (R362 t0); a change that needs SEC waits for it, and one that runs goes on (Table 16.10). -/
def startChange (n : Nat) (s : State) : State :=
  let p := getPort n s
  let k := nextTx p
  let x := p.txSlot k
  if x.kstate = 2 then s
  else if x.kstate ≠ 1 || !procUp 0 s then noNextKey n s
  else
    let t := setPort n { (p.setTx k { x with kstate := 2 }).toPhase 1 with changeTo := k, switchAt := 0, toSwitch := [] } s
    if portLnc n t then sayAnnounce n t else t

/-- A change is abandoned: the slot is LOADED again (R362). -/
def abandonChange (n status : Nat) (s : State) : State :=
  let p := getPort n s
  let x := p.txSlot p.changeTo
  logEvent 0x2804 (n * 2 ^ 56 + status) (setPort n { (p.setTx p.changeTo { x with kstate := 1 }).toPhase 0 with switchAt := 0 } s)

/-- The carriers of a port that send DATA or may: in service of the switch (R362 t4). -/
def switchers (n : Nat) (s : State) : List Nat := (carsOf n s).filter fun c => carSends c s && !inMarginTest (getCar c s)

/-- T is set: KEY_LEAD_US after the ACK, and BOUNDARY goes in three frames (R362 t2). -/
def setSwitch (n : Nat) (s : State) : State :=
  let p := getPort n s
  let t := timeBase s + getN O.KEY_LEAD_US s * 1000 * 65536
  let m : KeyMsg := ⟨4, p.changeTo, (p.txSlot p.changeTo).keyId, t % w48, 0⟩
  setPort n { p.toPhase 2 with switchAt := t, toSwitch := switchers n s, kcQ := p.kcQ ++ [m, m, m] } s

/-- The change is complete (R362 t4). -/
def completeChange (n : Nat) (s : State) : State :=
  let p := getPort n s
  let k := p.changeTo
  let x := p.txSlot k
  let q := (p.setTx k { x with kstate := 3 }).setTx (1 - k) KeySlot.empty
  let s1 := setPort n { q with phase := 0, switchAt := 0, toSwitch := [], txSince := s.time.clocks, changeDue := false, warned := false } s
  let s2 := addN (O.KEY_CHANGES + n) 1 (setN (O.KEY_TX_FRAMES + n) 0 s1)
  let s3 := (carsOf n s2).foldl (fun u c => modCar c (fun y => { y with probeOnly := false }) u) s2
  tryActivePort n (logEvent 0x2802 (n * 2 ^ 56 + x.keyId) s3)

/-- t4 is reached once no sending carrier has still to send under the new slot. -/
def checkSwitched (n : Nat) (s : State) : State :=
  let p := getPort n s
  if switching p && p.switchAt ≤ timeBase s + 220 * 65536 && !(p.toSwitch.any fun c => carSends c s && !inMarginTest (getCar c s))
  then completeChange n s else s

/-- T comes (R362 t3). -/
def switchTime (n : Nat) (s : State) : State :=
  let p := getPort n s
  if switching p then checkSwitched n (setPort n { p with switchAt := max 1 (min p.switchAt (timeBase s)) } s) else s

/-- A change falls due (R366). -/
def changeFallsDue (n : Nat) (s : State) : State :=
  let p := getPort n s
  if getN O.KEY_AUTO s = 1 ∧ p.curTx.isSome ∧ !p.changeDue then startChange n (setPort n { p with changeDue := true } s) else s

/-- Whether the next slot is EMPTY and the key has reached 7/8 of a limit (R366). -/
def nearLimit (n : Nat) (s : State) : Bool :=
  let p := getPort n s
  getN O.KEY_AUTO s == 1 && p.curTx.isSome && (p.txSlot (nextTx p)).kstate == 0
    && (decide (getN O.KEY_FRAME_LIMIT s * 7 ≤ getN (O.KEY_TX_FRAMES + n) s * 8)
      || decide (getN O.KEY_LIFE_S s * clkSec * 7 ≤ (s.time.clocks - p.txSince) * 8))

/-- Once a second: the warning at 7/8 of a limit, and the warning of each second while a change is due (R366). -/
def keyWarning (n : Nat) (s : State) : State :=
  let p := getPort n s
  if p.changeDue && (p.txSlot (nextTx p)).kstate == 0 then noNextKey n s
  else if nearLimit n s && !p.warned then noNextKey n (setPort n { p with warned := true } s)
  else s

/-- A DATA frame has been sent under the current key of a port: counted, with what its limits bring (R366). -/
def countKeyFrame (n : Nat) (s : State) : State :=
  let s1 := addN (O.KEY_TX_FRAMES + n) 1 s
  let f := getN (O.KEY_TX_FRAMES + n) s1
  let s2 := if f = 2 ^ 36 then logEvent 0x2806 (n * 2 ^ 56) (modPort n (fun p => { p with phase := 4 }) s1) else s1
  if getN O.KEY_FRAME_LIMIT s2 ≤ f ∧ getN O.KEY_AUTO s2 = 1 ∧ !(getPort n s2).changeDue then changeFallsDue n s2
  else if nearLimit n s2 ∧ !(getPort n s2).warned then noNextKey n (modPort n (fun p => { p with warned := true }) s2)
  else s2

/-! ### Messages (Table 13.6) -/

/-- ANNOUNCE: the receive slot is checked and the answer queued (R362 t1). One that names the slot already CURRENT under its
KEY_ID is acknowledged again (log entry 59). -/
def takeAnnounce (n : Nat) (m : KeyMsg) (s : State) : State :=
  if !portLnc n s then s
  else
    let k := m.slot % 2
    let x := (getPort n s).rxSlot k
    let answer (ty st : Nat) : KeyMsg := ⟨ty, k, m.keyId, 0, st⟩
    if x.kstate = 0 then queueKc n (answer 3 1) s
    else if x.kstate = 4 then queueKc n (answer 3 3) s
    else if x.keyId ≠ m.keyId then queueKc n (answer 3 2) s
    else
      queueKc n (answer 2 0) (if x.kstate = 3 then s else modPort n (LinePort.setRx k { x with kstate := 2 }) s)

/-- Whether an answer is that of the change that runs. -/
def answersChange (n : Nat) (m : KeyMsg) (s : State) : Bool :=
  let p := getPort n s
  portLnc n s && announcing p && m.slot % 2 == p.changeTo && m.keyId == (p.txSlot p.changeTo).keyId

/-- ACK (R362 t2). -/
def takeAck (n : Nat) (m : KeyMsg) (s : State) : State := if answersChange n m s then setSwitch n s else s

/-- NACK (R362). -/
def takeNack (n : Nat) (m : KeyMsg) (s : State) : State := if answersChange n m s then abandonChange n m.status s else s

/-- A KEY_CHANGE message by its type; a type the table does not list does nothing. -/
def takeKey (n : Nat) (m : KeyMsg) (s : State) : State :=
  match m.kcType with
  | 1 => takeAnnounce n m s
  | 2 => takeAck n m s
  | 3 => takeNack n m s
  | _ => s

/-- The first DATA frame naming a slot has passed (R363). -/
def rxSlotUsed (n k : Nat) (s : State) : State :=
  let p := getPort n s
  let x := p.rxSlot k
  if x.kstate = 1 ∨ x.kstate = 2 then
    let y := p.rxSlot (1 - k)
    let q := p.setRx k { x with kstate := 3 }
    setPort n { (if y.kstate = 3 then q.setRx (1 - k) { y with kstate := 4 } else q) with rxSince := s.time.clocks } s
  else s

/-- The overlap window ends: the RETIRING slot is zeroised (R363). -/
def overlapEnds (n : Nat) (s : State) : State :=
  let p := getPort n s
  match [0, 1].find? fun k => (p.rxSlot k).kstate == 4 with
  | some k => logEvent 0x2805 (n * 2 ^ 56 + (p.rxSlot k).keyId) (setPort n (p.setRx k KeySlot.empty) s)
  | none => s

/-- Every line key slot of both directions and every staged record is zeroised (R504, R509, Table 19.11): a change ends. -/
def zeroiseKeys (s : State) : State :=
  let s1 := (List.range 4).foldl (fun u n => modPort n (fun p => { p with
    tx0 := KeySlot.empty, tx1 := KeySlot.empty, rx0 := KeySlot.empty, rx1 := KeySlot.empty, phase := 0, changeTo := 0, switchAt := 0,
    toSwitch := [], changeDue := false, warned := false, kcQ := [] }) (setN (O.KEY_TX_FRAMES + n) 0 u)) s
  { s1 with line := { s1.line with staged := [] } }

/-! ### Host cipher jobs (R368 to R371) -/

/-- A cipher job record (Table 13.8). -/
structure CipherJob where
  op : Nat
  flags : Nat
  aadLen : Nat
  textLen : Nat
  iv : List Byte
  reserved : Nat
  keyAt : Nat
  aadAt : Nat
  inAt : Nat
  outAt : Nat
  tagAt : Nat
  deriving DecidableEq, Repr

/-- A record's fields. -/
def cipherJob (r : List Byte) : CipherJob :=
  let f (i n : Nat) : Nat := natOfLE ((r.drop i).take n)
  ⟨f 0 1, f 1 1, f 2 2, f 4 4, (r.drop 8).take 12, f 20 4, f 24 8, f 32 8, f 40 8, f 48 8, f 56 8⟩

/-- One of a record's addresses. -/
def CipherJob.addrOf (j : CipherJob) : Fin 5 → Nat
  | 0 => j.keyAt | 1 => j.aadAt | 2 => j.inAt | 3 => j.outAt | 4 => j.tagAt

/-- Up to whole 16-byte blocks. -/
def toBlocks (n : Nat) : Nat := (n + 15) / 16 * 16

/-- Whether a CRATE operand names `n` bytes of a crate of a tenant (Table 9.4). -/
def operandReach (tenant v n : Nat) (s : State) : Bool :=
  let h := v / 2 ^ 32
  n == 0 || (handleValid h s && (getCrate h s).rstate == 1 && (getCrate h s).tenant == tenant && v % 2 ^ 32 + n ≤ classSize (handleClass h))

/-- Count and log the refusal of a CRATE operand that names an invalid handle, bytes beyond the crate, or a crate that another tenant
holds (R222, R223, R230). -/
def noteOperand (tenant v n source : Nat) (s : State) : State :=
  let h := v / 2 ^ 32
  if n ≠ 0 ∧ (!handleValid h s ∨ classSize (handleClass h) < v % 2 ^ 32 + n ∨ foreignCrate tenant h s) then badCrateOp h source s else s

/-- The bytes at a CRATE operand. -/
def operandBytes (v n : Nat) (s : State) : List Byte := (readCrate (v / 2 ^ 32) (v % 2 ^ 32) n s).map (·.1)

/-- Which of the bytes at a CRATE operand are poisoned. -/
def operandPoison (v n : Nat) (s : State) : List Bool := (readCrate (v / 2 ^ 32) (v % 2 ^ 32) n s).map (·.2)

/-- Write bytes at a CRATE operand. -/
def operandWrite (v : Nat) (bs : List (Byte × Bool)) (s : State) : State :=
  if bs.isEmpty then s else writeCrate (v / 2 ^ 32) (v % 2 ^ 32) bs s

/-- Pad bytes with zeros to a length. -/
def padTo (n : Nat) (bs : List Byte) : List Byte := (bs ++ List.replicate n 0#8).take n

/-- What a job reads. -/
def cipherReads (j : CipherJob) (d : CipherData) (s : State) : CipherData :=
  if bitOf j.flags 0 then { d with key := padTo 64 d.key, aad := padTo j.aadLen d.aad, text := padTo j.textLen d.text, tag := padTo 16 d.tag }
  else { key := operandBytes j.keyAt 64 s, aad := operandBytes j.aadAt j.aadLen s, text := operandBytes j.inAt j.textLen s,
         tag := operandBytes j.tagAt 16 s, ok := true }

/-- Whether a job's record and addresses are good (R370). -/
def cipherParamsOk (tenant op : Nat) (j : CipherJob) (s : State) : Bool :=
  featActive 9 s && (op != 3 || featActive 10 s) && j.op == op && j.flags < 2 && j.reserved == 0 && j.textLen ≤ 2 ^ 31
    && (bitOf j.flags 0
        || operandReach tenant j.keyAt 64 s && operandReach tenant j.aadAt (toBlocks j.aadLen) s
          && operandReach tenant j.inAt (toBlocks j.textLen) s && operandReach tenant j.tagAt 16 s
          && (op == 3 || operandReach tenant j.outAt (toBlocks j.textLen) s))

/-- The CRATE operands of a job with the bytes each reaches. -/
def cipherOperands (op : Nat) (j : CipherJob) : List (Nat × Nat) :=
  if bitOf j.flags 0 then []
  else [(j.keyAt, 64), (j.aadAt, toBlocks j.aadLen), (j.inAt, toBlocks j.textLen), (j.tagAt, 16)]
    ++ (if op = 3 then [] else [(j.outAt, toBlocks j.textLen)])

/-- Write a job's output where its record says. -/
def cipherWrite (fn : Nat) (j : CipherJob) (at0 : Nat) (bs : List (Byte × Bool)) (s : State) : State :=
  if bs.isEmpty then s else if bitOf j.flags 0 then emit (.hostWrite fn at0 (bs.map (·.1))) s else operandWrite at0 bs s

/-- The poison of a job's output: that of its text, or all of it with a poisoned key; and whether its tag is poisoned (R237, log entry 167). -/
def cipherPoison (j : CipherJob) (s : State) : List Bool × Bool :=
  if bitOf j.flags 0 then ([], false)
  else
    let key := (operandPoison j.keyAt 64 s).any id
    let text := operandPoison j.inAt j.textLen s
    (text.map (· || key), key || text.any id || (operandPoison j.aadAt j.aadLen s).any id)

/-- A job's key: that of a record with USE 2 for the tenant that passes R358, or the reason it is refused. -/
def cipherKey (tenant : Nat) (r : List Byte) (s : State) : Except Nat KeyRec :=
  if !canUnwrap s then .error 1
  else match openRecord r s with
    | .error e => .error e
    | .ok k =>
      if k.use ≠ 2 ∨ k.port ≠ tenant then .error 0
      else if !placeFits k.place s then .error 3
      else .ok k

/-- Run a job whose key is good: its output, its status and its blocks (R369, R370). -/
def cipherRun (src : JobSrc) (op : Nat) (j : CipherJob) (k : KeyRec) (d : CipherData) (s : State) : Nat × State :=
  let out := gcmCrypt k.key j.iv d.text
  let cipher := if op = 1 then out else d.text
  let tag := gcmTag k.key j.iv d.aad cipher
  let good := op == 1 || tag == d.tag
  let s1 := addN O.HC_BLOCKS ((j.textLen + 15) / 16 + 1) s
  let p := cipherPoison j s
  let s2 := if op = 3 then s1
    else cipherWrite src.fn j j.outAt ((padTo (toBlocks j.textLen) out).zipIdx.map fun x => (x.1, p.1.getD x.2 false)) s1
  let s3 := if op = 1 then cipherWrite src.fn j j.tagAt (tag.map (·, p.2)) s2 else s2
  if good then (0, s3)
  else
    let s4 := addN O.HC_AUTH_FAIL 1 s3
    (0x10, if op = 2 ∧ !bitOf j.flags 0 ∧ j.textLen ≠ 0 then setDnt (j.outAt / 2 ^ 32) s4 else s4)

/-- Whether no pool takes host jobs: all are off in P2 (log entry 60), and those of a hot line die are held (Table 20.10). -/
def poolsHeld (s : State) : Bool := getN O.PWR_STATE s == 2 || (bitOf s.dev.hot 2 && bitOf s.dev.hot 3)

/-- A cipher job, from its consumption to its completion entry; it waits while no pool takes it. -/
def cipherJobRun (op : Nat) (src : JobSrc) (r : List Byte) (d0 : CipherData) (s : State) : State :=
  if !mayConsume 1 src s || poolsHeld s then s
  else
    let j := cipherJob r
    let t := entryTaken src 1 s
    let crates := ((cipherOperands op j).filter (·.2 != 0)).map (·.1 / 2 ^ 32)
    let done (st bytes : Nat) (v : State) : State :=
      let u := addN O.HC_JOBS 1 v
      finishJob src (jobEntry src.entry st 0 0 bytes u) u
    let tenant := srcTenant src s
    if bitOf j.flags 0 && !d0.ok then done 1 0 (hostFault src.fn (j.addrOf d0.bad) t)
    else if !cipherParamsOk tenant op j s then
      done 0x12 0 ((cipherOperands op j).foldl (fun u o => noteOperand tenant o.1 o.2 (0x2000 + src.fn) u) t)
    else if getN O.STEPPING s = 0xA1 ∧ j.aadLen = 0 ∧ j.textLen = 0 then done 0x12 0 (addN O.HOST_RING_ERRS 1 t)
    else
      let d := cipherReads j d0 s
      match cipherKey tenant d.key s with
      | .error e => done 0x11 0 (logEvent 0x2801 (recordId d.key * 2 ^ 32 + e) (holdJob src crates t))
      | .ok k =>
        let (st, u) := cipherRun src op j k d t
        done st j.textLen (holdJob src crates u)

end Sys2Proof.Machine
end

