-- ==== Sys2Proof/Machine/Cipher.lean ====
section
/-! DEFINITION. The meanings of the commands of line keys and cipher jobs (chapter 13). -/

namespace Sys2Proof.Machine

/-- KEY_LOAD (R358). -/
def execKeyLoad (w : BlobWrite) (s : State) : Host.Outcome State Fault Refusal :=
  let t := if ownCheck w.sess O.KEY_LOAD (.bytes w.bytes) s = 0 then keyLoadRefused w.bytes s else s
  .next (blobRow O.KEY_LOAD w (keyLoadCheck w.bytes) (keyLoadEffect w.bytes) t)

/-- KEY_CMD CHANGE_NOW (R362). -/
def execChangeNow (sess : Fin 73) (port : Fin 4) (s : State) : Host.Outcome State Fault Refusal :=
  .next (numRow O.KEY_CMD sess.val (256 + port.val) (fun _ => 0) (startChange port.val) s)

/-- The check of ERASE_NEXT: the next transmit slot is LOADED (R356, Table 13.4). -/
def eraseNextCheck (n : Nat) (s : State) : Nat :=
  if ((getPort n s).txSlot (nextTx (getPort n s))).kstate = 1 then 0 else 0x30

/-- Empty the next transmit slot. -/
def eraseNextEffect (n : Nat) (s : State) : State := modPort n (fun p => p.setTx (nextTx p) KeySlot.empty) s

/-- KEY_CMD ERASE_NEXT (R356). -/
def execEraseNext (sess : Fin 73) (port : Fin 4) (s : State) : Host.Outcome State Fault Refusal :=
  .next (numRow O.KEY_CMD sess.val (512 + port.val) (eraseNextCheck port.val) (eraseNextEffect port.val) s)

/-- KEY_CHANGE_DUE (R366). -/
def execKeyChangeDue (port : Fin 4) (s : State) : Host.Outcome State Fault Refusal := .next (changeFallsDue port.val s)

/-- ANNOUNCE_RETRY (R362). -/
def execAnnounceRetry (port : Fin 4) (s : State) : Host.Outcome State Fault Refusal :=
  .next (if announcing (getPort port.val s) && portLnc port.val s then sayAnnounce port.val s else s)

/-- ANNOUNCE_TIMEOUT (R362). -/
def execAnnounceTimeout (port : Fin 4) (s : State) : Host.Outcome State Fault Refusal :=
  .next (if announcing (getPort port.val s) && portLnc port.val s then abandonChange port.val 0 s else s)

/-- KEY_CHANGE_RETRY (R362). -/
def execKeyChangeRetry (port : Fin 4) (s : State) : Host.Outcome State Fault Refusal :=
  .next (if (getPort port.val s).changeDue then startChange port.val s else s)

/-- A message of the control lane, taken on a carrier: counted in the ledger (R310), and given to the port's handler. -/
def laneMsg (c : Nat) (f : Nat → State → State) (s : State) : State :=
  let t := laneCount c s
  match portOfCar c t with | some n => f n t | none => t

/-- ANNOUNCE (R362). -/
def execAnnounce (c : Fin 8) (m : KeyMsg) (s : State) : Host.Outcome State Fault Refusal :=
  .next (laneMsg c.val (fun n => takeAnnounce n m) s)

/-- ACK (R362). -/
def execAck (c : Fin 8) (m : KeyMsg) (s : State) : Host.Outcome State Fault Refusal :=
  .next (laneMsg c.val (fun n => takeAck n m) s)

/-- NACK (R362). -/
def execNack (c : Fin 8) (m : KeyMsg) (s : State) : Host.Outcome State Fault Refusal :=
  .next (laneMsg c.val (fun n => takeNack n m) s)

/-- BOUNDARY (R363): only counted. -/
def execBoundary (c : Fin 8) (_m : KeyMsg) (s : State) : Host.Outcome State Fault Refusal := .next (laneCount c.val s)

/-- KEY_SWITCH_T (R362). -/
def execKeySwitchT (port : Fin 4) (s : State) : Host.Outcome State Fault Refusal := .next (switchTime port.val s)

/-- KEY_OVERLAP_EXPIRY (R363). -/
def execKeyOverlapExpiry (port : Fin 4) (s : State) : Host.Outcome State Fault Refusal := .next (overlapEnds port.val s)

/-- ENCRYPT (R368). -/
def execEncrypt (src : JobSrc) (r : List Byte) (d : CipherData) (s : State) : Host.Outcome State Fault Refusal :=
  .next (cipherJobRun 1 src r d s)

/-- DECRYPT (R370). -/
def execDecrypt (src : JobSrc) (r : List Byte) (d : CipherData) (s : State) : Host.Outcome State Fault Refusal :=
  .next (cipherJobRun 2 src r d s)

/-- TAG_CHECK (R370). -/
def execTagCheck (src : JobSrc) (r : List Byte) (d : CipherData) (s : State) : Host.Outcome State Fault Refusal :=
  .next (cipherJobRun 3 src r d s)

end Sys2Proof.Machine
end

