-- ==== Sys2Proof/Machine/CgOps.lean ====
section
/-! DEFINITION. Commit groups: boundaries (Table 2.8, R65), application (R64), aborting (R67) and the status views
(Tables 2.9 and 2.10). -/

namespace Sys2Proof.Machine

/-- The boundary code of a group (Table 2.8 and the chapters that name the groups). -/
def cgBoundary (id : Nat) : Nat :=
  if (0x21 ≤ id && id ≤ 0x28) || id == 0x2D || id == 0x88 then 1
  else if id == 0x40 then 2
  else if id == 0x60 then 3
  else 0

/-- CG_STATUS (Table 2.9). -/
def cgStatus (id : Nat) (s : State) : Nat :=
  let g := getCg id s
  g.ticket * 2 ^ 16 + g.cgState * 2 ^ 12 + g.outcome * 2 ^ 8 + g.lastError

/-- The reset value of CG_DETAIL: its boundary and no owner (Table 2.10). -/
def cgDetailDefault (id : Nat) : Nat := cgBoundary id * 2 ^ 16 + 0xFF * 2 ^ 8

/-- CG_DETAIL (Table 2.10). -/
def cgDetail (id : Nat) (s : State) : Nat :=
  let g := getCg id s
  g.ruleId * 2 ^ 48 + g.badIndex * 2 ^ 32 + g.badSub * 2 ^ 24 + cgBoundary id * 2 ^ 16 + g.owner * 2 ^ 8

/-- A value of a shadow as a number. -/
def cgShadowN (id key : Nat) (s : State) : Nat := (shadowVal (getCg id s) key s).toNat

/-- Whether the STEP boundary of a collective group has come (Table 2.8): no collective outside a final state and no outer
step of the group running. -/
def stepBoundary (g : Nat) (s : State) : Bool :=
  !(s.coll.colls.any fun c => c.group == g &&
      (match c.cstate with | .posted | .active | .localDone => true | _ => false))
    && !(getN O.OS_STEP_STATE s == 1 && getN O.OS_GROUP s == g)

/-- Whether an armed group's boundary has come, for every boundary but FRAME: in READY at once (R65). -/
def boundaryCome (id : Nat) (s : State) : Bool :=
  s.devState == .ready || cgBoundary id == 0 || (cgBoundary id == 2 && stepBoundary (cgShadowN id O.GD_TARGET s) s)

/-- Every member takes its value from the shadow at one instant (R64 t3). -/
def cgLoad (id : Nat) (s : State) : State :=
  (getCg id s).shadow.foldl (fun u p => setObj p.1 p.2 u) s

/-- The group becomes CLEAN, TICKET advances, and EV-0x0401 is logged (R64 t3). -/
def cgDone (id : Nat) (s : State) : State :=
  let g := getCg id s
  let t := (g.ticket + 1) % 65536
  logEvent 0x0401 t (setCg id { g with
    ticket := t, cgState := 0, outcome := 1, lastError := 0, owner := 0xFF, shadow := [], stale := [], waitCarriers := [],
    loaded := false, before := [] } s)

/-- The shadow or the armed change is dropped: CLEAN with OUTCOME aborted, and EV-0x0403 (R62, R67). -/
def cgAbort (id : Nat) (s : State) : State :=
  let g := getCg id s
  logEvent 0x0403 id (setCg id { g with
    cgState := 0, outcome := 3, lastError := 0, owner := 0xFF, shadow := [], stale := [], waitCarriers := [], loaded := false,
    before := [] } s)

/-- Ownership ends while the group is not CLEAN: an OPEN shadow is discarded, an ARMED change goes on without an owner
(R62). -/
def cgOwnerGone (id : Nat) (s : State) : State :=
  let g := getCg id s
  if g.cgState = 1 then cgAbort id s
  else if g.cgState = 2 then setCg id { g with owner := 0xFF } s
  else s

/-- The identifiers of every commit group. -/
def cgIds : List Nat := [0x01, 0x21, 0x22, 0x23, 0x24, 0x25, 0x26, 0x27, 0x28, 0x2C, 0x2D, 0x30, 0x40, 0x48, 0x49, 0x58, 0x60, 0x88]

/-- A session closes: the groups it owns lose their owner (R62). -/
def cgSessionGone (n : Nat) (s : State) : State :=
  cgIds.foldl (fun u id => if (getCg id u).owner = n ∧ (getCg id u).cgState ≠ 0 then cgOwnerGone id u else u) s

/-- The device leaves SERVICE or LINE_HOLD: armed groups with boundary STEP or SECOND are aborted (R67, Table 18.2). -/
def cgLeaveService (s : State) : State :=
  cgIds.foldl (fun u id => if (getCg id u).cgState = 2 ∧ 2 ≤ cgBoundary id then cgAbort id u else u) s

/-- Power or a restart ends every application: armed groups are aborted (R67). -/
def cgDropArmed (s : State) : State := cgIds.foldl (fun u id => if (getCg id u).cgState = 2 then cgAbort id u else u) s

/-- MGT crashes: OPEN groups are discarded and read CLEAN with OUTCOME aborted (R66). -/
def cgMgtCrash (s : State) : State :=
  cgIds.foldl (fun u id => if (getCg id u).cgState = 1 then cgAbort id u else u) s

end Sys2Proof.Machine
end

