-- ==== Sys2Proof/Machine/GroupOps.lean ====
section
/-! DEFINITION. Opening, modifying and closing collective groups (R75 to R83): commit group 0x40. -/

namespace Sys2Proof.Machine

/-- The relay map of a BLOB: primary and fallback mask of each site. -/
def relayOf (bs : List Byte) : List (Nat × Nat) :=
  (List.range 32).map fun i => ((bs.getD (2 * i) 0).toNat % 16, (bs.getD (2 * i + 1) 0).toNat % 16)

/-- The ring positions in use of a BLOB. -/
def ringOf (bs : List Byte) : List Nat := (bs.map (·.toNat)).takeWhile (· != 0xFF)

/-- The first rule of Table 3.1 that a shadow breaks, with the field it names; rule 0 when none. `v` reads the shadow. Rule 0x4002 sets
the group's state against the action and names no field: here it names GD_ACTION (DESIGN CHOICE, log entry 143). -/
def groupRule (v : Nat → ObjVal) (s : State) : Nat × Nat :=
  let n (k : Nat) : Nat := (v k).toNat
  let g := n O.GD_TARGET
  let act := n O.GD_ACTION
  let x := getGroup g s
  let members := n O.GD_MEMBERS
  let ring := (v O.GD_RING).toBytes
  let relay := (v O.GD_RELAY).toBytes
  let cnt := (bitsSet 32 members).length
  let used := ringOf ring
  let chunk := n O.GD_CHUNK
  if 1023 < g then (0x4001, O.GD_TARGET)
  else if !(match act with
      | 1 => x.gstate == 0
      | 2 => x.gstate == 1 || x.gstate == 2
      | _ => x.gstate != 0) then (0x4002, O.GD_ACTION)
  else if act = 3 then (0, 0)
  else if cnt < 2 then (0x4003, O.GD_MEMBERS)
  else if !(ring.length == 32 && used.length == cnt && used.all (fun p => p < 32 && bitOf members p) && used.eraseDups.length == cnt
      && (ring.drop cnt).all fun b => b.toNat == 0xFF) then (0x4004, O.GD_RING)
  else if relay.length ≠ 64 || (bitsSet 32 members).any (fun m => m != selfSite s && ((relayOf relay).getD m (0, 0)).1 == 0) then
    (0x4005, O.GD_RELAY)
  else if !((List.range 9).any fun i => chunk == 65536 * 2 ^ i) then (0x4006, O.GD_CHUNK)
  else if 268435456 < n O.GD_CROSSOVER then (0x4007, O.GD_CROSSOVER)
  else if n O.GD_DIRS ≠ 1 ∧ n O.GD_DIRS ≠ 2 then (0x4008, O.GD_DIRS)
  else if act = 2 && !(members == x.members && used == x.ring && chunk == x.chunk && n O.GD_CROSSOVER == x.crossover
      && n O.GD_DIRS == x.dirs && n O.GD_TENANT == x.tenant) then (0x4009, O.GD_MEMBERS)
  else if 63 < n O.GD_TENANT then (0x400A, O.GD_TENANT)
  else (0, 0)

/-- Send HELLO to some members of a group, unless it is held back (R140). -/
def sendHellos (g : Nat) (sites : List Nat) (s : State) : State :=
  if helloHeld g s then s else sites.foldl (fun u d => sendCtl (helloMsg g d false u) u) s

/-- OPEN is applied (R79, R81): the descriptor is the applied one, epoch 0; a relay-only group is OPEN at once, another
sends HELLO to every other member. Nothing of what an earlier group of its number did is left. A group of the outer step may be loaded
again (R137). A promoted spare waits for the first EPOCH_ADV (R433): `wait`; a spare that serves no place takes no part (R15). -/
def openGroup (wait : Bool) (g : Nat) (s : State) : State :=
  let me := selfSite s
  let members := getN O.GD_MEMBERS s
  let relayOnly := !bitOf members me || (!wait && spareIdle s)
  let x : Group := {
    gstate := if relayOnly then 2 else 1
    present := if relayOnly then 0 else 2 ^ me
    awaitAdv := wait && !relayOnly
    tenant := getN O.GD_TENANT s
    members := members
    ring := ringOf (getB O.GD_RING s)
    relay := relayOf (getB O.GD_RELAY s)
    crossover := getN O.GD_CROSSOVER s
    chunk := getN O.GD_CHUNK s
    dirs := getN O.GD_DIRS s
    quotaMib := getN O.GD_UNEXP_QUOTA_MIB s
    waitMs := getN O.GD_UNEXP_WAIT_MS s
    timeoutMs := getN O.GD_TIMEOUT_MS s
    chunkWaitMs := getN O.GD_CHUNK_WAIT_MS s }
  let s1 := setGroup g x { s with coll := { s.coll with colls := s.coll.colls.filter fun c => c.group != g || !c.isFinal } }
  let s2 := if g = osGroup s1 then modOs (fun o => { o with ranSinceOpen := false }) s1 else s1
  if relayOnly then s2 else sendHellos g (x.others me) s2

/-- MODIFY is applied (R82): the relay map and the wait and timeout values change, nothing else; a changed primary mask of a member is a
re-placement. -/
def modifyGroup (g : Nat) (s : State) : State :=
  let x := getGroup g s
  let new := relayOf (getB O.GD_RELAY s)
  let site := (bitsSet 32 x.members).find? fun m => (x.relay.getD m (0, 0)).1 != (new.getD m (0, 0)).1
  let s1 := setGroup g { x with
    relay := new, waitMs := getN O.GD_UNEXP_WAIT_MS s
    timeoutMs := getN O.GD_TIMEOUT_MS s, chunkWaitMs := getN O.GD_CHUNK_WAIT_MS s } s
  match site with
  | some m => announceEpoch g 3 m (new.getD m (0, 0)).1 s1
  | none => s1

/-- CLOSE is applied (R83). -/
def closeGroup (g : Nat) (s : State) : State :=
  let s1 := endAllOf g .cancelled ccRequested s
  let s2 := { s1 with coll := { s1.coll with
    held := s1.coll.held.filter fun h => h.group != g
    backlog := s1.coll.backlog.filter fun h => h.group != g
    chunkPorts := s1.coll.chunkPorts.filter fun a => a.route != g
    stalledPairs := s1.coll.stalledPairs.filter fun p => p.1 != g
    unsent := s1.coll.unsent.filter fun e => e.1 != g } }
  resetCredit g (admitHeld (setGroup g Group.closed0 s2))

/-- The applied values of commit group 0x40 act on their target. -/
def groupApply (s : State) : State :=
  let g := getN O.GD_TARGET s
  settle (match getN O.GD_ACTION s with
    | 1 => openGroup false g s
    | 2 => modifyGroup g s
    | _ => closeGroup g s)

/-- The boundary of commit group 0x40, armed with one action, comes. -/
def groupBoundary (action : Nat) (s : State) : State :=
  if (getCg 0x40 s).cgState = 2 ∧ cgShadowN 0x40 O.GD_ACTION s = action ∧ boundaryCome 0x40 s then
    groupApply (cgDone 0x40 (cgLoad 0x40 s))
  else s

/-- Repeat HELLO to every member that has not answered (R79). -/
def helloAgain (g : Nat) (s : State) : State :=
  let x := getGroup g s
  if x.isOpen && !relayOnly g s then
    sendHellos g ((x.others (selfSite s)).filter fun d => !bitOf x.helloFrom d) s
  else s

/-- A chunk stays incomplete too long after its first segment landed (R101). -/
def chunkWaited (g seq k : Nat) (s : State) : State :=
  match findColl g seq (getGroup g s).epoch s with
  | none => s
  | some c =>
    if c.cstate == .active && (c.expected (getGroup g s) (selfSite s)).any
        (fun i => i.1 == k && !(c.item i.1 i.2).complete && (c.item i.1 i.2).begun)
    then chunkLoss g seq c.epoch k s else s

/-- GD_TIMEOUT_MS passes since posting (Table 3.4). -/
def collTimedOut (g seq : Nat) (s : State) : State :=
  match findColl g seq (getGroup g s).epoch s with
  | none => s
  | some c =>
    if c.cstate == .posted || c.cstate == .active then
      collEnd g seq c.epoch .failed ccTimeout true (logEvent 0x4014 (g * 2 ^ 48 + seq * 2 ^ 16) s)
    else s

/-- CONFIRM again to the members that have not confirmed (Table 3.4). -/
def confirmAgain (g seq : Nat) (s : State) : State :=
  let x := getGroup g s
  match findColl g seq x.epoch s with
  | none => s
  | some c =>
    if c.cstate == .localDone then
      sendEach ((x.others (selfSite s)).filter fun d => !(c.confirms.any fun p => p.1 == d)) (fun d => confirmMsg c d s) s
    else s

/-- A held arrival of an unposted collective has waited too long (R104). -/
def heldTooLong (g seq : Nat) (s : State) : State :=
  let ep := (getGroup g s).epoch
  if (s.coll.held ++ s.coll.backlog).any fun h => h.group == g && h.seq == seq && h.epoch == ep then orderStall g seq ep s else s

/-- A posting record is answered with its status (R84). -/
def answerPosting (src : JobSrc) (f : State → Nat × State) (s : State) : State :=
  if mayConsume 0 src s then settle (entryTaken src (f s).1 (f s).2) else s

end Sys2Proof.Machine
end

