-- ==== Sys2Proof/Machine/Collectives.lean ====
section
/-! DEFINITION. The meanings of the commands of collective groups and collectives (chapter 03). -/

namespace Sys2Proof.Machine

/-- GROUP_OPEN (R79). -/
def execGroupOpen (s : State) : Host.Outcome State Fault Refusal := .next (groupBoundary 1 s)

/-- GROUP_MODIFY (R82). -/
def execGroupModify (s : State) : Host.Outcome State Fault Refusal := .next (groupBoundary 2 s)

/-- GROUP_CLOSE (R83). -/
def execGroupClose (s : State) : Host.Outcome State Fault Refusal := .next (groupBoundary 3 s)

/-- HELLO (R80). -/
def execHello (h : CtlHdr) (b : HelloBody) (s : State) : Host.Outcome State Fault Refusal := .next (settle (takeHello h b s))

/-- HELLO_RETRY (R79). -/
def execHelloRetry (group : Fin 1024) (s : State) : Host.Outcome State Fault Refusal := .next (helloAgain group.val s)

/-- POST_REDUCE_SCATTER (R84). -/
def execPostReduceScatter (p : Posting) (src : JobSrc) (s : State) : Host.Outcome State Fault Refusal :=
  .next (answerPosting src (postColl 1 p src) s)

/-- POST_ALL_GATHER (R84). -/
def execPostAllGather (p : Posting) (src : JobSrc) (s : State) : Host.Outcome State Fault Refusal :=
  .next (answerPosting src (postColl 2 p src) s)

/-- POST_ALL_REDUCE (R85). -/
def execPostAllReduce (p : Posting) (src : JobSrc) (s : State) : Host.Outcome State Fault Refusal :=
  .next (answerPosting src (postColl 3 p src) s)

/-- POST_CANCEL (R84). -/
def execPostCancel (p : Posting) (src : JobSrc) (s : State) : Host.Outcome State Fault Refusal :=
  .next (answerPosting src (postCancel p src) s)

/-- COLL_ACTIVATE (R106). -/
def execCollActivate (group : Fin 1024) (seq : Nat) (s : State) : Host.Outcome State Fault Refusal :=
  .next (settle (activateColl group.val seq s))

/-- CHUNK_REQ (R99). -/
def execChunkReq (h : CtlHdr) (chunk attempt : Nat) (s : State) : Host.Outcome State Fault Refusal :=
  .next (settle (collCtlArrive (.chunkReq h chunk attempt) s))

/-- CHUNK_WAIT_EXPIRY (R101). -/
def execChunkWaitExpiry (group : Fin 1024) (seq chunk : Nat) (s : State) : Host.Outcome State Fault Refusal :=
  .next (settle (chunkWaited group.val seq chunk s))

/-- COLL_TIMEOUT (R106). -/
def execCollTimeout (group : Fin 1024) (seq : Nat) (s : State) : Host.Outcome State Fault Refusal :=
  .next (settle (collTimedOut group.val seq s))

/-- CONFIRM (R106). -/
def execConfirm (h : CtlHdr) (b : ConfirmBody) (s : State) : Host.Outcome State Fault Refusal :=
  .next (settle (collCtlArrive (.confirm h b) s))

/-- CONFIRM_RESEND (R106). -/
def execConfirmResend (group : Fin 1024) (seq : Nat) (s : State) : Host.Outcome State Fault Refusal :=
  .next (confirmAgain group.val seq s)

/-- CANCEL (R106). -/
def execCancel (h : CtlHdr) (s : State) : Host.Outcome State Fault Refusal := .next (settle (collCtlArrive (.cancel h) s))

/-- END_STATUS (R106). -/
def execEndStatus (h : CtlHdr) (status cause : Nat) (s : State) : Host.Outcome State Fault Refusal :=
  .next (settle (collCtlArrive (.endStatus h status cause) s))

/-- EPOCH_ADV (R111). -/
def execEpochAdv (h : CtlHdr) (c : EpochChange) (s : State) : Host.Outcome State Fault Refusal :=
  .next (settle (takeEpochAdv h c s))

/-- EPOCH_ACK (R111). -/
def execEpochAck (h : CtlHdr) (newEpoch : Nat) (entries : List (Nat × Nat)) (s : State) : Host.Outcome State Fault Refusal :=
  .next (settle (takeEpochAck h newEpoch entries s))

/-- EPOCH_RESOLVE_TIMEOUT (R111). -/
def execEpochResolveTimeout (group : Fin 1024) (s : State) : Host.Outcome State Fault Refusal :=
  .next (settle (resolveEpoch group.val s))

/-- UNEXP_WAIT_EXPIRY (R104). -/
def execUnexpWaitExpiry (group : Fin 1024) (seq : Nat) (s : State) : Host.Outcome State Fault Refusal :=
  .next (heldTooLong group.val seq s)

end Sys2Proof.Machine
end

