-- ==== Sys2Proof/Machine/Fifos.lean ====
section
/-! DEFINITION. Island FIFOs (R240 to R246): words with their sideband, the two pointers and the levels each side sees, whole packets,
DROP_REST, and the flow control and overflow of the board-link receive FIFOs. -/

namespace Sys2Proof.Machine

/-- An empty FIFO. -/
def Fifo.new0 : Fifo := {}

/-- A FIFO; the board-link receive FIFOs have the numbers 0x100 to 0x107 (log entry 45). -/
def getFifo (n : Nat) (s : State) : Fifo := smGet (fun _ => Fifo.new0) n s.pools.fifos

/-- Store a FIFO. -/
def setFifo (n : Nat) (f : Fifo) (s : State) : State :=
  { s with pools := { s.pools with fifos := smPut (fun _ => Fifo.new0) n f s.pools.fifos } }

/-- The board link whose receive FIFO has a number. -/
def fifoLink (n : Nat) : Option Nat := if 0x100 ≤ n ∧ n < 0x108 then some (n - 0x100) else none

/-- The depth of a FIFO: 64 words for a board link; else fixed in hardware and not given, 8 to 64 (free value 81, log entry 45). -/
def fifoDepth (n : Nat) : Nat := if (fifoLink n).isSome then 64 else 8 + Config.freeValue 81 (8 * n + 4) % 57

/-- The 32-bit lanes of a FIFO: 16 for a board link; else not given, 1 to 16 (free value 81). -/
def fifoLanes (n : Nat) : Nat := if (fifoLink n).isSome then 16 else 1 + Config.freeValue 81 (8 * n + 5) % 16

/-- The watermarks HIGH and LOW: of a board link, BL_RX_WM; else not given, with LOW < HIGH ≤ depth (free value 45). -/
def fifoMarks (n : Nat) (s : State) : Nat × Nat :=
  match fifoLink n with
  | some i => let v := getN (O.BL_RX_WM + i) s; (v / 256, v % 256)
  | none =>
    let high := 1 + Config.freeValue 45 (2 * n) % fifoDepth n
    (high, Config.freeValue 45 (2 * n + 1) % high)

/-- Whether a FIFO's reader forwards whole packets only (R243). A board link's does not: R246 lets it read a packet before its end
mark is written; of the others it is not given (free value 81, log entry 45). -/
def fifoWhole (n : Nat) : Bool := (fifoLink n).isNone && Config.freeValue 81 (8 * n + 6) % 2 == 1

/-- Whether the hold signal stops a FIFO's writer at the next word, not the next packet (R242); not given (free value 81). -/
def fifoWordStop (n : Nat) : Bool := Config.freeValue 81 (8 * n + 7) % 2 == 1

/-! ### Words (R240) -/

/-- The even-parity bit of a number's lowest `k` bits. -/
def parityBit : Nat → Nat → Nat
  | 0, _ => 0
  | k + 1, v => (v + parityBit k (v / 2)) % 2

/-- The parity bits of a word's lanes, one per 32 data bits. -/
def laneParity : Nat → Nat → Nat
  | 0, _ => 0
  | k + 1, d => parityBit 32 d + 2 * laneParity k (d / 2 ^ 32)

/-- The parity bit over a word's end mark, valid bytes and poison tag. -/
def FifoWord.sideBit (w : FifoWord) : Bool := parityBit 8 (ofBool w.endMark + 2 * (w.validBytes % 64) + 128 * ofBool w.poison) == 1

/-- A word as its writer makes it, the data cut to the FIFO's lanes. -/
def FifoWord.make (lanes data : Nat) (endMark : Bool) (validBytes : Nat) (poison head : Bool) : FifoWord :=
  let w : FifoWord := { data := data % 2 ^ (32 * lanes), endMark, validBytes := if endMark then validBytes % 64 else 0, poison, head
                        parity := laneParity lanes (data % 2 ^ (32 * lanes)), sidePar := false }
  { w with sidePar := w.sideBit }

/-- The lanes whose parity check fails, as a mask. -/
def FifoWord.badLanes (lanes : Nat) (w : FifoWord) : Nat := Nat.xor w.parity (laneParity lanes w.data)

/-- A word after an upset flips some of its bits. -/
def FifoWord.upset (lanes data parity : Nat) (side : Bool) (w : FifoWord) : FifoWord :=
  { w with data := Nat.xor w.data (data % 2 ^ (32 * lanes)), parity := Nat.xor w.parity (parity % 2 ^ lanes), sidePar := w.sidePar != side }

/-- The bytes of a word: 64, or its valid bytes on the end word, 0 meaning 64. -/
def FifoWord.bytes (w : FifoWord) : List Byte :=
  bytesLE (if w.endMark && w.validBytes % 64 != 0 then w.validBytes % 64 else 64) w.data

/-! ### Pointers and levels (R241) -/

/-- Pointers count modulo twice the power of two that the depth needs. -/
def ptrMod (depth : Nat) : Nat := 2 * 2 ^ (Nat.log2 (depth - 1) + 1)

/-- The write side's level: the write pointer less the read pointer as it sees it. -/
def Fifo.writeLevel (depth : Nat) (f : Fifo) : Nat := (f.wr + ptrMod depth - f.rdSeen) % ptrMod depth

/-- The read side's level: the write pointer as it sees it less the read pointer. -/
def Fifo.readLevel (depth : Nat) (f : Fifo) : Nat := (f.wrSeen + ptrMod depth - f.rd) % ptrMod depth

/-- PKTS: the whole packets the read side holds (R243). -/
def Fifo.pkts (f : Fifo) : Nat := f.endsSeen - f.endsRead

/-- The hold signal and the peak after a change of level (R242). -/
def Fifo.settle (depth high low : Nat) (f : Fifo) : Fifo :=
  { f with
    hold := if high ≤ f.writeLevel depth then true else if f.writeLevel depth ≤ low then false else f.hold
    peak := max f.peak (f.writeLevel depth) }

/-- A word is put in. -/
def Fifo.put (depth : Nat) (w : FifoWord) (f : Fifo) : Fifo :=
  { f with words := f.words ++ [w], wr := (f.wr + 1) % ptrMod depth, ends := f.ends + ofBool w.endMark, wrMid := !w.endMark }

/-- The first `n` words leave: read, or discarded. -/
def Fifo.remove (depth n : Nat) (f : Fifo) : Fifo :=
  { f with words := f.words.drop n, rd := (f.rd + n) % ptrMod depth
           endsRead := f.endsRead + ((f.words.take n).filter (·.endMark)).length }

/-- The visible words are discarded up to and including an end mark; with none visible the FIFO stays in DROPPING (R244). -/
def Fifo.discard (depth : Nat) (f : Fifo) : Fifo :=
  let seen := f.words.take (f.readLevel depth)
  let k := (seen.takeWhile fun w => !w.endMark).length
  if k < seen.length then { f.remove depth (k + 1) with dropping := false, midPacket := false }
  else { f.remove depth k with dropping := true }

/-- Both pointers and the count of end marks become visible on the other side (R241, R243); in DROPPING the words that become
visible are discarded (R244). -/
def Fifo.cross (depth : Nat) (f : Fifo) : Fifo :=
  let g := { f with rdSeen := f.rd, wrSeen := f.wr, endsSeen := f.ends }
  if g.dropping then (let d := g.discard depth; { d with rdSeen := d.rd }) else g

/-- Store a FIFO whose level has changed; the hold signal of a board link's drives BL_FC_OUT (R242, R245). -/
def putFifo (n : Nat) (f : Fifo) (s : State) : State :=
  let m := fifoMarks n s
  let g := f.settle (fifoDepth n) m.1 m.2
  let t := setFifo n g s
  match fifoLink n with
  | some i => if g.hold == (getFifo n s).hold then t else emit (.blFcOut i g.hold) t
  | none => t

/-- Change a FIFO. -/
def modFifo (n : Nat) (f : Fifo → Fifo) (s : State) : State := putFifo n (f (getFifo n s)) s

/-! ### The read side -/

/-- DROP_REST (R244): the rest of the packet in progress is discarded and counted; at a packet boundary it has no effect. -/
def dropRest (n : Nat) (s : State) : State :=
  let f := getFifo n s
  if !f.midPacket || f.dropping then s
  else addN O.FIFO_DROPS 1 (putFifo n { f.discard (fifoDepth n) with part := [] } s)

/-- The place a board link reaches (R10). -/
def linkPlace (i : Nat) (s : State) : Nat := if i < getN O.BG_PLACE s then i else i + 1

/-- A board link's reader takes a word (R246, R463): a poisoned word, or a first word whose header's check fails, drops the packet; the
end word completes a message, of which the 16 most recent are kept. -/
def linkTakes (i : Nat) (first : Bool) (w : FifoWord) (s : State) : State :=
  let n := 0x100 + i
  if w.poison || (first && !w.head) then dropRest n (modFifo n (fun f => { f with part := [] }) s)
  else
    let part := (getFifo n s).part ++ [w]
    if w.endMark then
      let ms := s.host.blMsgs ++ [(linkPlace i s, part.flatMap (·.bytes))]
      let t := modFifo n (fun f => { f with part := [] }) s
      { t with host := { t.host with blMsgs := ms.drop (ms.length - 16) } }
    else modFifo n (fun f => { f with part := part }) s

/-- The reader's engine has a word: a board link's takes its message; another whose reader forwards whole packets only cannot deliver
one in part, and drops the rest of it at a poisoned word (R244). -/
def readerTakes (n : Nat) (first : Bool) (w : FifoWord) (s : State) : State :=
  match fifoLink n with
  | some i => linkTakes i first w s
  | none => if w.poison && fifoWhole n then dropRest n s else s

/-- The reader takes the next visible word, if it may: one that forwards whole packets only begins a packet once PKTS is 1 or more
(R243). Every parity bit is checked: a failed check poisons the word on delivery, is counted and logged (R240). -/
def readWord (n : Nat) (s : State) : State :=
  let f := getFifo n s
  let depth := fifoDepth n
  if f.readLevel depth = 0 || (fifoWhole n && !f.midPacket && f.pkts == 0) then s
  else match f.words with
    | [] => s
    | w :: _ =>
      let lanes := w.badLanes (fifoLanes n)
      let bad := lanes != 0 || w.sidePar != w.sideBit
      let t := putFifo n { f.remove depth 1 with midPacket := !w.endMark, parityErrs := f.parityErrs + ofBool bad } s
      let u := if bad then logEvent 0x5805 (n * 2 ^ 48 + lanes) (addN O.FIFO_PARITY_ERRS 1 t) else t
      readerTakes n (!f.midPacket) { w with poison := w.poison || bad } u

/-! ### The write side -/

/-- A word arrives at a board link's receive FIFO (R246). One that meets the full FIFO is not written: the last word held of its packet
gets the end mark and poison tag and the packet's rest is discarded; where that word has been read, the rest comes to the reader as a new
packet (log entry 154). -/
def linkWord (i : Nat) (w : FifoWord) (s : State) : State :=
  let n := 0x100 + i
  let f := getFifo n s
  if f.overrun then putFifo n { f with overrun := !w.endMark, wrMid := false } s
  else if f.writeLevel 64 < 64 then putFifo n (f.put 64 w) s
  else
    let t := logEvent 0x5806 i (addN (O.BL_RX_OVERFLOW + i) 1 s)
    match f.wrMid, f.words.getLast? with
    | true, some l =>
      let m := { l with endMark := true, poison := true, validBytes := 0 }
      putFifo n { f with words := f.words.dropLast ++ [{ m with sidePar := m.sideBit }], ends := f.ends + 1, wrMid := false, overrun := !w.endMark } t
    | true, none => putFifo n { f with wrMid := !w.endMark, midPacket := false, part := [] } t
    | false, _ => putFifo n { f with overrun := !w.endMark } t

/-- What passes at a FIFO. A writer writes no word into a full FIFO, and none where the hold signal has stopped it (R241, R242); the words
of a board link arrive by BL_MSG alone. -/
def fifoEvent (n : Nat) (e : FifoEvent) (s : State) : State :=
  let f := getFifo n s
  let depth := fifoDepth n
  match e with
  | .write data endMark validBytes poison =>
    if (fifoLink n).isSome || decide (depth ≤ f.writeLevel depth) || (f.hold && (fifoWordStop n || !f.wrMid)) then s
    else putFifo n (f.put depth (FifoWord.make (fifoLanes n) data endMark validBytes poison true)) s
  | .upset k data parity side =>
    setFifo n { f with words := f.words.modify k (FifoWord.upset (fifoLanes n) data parity side) } s
  | .cross => putFifo n (f.cross depth) s
  | .read => readWord n s

/-- Several events in order. -/
def fifoEvents (n : Nat) (es : List FifoEvent) (s : State) : State := es.foldl (fun u e => fifoEvent n e u) s

/-- The reader takes every word that is visible and that it may take. -/
def fifoDrain (n : Nat) (s : State) : State :=
  let t := fifoEvent n .cross s
  fifoEvent n .cross ((List.range (getFifo n t).words.length).foldl (fun u _ => readWord n u) t)

/-- The FIFOs that hold words. -/
def fifosHolding (s : State) : List Nat := (s.pools.fifos.filter fun p => !p.2.words.isEmpty).map (·.1)

/-- BL_FC_IN as sampled: high stops payload on a link, and low lets the messages that waited go, oldest first (R245). -/
def fcInTaken (link : Nat) (high : Bool) (s : State) : State :=
  let t := { s with pools := { s.pools with fcIn := putBit s.pools.fcIn link high } }
  if high then t
  else (t.host.blTxWait.filter (·.1 == link)).foldl (fun u m => emit (.blMessage m.1 m.2) u)
    { t with host := { t.host with blTxWait := t.host.blTxWait.filter (·.1 != link) } }

/-- The check of a write of BL_RX_WM (R245). -/
def blRxWmCheck (v : Nat) : Nat := if v / 256 ≤ 24 ∧ v % 256 < v / 256 then 0 else 0x14

/-- The effect of a write of BL_RX_WM. -/
def blRxWmEffect (link v : Nat) (s : State) : State :=
  modFifo (0x100 + link) id (setN (O.BL_RX_WM + link) v s)

/-- The 64-byte words of a board-group message, byte 0 in the lowest bits (log entry 154). -/
def messageWords (poisoned : List Nat) : Nat → Nat → List Byte → List FifoWord
  | 0, _, _ => []
  | fuel + 1, k, bs =>
    FifoWord.make 16 (natOfLE (bs.take 64)) (decide (bs.length ≤ 64)) bs.length (poisoned.contains k) (k == 0)
      :: (if bs.length ≤ 64 then [] else messageWords poisoned fuel (k + 1) (bs.drop 64))

end Sys2Proof.Machine
end

