-- ==== Sys2Proof/Machine/CrateRun.lean ====
section
/-! DEFINITION. The crate manager's commands and island FIFOs: answering requests (R227 to R230), references (R231 to R234),
teardown (R235), DROP_REST and the flow-control watermarks (R242, R244, R245). -/

namespace Sys2Proof.Machine

/-! ### Requests -/

/-- Answer a crate request: a handle, or a status (0 served, 1 TOO_BIG, 2 NO_CRATE). -/
def crateAnswer (owner h status : Nat) (s : State) : State := emit (.crateAnswer owner h status) s

/-- A request (R227 to R229). -/
def crateRequest (q : CrateReq) (s : State) : State :=
  match tryCrate q s with
  | (.served h, t) => crateAnswer q.owner h 0 t
  | (.tooBig, t) => crateAnswer q.owner 0 1 t
  | (.noCrate cls, t) => crateAnswer q.owner 0 2 (refuseCrate cls q.prio t)
  | (.wait cls, t) => { t with pools := { t.pools with waiting := t.pools.waiting ++ [⟨cls, q, .none⟩] } }

/-- The request at a place of the queue is the next of its class and priority, and no CONTROL or RESEND request waits before
a NORMAL one (R229). -/
def waitFirst (k : Nat) (w : WaitReq) (s : State) : Bool :=
  !((s.pools.waiting.take k).any fun v => v.cls == w.cls && v.req.prio == w.req.prio)
    && (w.req.prio != 0 || !(s.pools.waiting.any fun v => v.cls == w.cls && v.req.prio != 0))

/-- Take the request at a place out of the queue. -/
def dropWaiting (k : Nat) (s : State) : State :=
  { s with pools := { s.pools with waiting := s.pools.waiting.eraseIdx k } }

/-- Serve the waiting request at place `k`, when it is its turn and the class can serve it (R229). -/
def serveWaiting (k : Nat) (s : State) : State :=
  match s.pools.waiting[k]? with
  | none => s
  | some w =>
    if !waitFirst k w s || !classServes w.cls w.req s then s
    else
      let r := takeCrate w.cls w.req (dropWaiting k s)
      match w.waiter with
      | .none => crateAnswer w.req.owner r.1 0 r.2
      | .porter ch => giveCrate ch r.1 r.2
      | .segment cls port tenant seg relayed => enqueueCrate cls port tenant seg relayed r.1 r.2
      | .crier link msg => crierCrate link msg r.1 r.2

/-- The waiting request at place `k` has waited ALLOC_WAIT_US: refused with NO_CRATE (R229), which faults a channel (R261). -/
def expireWaiting (k : Nat) (s : State) : State :=
  match s.pools.waiting[k]? with
  | none => s
  | some w =>
    let t := refuseCrate w.cls w.req.prio (dropWaiting k s)
    match w.waiter with
    | .none => crateAnswer w.req.owner 0 2 t
    | .segment _ _ _ _ _ | .crier _ _ => t
    | .porter ch =>
      let x := getChan ch t
      faultChan ch pcCrate (match x.moves.find? fun m => m.id == x.asker with | some j => j.pc | none => x.pc) t

/-- Refill the handle cache of an HBM class below 128 from its ring, 256 handles at a time (R224). -/
def refillCache (cls : Nat) (s : State) : State :=
  if cls < 4 ∨ 128 ≤ cacheLevel cls s then s else setStore cls (getStore cls s).refill s

/-- Spill 256 handles of a cache above 448 (R224). -/
def spillCache (cls : Nat) (s : State) : State :=
  if cls < 4 ∨ cacheLevel cls s ≤ 448 then s
  else setStore cls ((getStore cls s).spill (freeAt 16 s % cacheLevel cls s)) (freeNext s)

/-! ### References -/

/-- The operation comes from a VF, a host job or a placement of another tenant than the crate's (R230). -/
def foreignOp (o : CrateOp) (s : State) : Bool :=
  (o.source / 4096 == 0 || o.source / 4096 == 2) && (getCrate o.handle s).tenant != o.tenant.val

/-- REF n (R231). -/
def refCrate (o : CrateOp) (n : Nat) (s : State) : State :=
  let c := getCrate o.handle s
  if !handleValid o.handle s || c.rstate = 0 || foreignOp o s || 255 < c.refs + n then badCrateOp o.handle o.source s
  else setCrate o.handle { c with refs := c.refs + n, rstate := if c.refs + n = 0 then c.rstate else 1 } s

/-- DEREF (R231 to R233). -/
def derefOp (o : CrateOp) (s : State) : State :=
  if foreignOp o s && (getCrate o.handle s).rstate != 0 then badCrateOp o.handle o.source s else derefCrate o.handle o.source s

/-- GIVE (R231). -/
def giveOwner (o : CrateOp) (newOwner : Nat) (s : State) : State :=
  let c := getCrate o.handle s
  if !handleValid o.handle s || c.rstate = 0 || foreignOp o s then badCrateOp o.handle o.source s
  else setCrate o.handle { c with owner := newOwner } s

/-- FREE: refused in normal release (R232); in strict release only from the owner and only in HELD_ZERO (R233). -/
def freeOp (o : CrateOp) (s : State) : State :=
  let c := getCrate o.handle s
  if !handleValid o.handle s then badCrateOp o.handle o.source s
  else if !strictRelease s then (if foreignOp o s && c.rstate != 0 then badCrateOp o.handle o.source s else s)
  else if c.rstate = 2 ∧ c.owner = o.source ∧ foreignOp o s = false then freeCrate o.handle s
  else logEvent 0x5803 (o.handle * 2 ^ 32 + o.source) (addN O.CRATE_BAD_OPS 1 s)

/-- One of the crates of a slow release is freed. -/
def slowFree (s : State) : State :=
  match heldZero s with
  | [] => { s with pools := { s.pools with slowRelease := false } }
  | h :: rest =>
    let t := freeCrate h s
    if rest.isEmpty then { t with pools := { t.pools with slowRelease := false } } else t

/-- The effect of a write of CRATE_STRICT. -/
def crateStrictEffect (v : Nat) (s : State) : State := if v = 0 then clearStrict s else setN O.CRATE_STRICT 1 s

/-- Stop every channel of a tenant (R268). -/
def stopTenant (tenant : Nat) (s : State) : State :=
  (s.port.chans.filter fun p => p.2.tenant == tenant && p.2.owner != .none && p.2.owner != .engine).foldl
    (fun u p => stopChannel p.1 u) s

/-- Every tally block of a tenant goes back (R164). -/
def freeTenantBlocks (tenant : Nat) (s : State) : State :=
  (s.comp.blocks.filter fun b => b.tenant == tenant).foldl (fun u b => freeBlock b.base u) s

/-- A tenant is torn down (Table 10.6): its queues are emptied and counted, its policers pass nothing until a batch names one of
them, and the credit of its groups is not used further. -/
def dropTenant (tenant : Nat) (s : State) : State :=
  let own (q : Nat) : Bool := q / 32 == tenant && !(tenant == 0 && (queueCls q == 0 || queueCls q == 3 || queueCls q == 6))
  let s1 := (purgePicked (fun q _ => own q) s).sched.queues.foldl (fun u e =>
    if own e.1 then countDrops e.1 e.2.segs.length (e.2.segs.foldl (fun w x => releaseSeg x w) (setQueue e.1 TxQueue.empty u)) else u) (purgePicked (fun q _ => own q) s)
  { s1 with sched := { s1.sched with
    waiting := s1.sched.waiting.filter fun w => !own w.q || w.chan.isSome
    creditTx := s1.sched.creditTx.map fun p => if (getGroup (p.1 / 32) s).tenant = tenant then (p.1, { p.2 with heard := false }) else p
    tornDown := setBit s1.sched.tornDown tenant } }

/-- The crates a move reads or writes: those its operands name, and those it has written or asked for. -/
def moveCrates (j : MoveJob) (s : State) : List Nat :=
  let named (kind v : Nat) : List Nat :=
    if kind = 1 then [v / 2 ^ 32]
    else if kind = 2 then (match crateOfAddr (listAddr v) s with | some h => [h] | none => []) ++ (listEntries (listAddr v) s).map (·.1)
    else []
  (if j.code == .zero then [] else named j.op.srcKind.val j.src) ++ named j.op.dstKind.val j.dst ++ j.wrote ++ [j.qCrate]

/-- Whether a porter move still reads or writes a crate of a tenant (R235). A crate stream runs whole within its instruction (log entry
156). -/
def tenantMoves (tenant : Nat) (s : State) : Bool :=
  s.port.chans.any fun p => p.2.moves.any fun j => (moveCrates j s).any fun h => (getCrate h s).rstate != 0 && (getCrate h s).tenant == tenant

/-- Every crate of a tenant that is torn down is freed, whatever its count, once no move reads or writes one (R235, Table 8.5). -/
def finishTeardown (tenant : Nat) (s : State) : State :=
  if !bitOf s.pools.tearing tenant || tenantMoves tenant s then s
  else
    ((s.pools.crates.filter fun c => c.2.rstate != 0 && c.2.tenant == tenant).map (·.1)).foldl (fun u h => freeCrate h u)
      { s with pools := { s.pools with tearing := clrBit s.pools.tearing tenant } }

/-- The teardowns that wait go on. -/
def finishTeardowns (s : State) : State :=
  if s.pools.tearing = 0 then s else (List.range 64).foldl (fun u t => finishTeardown t u) s

/-- Tear a tenant down: its channels stop, its queues are emptied and its tallies go back (R164, Table 10.6), and its crates are freed
(R235). -/
def tearDown (tenant : Nat) (s : State) : State :=
  let t := freeTenantBlocks tenant (dropTenant tenant (stopTenant tenant s))
  finishTeardown tenant { t with pools := { t.pools with tearing := setBit t.pools.tearing tenant } }

end Sys2Proof.Machine
end

