-- ==== Sys2Proof/Machine/Crates.lean ====
section
/-! DEFINITION. The meanings of the crate manager's and the island FIFOs' commands. -/

namespace Sys2Proof.Machine

/-- CRATE_ALLOC (R227 to R230). -/
def execCrateAlloc (q : CrateReq) (s : State) : Host.Outcome State Fault Refusal := .next (crateRequest q s)

/-- CRATE_WAIT_SERVED (R229). -/
def execCrateWaitServed (k : Nat) (s : State) : Host.Outcome State Fault Refusal := .next (serveWaiting k s)

/-- ALLOC_WAIT_EXPIRY (R229). -/
def execAllocWaitExpiry (k : Nat) (s : State) : Host.Outcome State Fault Refusal := .next (expireWaiting k s)

/-- HANDLE_CACHE_REFILL (R224). -/
def execHandleCacheRefill (cls : Fin 7) (s : State) : Host.Outcome State Fault Refusal := .next (refillCache cls.val s)

/-- HANDLE_CACHE_SPILL (R224). -/
def execHandleCacheSpill (cls : Fin 7) (s : State) : Host.Outcome State Fault Refusal := .next (spillCache cls.val s)

/-- REF (R231). -/
def execRef (o : CrateOp) (n : Nat) (s : State) : Host.Outcome State Fault Refusal := .next (refCrate o n s)

/-- DEREF (R232, R233). -/
def execDeref (o : CrateOp) (s : State) : Host.Outcome State Fault Refusal := .next (derefOp o s)

/-- GIVE (R231). -/
def execGive (o : CrateOp) (newOwner : Nat) (s : State) : Host.Outcome State Fault Refusal := .next (giveOwner o newOwner s)

/-- FREE (R232, R233). -/
def execFree (o : CrateOp) (s : State) : Host.Outcome State Fault Refusal := .next (freeOp o s)

/-- CRATE_STRICT (R234). -/
def execCrateStrict (w : ObjWrite) (s : State) : Host.Outcome State Fault Refusal :=
  .next (numRow O.CRATE_STRICT w.sess w.value (fun _ => 0) (crateStrictEffect w.value) s)

/-- TENANT_TEARDOWN (R235). -/
def execTenantTeardown (tenant : Fin 64) (s : State) : Host.Outcome State Fault Refusal := .next (tearDown tenant.val s)

/-- BL_FC_IN (R245): while the pin is sampled high no payload word is sent on the link. -/
def execBlFcIn (link : Fin 8) (high : Bool) (s : State) : Host.Outcome State Fault Refusal :=
  .next (fcInTaken link.val high s)

/-- DROP_REST (R244), after what passed at the FIFO before it. -/
def execDropRest (d : FifoDrop) (s : State) : Host.Outcome State Fault Refusal :=
  .next (dropRest d.fifo (fifoEvents d.fifo d.traffic s))

/-- BL_RX_WM (R245). -/
def execBlRxWm (link : Fin 8) (w : ObjWrite) (s : State) : Host.Outcome State Fault Refusal :=
  .next (numRow (O.BL_RX_WM + link.val) w.sess w.value (fun _ => blRxWmCheck w.value) (blRxWmEffect link.val w.value) s)

end Sys2Proof.Machine
end

