-- ==== Sys2Proof/Machine/DeviceOps.lean ====
section
/-! DEFINITION. Device states (R474) and power states (R506): the transition itself, entering SAFE (R477) and HALT (R478), what the
compute dies lose (R476), and local-fabric ports as they are formed and taken down (R450). -/

namespace Sys2Proof.Machine

/-! ### Local-fabric ports -/

/-- Every port is taken down (R422, R477, R438), and what waits to leave is lost. -/
def fabricDown (s : State) : State :=
  (List.range 16).foldl (fun u k =>
    modFab k (fun x => { x with
      lst := if fabExists k u then 3 else 0, downs := x.downs + ofBool (x.lst == 2), serving := 0, retried := false, paused := 0 }) u) { s with fabWait := [] }

/-- Every port of the applied configuration starts its bring-up, each carrying its own identity (R452). -/
def fabricUp (s : State) : State :=
  (List.range 16).foldl (fun u k =>
    if fabExists k u then modFab k (fun x => { x with
      lst := if fabFenced k u then 3 else 1, serving := 2 ^ k, retried := false, paused := 0 }) u
    else modFab k (fun x => { x with lst := 0, serving := 0, retried := false, paused := 0 }) u) s

/-- Commit group 0x30 is applied (R450): the ports of an octet with a new mode start their bring-up; an identity that is on a
failover partner stays there until failback (Table 17.11). -/
def fabricApplied (old s : State) : State :=
  (List.range 16).foldl (fun u k =>
    if fabMode k old = fabMode k u then u
    else
      let away := (List.range 16).any fun j => j != k && bitOf (getFab j u).serving k
      if fabExists k u then
        modFab k (fun x => { x with
          lst := if fabFenced k u then 3 else 1, serving := if away then x.serving else setBit x.serving k, retried := false, paused := 0 }) u
      else modFab k (fun x => { x with lst := 0, serving := 0, retried := false, paused := 0 }) u) s

/-- LF_PORT_STATUS (Table 17.13). -/
def lfPortStatus (k : Nat) (s : State) : Nat :=
  let x := getFab k s
  x.lst * 2 ^ 60 + fabMode k s % 16 * 2 ^ 56 + x.serving % 65536 * 2 ^ 32 + x.downs % 2 ^ 32

/-! ### Transitions (R474, R506) -/

/-- The power state of a device state (Table 19.7). -/
def powerOf (d : DevState) (s : State) : Nat :=
  match d with
  | .off => getN O.PWR_STATE s
  | .aux => 3
  | .lineHold => 1
  | _ => 0

/-- The power state changes, and is logged (R506). -/
def setPower (p : Nat) (s : State) : State :=
  let old := getN O.PWR_STATE s
  if old = p then s else logEvent 0x7011 (old * 256 + p) (setN O.PWR_STATE p s)

/-- A transition of Table 18.2, with its event; the power state and LASER_SHUT_N follow (R26, R506). -/
def enterState (d : DevState) (s : State) : State :=
  let t := logEvent 0x1001 (s.devState.code * 256 + d.code) { s with devState := d }
  let serving := d == .service || d == .lineHold
  settleShut (setPower (powerOf d s)
    { t with crier := { t.crier with served := t.crier.served || serving } })

/-! ### SAFE and HALT (R477, R478, Table 18.3) -/

/-- Every collective that is not final ends FAILED with cause GROUP_FAILED, and with it a running step (R477). -/
def failAll (s : State) : State :=
  let gs := (s.coll.groups.map (·.1)).filter fun g => !(openColls g s).isEmpty
  let s1 := gs.foldl (fun u g => endAllOf g .failed ccGroupFailed u) s
  settle (if getN O.OS_STEP_STATE s1 = 1 then stepHalt cauGroup s1 else s1)

/-- Every porter channel is stopped (R268, R477); host jobs end CANCELLED. -/
def stopChannels (s : State) : State :=
  s.port.chans.foldl (fun u p =>
    let x := getChan p.1 u
    if x.cstate == .run || x.cstate == .wait then
      stopChannel p.1 (endChanJob x 2 pcOwner (setChan p.1 { x with job := none } u))
    else u) s

/-- The owner code of firmware on MGT, which holds staged images (R491). -/
def ownMgt : Nat := 0x4001

/-- Crates MGT holds go back. -/
def freeMgt (hs : List Nat) (s : State) : State := hs.foldl (fun u h => letGo h ownMgt u) s

/-- DL_STATUS (Table 18.14). -/
def setDl (st kind err : Nat) (s : State) : State := setN O.DL_STATUS (st * 2 ^ 28 + kind * 2 ^ 20 + err * 2 ^ 12) s

/-- The KIND of an image (Table 18.5). -/
def imageKind (img : List Byte) : Nat := (img.getD 6 0).toNat

/-- The staged image is discarded with its crates, and an activation that waits for it is abandoned (R564, Table 18.12). -/
def discardStaged (s : State) : State :=
  let k := match s.dev.staged with | some i => imageKind i | none => 0
  let t := setN O.FW_STAGED 0 (freeMgt s.dev.stagedCrates
    { s with dev := { s.dev with staged := none, stagedCrates := [], deferred := false } })
  if s.dev.deferred then logEvent 0x1006 (k * 2 ^ 56) t else t

/-- An activation, running or deferred, is abandoned (R493, Table 18.12): a deferred one leaves its image staged; of a running one the
image store keeps the image that was started. -/
def dropActivation (s : State) : State :=
  if s.dev.deferred then
    let k := match s.dev.staged with | some i => imageKind i | none => 0
    logEvent 0x1006 (k * 2 ^ 56) (setDl 3 k 0 { s with dev := { s.dev with deferred := false } })
  else match s.dev.actKind with
  | some k =>
    let t := freeMgt s.dev.oldCrates { s with dev := { s.dev with actKind := none, actLeft := [], oldImage := none, oldCrates := [] } }
    logEvent 0x1006 (k * 2 ^ 56) (setDl 0 k 0 t)
  | none => s

/-- SAFE and HALT end what the device had begun: the return of the compute dies, the wait for P0, an activation, a re-plan. -/
def dropWork (s : State) : State :=
  let b := s.dev.bist
  let again := b.replanDue || b.replanning
  let t := dropActivation s
  { t with dev := { t.dev with
    returning := none, waking := false
    bist := { t.dev.bist with replanDue := again, replanning := false, short := [], raised := [], lowered := 0 } } }

/-- SAFE is entered (R477); the groups armed for STEP or SECOND are aborted (R67), and slices in progress are abandoned. In SAFE every
die is powered and the sequencers run (Table 18.1). -/
def enterSafe (cause : Nat) (s : State) : State :=
  let dark := getN O.PWR_STATE s != 0
  let s1 := enterState .safe (setN O.DEV_LAST_CAUSE cause (dropWork s))
  let s2 := cgLeaveService (fabricDown (allDark s1))
  let s3 := stopChannels (failAll s2)
  let s4 := setN O.CRATE_STRICT 1 (abandonSlices (fun _ => true) s3)
  if dark then setN (O.PROC_STATE + 6) 1 (setN (O.PROC_STATE + 7) 1 s4) else s4

/-- The processors in HALT: SEC's ROM, the stage-1 loader on MGT when one was verified, and SUP's ROM (R478, R488). -/
def haltProcs (s : State) : State :=
  [2, 3, 4, 6, 7].foldl (fun u p => setN (O.PROC_STATE + p) 0 u)
    (setN O.PROC_STATE 1 (setN (O.PROC_STATE + 1) (ofBool !s.dev.stage1.isEmpty) (setN (O.PROC_STATE + 5) 1 s)))

/-- HALT is entered (R478). -/
def enterHalt (cause : Nat) (s : State) : State :=
  let s1 := enterState .halt (setN O.DEV_LAST_CAUSE cause (dropWork s))
  let s2 := haltProcs (fabricDown (allDark s1))
  { s2 with crier := { s2.crier with active := cause != 0x11 } }

/-- A cause of SAFE arises (Tables 18.2 and 18.3): in LOAD and INIT it leads to HALT with cause 0x15. -/
def causeOfSafe (cause : Nat) (s : State) : State :=
  match s.devState with
  | .ready | .service | .lineHold => enterSafe cause s
  | .load | .init => enterHalt 0x15 s
  | _ => s

/-! ### The compute dies (R476) -/

/-- What is lost with the compute dies: stall stores, row exchange, histogram slots and the tally space; every stall is IDLE and
every allocatable tally FREE when they return (R476), and a fence lasts until the next BOOT (R540). Programs, whose images lie in
crates, stay registered. -/
def loseCompute (s : State) : State :=
  let lo := stallBase 0
  let hi := stallBase 128
  { s with
    mem := s.mem.filter (fun c => c.1 < lo || hi ≤ c.1)
    poison := s.poison.filter (fun c => 8 * c.1 + 7 < lo || hi ≤ 8 * c.1)
    rowx := []
    rowxPoison := []
    comp := { s.comp with
      stalls := s.comp.stalls.filterMap fun p =>
        if p.2.sstate == .fenced then some (p.1, { Stall.idle0 with sstate := .fenced, lastCause := p.2.lastCause, trapCode := p.2.trapCode }) else none
      tallies := [], blocks := [], unitMap := [], placements := [], rtrees := [], migrations := [], hist := [] } }

/-- Whether the conditions of R476 hold: no collective outside a final state, no placement, no running step, and no tally
block of KIND 0 or 1 held. -/
def mayHoldLine (s : State) : Bool :=
  !(s.coll.colls.any fun c => !c.isFinal) && s.comp.placements.isEmpty && getN O.OS_STEP_STATE s != 1 && s.comp.blocks.isEmpty

/-- Whether the gateway may leave SERVICE or LINE_HOLD for READY (Table 18.2). -/
def mayLeave (s : State) : Bool := !(s.coll.colls.any fun c => !c.isFinal) && getN O.OS_STEP_STATE s != 1

/-- READY is entered from SERVICE or LINE_HOLD: armed groups with boundaries STEP or SECOND are aborted (R67). -/
def leaveService (s : State) : State := cgLeaveService (clearStrict (enterState .ready s))

end Sys2Proof.Machine
end

