-- ==== Sys2Proof/Machine/XferOps.lean ====
section
/-! DEFINITION. State transfers (R21, R218, R343, R469). The messages by which the far end confirms a transfer or asks for part
of it again have no layout in the spec: they are sent as such (log entry 66). -/

namespace Sys2Proof.Machine

/-- The list at an address that a tenant's host software may reach and whose crates the tenant holds (R238, Table 9.4). -/
def tenantList (tenant a : Nat) (s : State) : Option CrateList :=
  match readList a s with
  | some l => if tenantReach tenant a s && l.entries.all fun e => e.1 == 0 || heldBy tenant e.1 s then some l else none
  | none => none

/-- The crates that a list names. -/
def CrateList.handles (l : CrateList) : List Nat := (l.entries.map (·.1)).filter (· != 0)

/-- Whether an XFER entry is good (Table 17.8), but for its data. -/
def xferEntryOk (send : Bool) (e : XferEntry) (s : State) : Bool :=
  featActive 5 s && e.reservedZero && e.fmt ≤ 2 && 1 ≤ e.length && e.length ≤ 2 ^ 40 && e.length % elemBytes e.fmt == 0
    && e.site < 32 && e.site != selfSite s
    && (!send || (e.table < 16 && 1 ≤ e.block64 && e.block64 ≤ 32 && !e.coded))

/-! ### The sending end -/

/-- The segments of a transfer in SC4 (Table 11.11); the spec does not say what a block-group number counts (free value 64). -/
def xferSegs (x : XferOut) (s : State) : List Segment :=
  let bs := x.data
  (cutSegs (bs.length / 8048 + 1) 0 bs).map fun p =>
    let last := decide (p.1 + p.2.length = bs.length)
    { segZero with kind := kXfer, last := last, sc := 4, job := x.tenant, src := selfSite s, dst := x.site, group := 0xFFFF,
                   seq := x.number, chunk := x.chunk, offset := p.1,
                   chunkLen := if last then bs.length % 2 ^ 32 else 0, sealV := if last then crc64 bs else 0, data := p.2 }

/-- A transfer starts: its data is XC-encoded and sent (R21); one of a refill ends with the refill (log entry 149). -/
def xferStart (src : JobSrc) (tenant : Nat) (e : XferEntry) (data : List Byte) (s : State) : State :=
  let blocks := xcEncode e.fmt e.table (xcTable e.table s) (64 * e.block64) (codesOf e.fmt data)
  let bs := blocks.flatMap (·.1)
  let out : XferOut := { src := src, site := e.site, number := e.number, tenant := tenant, group := e.group, bytes := e.length,
                         sealV := crc64 bs, chunk := freeAt 64 s % 2 ^ 32, data := bs }
  let s1 := freeNext (noteEncode data.length blocks s)
  let s2 := if src.fn = fnSequencer then s1 else modHost (fun h => { h with xferOut := h.xferOut ++ [out] }) s1
  (xferSegs out s1).foldl (fun u g => sendVia e.group g u) s2

/-- The segments of a transfer that overlap a byte range of it are sent again (R21, R218). -/
def xferResend (x : XferOut) (o n : Nat) (s : State) : State :=
  let again := (xferSegs x s).filter fun g => decide (g.offset < o + n) && decide (o < g.offset + g.data.length)
  again.foldl (fun u g => sendVia x.group g u) s

/-- XFER SEND (Table 17.8). -/
def xferSend (src : JobSrc) (e : XferEntry) (d : HostRead) (s : State) : State :=
  if !mayConsume 5 src s then s
  else if getN O.PWR_STATE s = 2 then entryTaken src stDenied s
  else if !(getGroup e.group s).isOpen then entryTaken src stNoGroup s
  else
    let tenant := srcTenant src s
    let t := entryTaken src stOk s
    let data : Option (List Byte) :=
      if e.host then (if d.ok && d.bytes.length == e.length then some d.bytes else none)
      else match tenantList tenant e.addr s with
        | some l => if e.length ≤ l.total && !((listTouched l.entries 0 e.length).any (·.2 == 0))
            then some ((readListBytes s l.entries 0 e.length).map (·.1)) else none
        | none => none
    if e.host && !d.ok then endJob src 1 hostCause 0 0 (hostFault src.fn e.addr t)
    else match data with
    | some bs =>
      if xferEntryOk true e s && (getGroup e.group s).tenant == tenant then
        xferStart src tenant e bs (holdJob src (if e.host then [] else match tenantList tenant e.addr s with | some l => l.handles | none => []) t)
      else endJob src 0x12 0 0 0 t
    | none => endJob src 0x12 0 0 0 (if e.host then t else refuseEntries e.addr tenant (0x2000 + src.fn) t)

/-- A transfer this gateway sends ends: its kept segments close (R335) and its job completes (R469). -/
def xferOutEnds (x : XferOut) (status cause : Nat) (s : State) : State :=
  let mine (g : Segment) : Bool := g.kind == kXfer && g.seq == x.number && g.dst == x.site && g.job == x.tenant && g.src == selfSite s
  let s1 := closeKept mine (modHost (fun h => { h with xferOut := h.xferOut.filter (· != x) }) s)
  endJob x.src status cause x.sealV x.bytes (purgeSegs mine s1)

/-! ### The receiving end -/

/-- Forget it. -/
def dropXfer (x : XferIn) (s : State) : State :=
  modHost (fun h => { h with xferIn := h.xferIn.filter fun y => !y.same x.tenant x.site x.number }) s

/-- A RECEIVE ends, and both ends know (R21, R469). -/
def xferInEnds (x : XferIn) (status cause bytes : Nat) (s : State) : State :=
  let s1 := dropXfer x (modHost (fun h => { h with xferDone := (h.xferDone ++ [(x.tenant, x.site, x.number)]).drop (h.xferDone.length - 63) }) s)
  let s2 := emit (.xferAnswer x.site x.number (status == 0)) s1
  match x.src with
  | some src => endJob src status cause x.sealRx bytes s2
  | none => admitHeld s2

/-- Bytes of a range are sent again (R21). -/
def xferAsk (x : XferIn) (o n : Nat) (s : State) : State :=
  let left := x.pieces.filter fun p => !(p.offset < o + n && o < p.offset + p.data.length)
  emit (.xferAgain x.site x.number o n) (putXfer { x with pieces := left } s)

/-- The damaged blocks of an XC stream, by offset and length: the length of a block that fails CODE_SUM alone is trusted, and every other
cause leaves the later boundaries unknown (Table 7.4); a header that is not sound bounds its own 8 bytes only. -/
def damagedBlocks (tables : List (List Byte)) (fmt : Nat) : Nat → Nat → List Byte → List (Nat × Nat)
  | 0, _, _ => []
  | fuel + 1, off, bs =>
    if bs.isEmpty then []
    else match xcDecodeBlock tables fmt (clean bs) with
      | .ok _ len => if bs.length < len ∨ len = 0 then [(off, 8)] else damagedBlocks tables fmt fuel (off + len) (bs.drop len)
      | .bad cause _ len =>
        if cause = 1 ∧ 0 < len then (off, len) :: damagedBlocks tables fmt fuel (off + len) (bs.drop len)
        else [(off, if 7 ≤ cause then 8 else max 8 len)]

/-- Each damaged block is counted, and its segments asked for again; the third damaged copy of a block in a row ends the transfer
(R218). -/
def xferDamaged (x : XferIn) (bad : List (Nat × Nat)) (s : State) : State :=
  let counts := bad.foldl (fun m b => smPut (fun _ => 0) b.1 (smGet (fun _ => 0) b.1 x.damaged + 1) m) []
  let t := addN O.XC_DAMAGED bad.length s
  if bad.any fun b => decide (3 ≤ smGet (fun _ => 0) b.1 counts) then xferInEnds x 1 ccChunkLoss 0 t
  else
    let y := { x with damaged := counts }
    bad.foldl (fun u b => xferAsk ((findXfer x.tenant x.site x.number u).getD y) b.1 b.2 u) (putXfer y t)

/-- Deliver a transfer whose blocks and seal are good: decoded, or coded as it asks (R21). One whose list is no longer good, or has an empty
entry that no crate is free for, fails (log entry 156). -/
def xferDeliver (x : XferIn) (bs : List Byte) (s : State) : State :=
  let es := (checkStream (xcTables s) x.fmt (bs.length + 8) 0 (clean bs)).2.1
  let out := if x.coded then bs else bytesOfCodes x.fmt (es.map (·.code))
  if x.length < out.length then xferInEnds x 1 ccMismatch 0 s
  else
    let fn := match x.src with | some src => src.fn | none => fnPf
    if x.hostForm then xferInEnds x 0 0 out.length (emit (.hostWrite fn x.dest out) s)
    else
      let q : CrateReq := { size := 1, loc := 3, prio := 0, spill := true, nowait := true, die := 0, owner := 0x2000 + fn % 4096, tenant := Fin.ofNat 64 x.tenant }
      match (if (tenantList x.tenant x.dest s).isSome then fillList q 1 x.dest 0 out.length s else (none, s)) with
      | (some l, t) => xferInEnds x 0 0 out.length (writeListBytes l.entries 0 (clean out) t)
      | (none, t) => xferInEnds x 1 ccMismatch 0 t

/-- Check a transfer whose bytes have all landed and whose RECEIVE has come. -/
def xferSettle (x : XferIn) (s : State) : State :=
  match x.src, x.total with
  | some _, some n =>
    if (x.pieces.foldl (fun a p => a + p.data.length) 0) < n then s
    else
      let bs := (x.pieces.mergeSort fun a b => a.offset ≤ b.offset).flatMap (·.data)
      let bad := damagedBlocks (xcTables s) x.fmt (bs.length + 8) 0 bs
      if !bad.isEmpty then xferDamaged x bad s
      else if crc64 bs = x.sealRx then xferDeliver x bs s else xferAsk { x with damaged := [] } 0 n s
  | _, _ => s

/-- An XFER segment for this site (R343): only bytes of good frames land, and none twice. Before its RECEIVE it is held in the store,
and waits outside it while it has no room (R469, log entry 142). -/
def xferArrive (port : Nat) (g : Segment) (dnt : Bool) (s : State) : State :=
  let x := findXfer g.job g.src g.seq s
  if s.host.xferDone.contains (g.job, g.src, g.seq) || x.any (fun y => y.pieces.any fun p => p.offset == g.offset) then dupSeg port s
  else if dnt || !featActive 5 s then s
  else match x.bind (·.src) with
    | some _ =>
      let t := xferLand port g s
      (match findXfer g.job g.src g.seq t with | some y => xferSettle y t | none => t)
    | none => holdXfer { group := 0xFFFF, seq := g.seq, epoch := 0, bytes := g.data.length, arrival := .inl g, port := port, dnt := false } s

/-- XFER RECEIVE (Table 17.8); data that came before it is taken up. -/
def xferReceive (src : JobSrc) (e : XferEntry) (d : HostRead) (s : State) : State :=
  if !mayConsume 5 src s then s
  else if getN O.PWR_STATE s = 2 then entryTaken src stDenied s
  else if !(getGroup e.group s).isOpen then entryTaken src stNoGroup s
  else
    let tenant := srcTenant src s
    let t := entryTaken src stOk s
    let reach := if e.host then true else match tenantList tenant e.addr s with | some l => decide (e.length ≤ l.total) | none => false
    let taken := match findXfer tenant e.site e.number s with | some x => x.src.isSome | none => false
    if e.host && !d.ok then endJob src 1 hostCause 0 0 (hostFault src.fn e.addr t)
    else if !xferEntryOk false e s || !reach || taken || (getGroup e.group s).tenant != tenant then
      endJob src 0x12 0 0 0 (if e.host then t else refuseEntries e.addr tenant (0x2000 + src.fn) t)
    else
      let old := findXfer tenant e.site e.number s
      let fresh : XferIn := { src := some src, site := e.site, number := e.number, tenant := tenant, group := e.group,
                              hostForm := e.host, coded := e.coded, fmt := e.fmt, length := e.length, dest := e.addr }
      let x : XferIn := match old with
        | some y => { fresh with pieces := y.pieces, total := y.total, sealRx := y.sealRx }
        | none => fresh
      let t2 := modHost (fun h => { h with xferDone := h.xferDone.filter (· != (tenant, e.site, e.number)) })
        (holdJob src (if e.host then [] else match tenantList tenant e.addr s with | some l => l.handles | none => []) t)
      let out := takeOut (fun h => match h.arrival with
        | .inl g => g.kind == kXfer && XferIn.same g.job g.src g.seq x
        | .inr _ => false) (putXfer x t2)
      let t3 := out.1.foldl (fun u h => match h.arrival with | .inl g => xferLand h.port g u | .inr _ => u) out.2
      admitHeld (match findXfer tenant e.site e.number t3 with | some y => xferSettle y t3 | none => t3)

/-- The transfers with a replaced gateway as an end, or routed over its port, fail at this end (Table 16.7); the cause has the
code of REPLACED (log entry 67). -/
def xferReplaced (port site : Nat) (s : State) : State :=
  let route (g dst : Nat) : Bool := (usablePorts g dst s).contains port
  let outs := s.host.xferOut.filter fun x => x.site == site || route x.group x.site
  let ins := s.host.xferIn.filter fun x => x.src.isSome && (x.site == site || route x.group x.site)
  let s1 := outs.foldl (fun u x => xferOutEnds x 1 3 u) s
  ins.foldl (fun u x => xferInEnds x 1 3 0 u) s1

/-- The jobs of a function are forgotten without a completion (Table 17.11). -/
def xferForget (fn : Nat) (s : State) : State :=
  modHost (fun h => { h with
    xferOut := h.xferOut.filter fun x => x.src.fn != fn
    xferIn := h.xferIn.filter fun x => match x.src with | some j => j.fn != fn | none => true }) s

end Sys2Proof.Machine
end

