-- ==== Sys2Proof/Machine/OuterStep.lean ====
section
/-! DEFINITION. Doors (R126, R137, R138), the return stream and the outcome record (R134, R135), the sweep (R133), and
refills (R140, R141). -/

namespace Sys2Proof.Machine

/-! ### Doors -/

/-- The queue pair is the bound door queue pair (R126, R459). -/
def doorQp (qp : Nat) (s : State) : Bool := s.host.qps.any fun p => p.1 == qp && p.2.service == 2

/-- ATTEMPT or ALL of a door (Table 4.5). -/
def doorAttempt (d : Door) : Nat := field d.imm.toNat 27 26
/-- STEP of a door. -/
def doorStep (d : Door) : Nat := field d.imm.toNat 25 12
/-- TENSOR of a door. -/
def doorTensor (d : Door) : Nat := field d.imm.toNat 11 0
/-- The whole immediate value of a door of a kind. -/
def doorWhole (kind : Nat) (d : Door) : Nat := kind * 2 ^ 28 + d.imm.toNat

/-- A door refused: EV-0x4809 with its immediate value. -/
def doorRefused (kind : Nat) (d : Door) (s : State) : State := logEvent 0x4809 (doorWhole kind d) s

/-- Run a door: nothing on another queue pair or with the outer step off; every door is refused in mode SYNC; refused
unless its layout holds. -/
def doorRun (kind : Nat) (d : Door) (ok : Bool) (f : State → State) (s : State) : State :=
  if !doorQp d.qp s || getN O.OS_MODE s == 0 then s
  else if getN O.OS_MODE s == 2 || !ok then doorRefused kind d s
  else f s

/-- The door names an entry of OS_TABLE. -/
def doorEntryOk (d : Door) (s : State) : Bool := doorTensor d < (osEntries s).length

/-- The fingerprints are computed when the sweep has rolled its last page (R129). -/
def afterRoll (before s : State) : State :=
  if !(pendingPages before).isEmpty && (pendingPages s).isEmpty then computeFps s else s

/-- Read entry `t` as R133 has it read: its pages are rolled forward first. -/
def readEntry (t : Nat) (s : State) : State := afterRoll s (rollEntry t s)

/-- Whether the forming of an entry waits for a refill (R141): of one of its pages, or of the record that holds its Q_prev. -/
def formHeld (t : Nat) (e : OsEntry) (s : State) : Bool :=
  entryHeld t s || (e.lr && !s.os.slotEmpty && !s.os.recDamaged.isEmpty)

/-- Entry `t` is announced: M_s of it is formed (R121, R126), at once or when the refill it waits for has landed. -/
def announceEntry (t : Nat) (s : State) : State :=
  let u := readEntry t s
  match (osEntries u)[t]? with
  | some e =>
    if formHeld t e u then modOs (fun o => { o with waitForm := o.waitForm ++ [t] }) u
    else modOs (fun o => { o with formed := o.formed ++ [(t, formEntry (osEntries u) t e u)] }) u
  | none => u

/-- Whether an entry has been announced in this attempt. -/
def announced (t : Nat) (s : State) : Bool := (s.os.formed.any fun f => f.1 == t) || s.os.waitForm.contains t

/-- The pair of hyperparameters of step `n` (R125). -/
def takePair (n : Nat) (s : State) : State :=
  match s.os.pendPair with
  | some (e, b) =>
    if getN O.OS_HP_FROM_STEP s ≤ n then modOs (fun o => { o with eta := e, beta := b, pendPair := none }) s else s
  | none => s

/-- Step c + 1 starts (Table 4.8). -/
def startStep (s : State) : State :=
  let n := getN O.OS_COMMITTED_STEP s + 1
  modOs (fun o => { o with
    formed := [], waitForm := [], parts := [], pDone := false, qDone := false, returned := [], retWaits := [], ranSinceOpen := true })
    (setN O.OS_STEP_STATE 1 (setN O.OS_CUR_STEP n (takePair n s)))

/-- WEIGHTS_DONE (Table 4.8). -/
def weightsDone (d : Door) (s : State) : State :=
  let t := doorTensor d
  match getN O.OS_STEP_STATE s with
  | 0 =>
    if doorStep d = (getN O.OS_COMMITTED_STEP s + 1) % 16384 ∧ doorAttempt d = getN O.OS_ATTEMPT s then
      settle (announceEntry t (startStep s))
    else doorRefused 1 d s
  | 1 =>
    if doorStep d = getN O.OS_CUR_STEP s % 16384 ∧ doorAttempt d = getN O.OS_ATTEMPT s ∧ !announced t s then
      settle (announceEntry t s)
    else doorRefused 1 d s
  | _ => doorRefused 1 d s

/-- Whether state may be loaded: HALTED, or IDLE with no step run since OS_GROUP last opened (R137). -/
def mayLoad (s : State) : Bool := getN O.OS_STEP_STATE s == 2 || (getN O.OS_STEP_STATE s == 0 && !s.os.ranSinceOpen)

/-- The window's values of an entry, widened to FP32. -/
def windowBytes (e : OsEntry) (s : State) : List Byte :=
  (List.range e.size).flatMap fun k => bytesLE 4 (weightAt s (e.offset + k))

/-- Fill the anchor or the momentum of entry `t` from the window (R137). -/
def loadEntry (mom : Bool) (t : Nat) (s : State) : State :=
  let u := readEntry t s
  match (osEntries u)[t]? with
  | none => u
  | some e =>
    let bs := windowBytes e u
    if mom then modOs (fun o => { o with mom := memWrite (4 * e.offset) bs o.mom, momLoaded := o.momLoaded ++ pagesOf t s }) u
    else modOs (fun o => { o with anchor := memWrite (4 * e.offset) bs o.anchor }) u

/-- A LOAD door. -/
def loadDoor (kind : Nat) (mom : Bool) (d : Door) (s : State) : State :=
  doorRun kind d (doorAttempt d == 0 && doorStep d == 0 && doorEntryOk d s)
    (fun u => if mayLoad u then loadEntry mom (doorTensor d) u else doorRefused kind d u) s

/-- The parameters of a page: its first parameter and their number. -/
def pageSpan (p : Nat) (s : State) : Option (Nat × Nat) :=
  match (osPages (osEntries s))[p]? with
  | none => none
  | some (t, first) => match (osEntries s)[t]? with
    | some e => some (e.offset + first, min 262144 (e.size - first))
    | none => none

/-- The momentum with the pages that were not loaded zeroed. -/
def zeroUnloaded (loaded : List Nat) (s : State) : SMap Byte :=
  (List.range (osPages (osEntries s)).length).foldl (fun a p =>
    if loaded.contains p then a
    else match pageSpan p s with
      | some (b, n) => smPutRun memDefault (4 * b) (List.replicate (4 * n) 0#8) a
      | none => a) s.os.mom

/-- Host software writes the shard window, as far as the host interface reaches it (R137): a parameter's anchor or momentum is filled as a
LOAD door would fill it. Where in BAR0 the window lies for either the sources do not say (`Config.hostWindow`, log entry 146). -/
def hostWindowWrite (mom : Bool) (va v : Nat) (s : State) : State :=
  let w := elemBytes (getN O.OS_SITE_FMT s)
  let i := va / w
  if getN O.OS_MODE s ≠ 1 ∨ !mayLoad s ∨ osParams s ≤ i ∨ va % w ≠ 0 then s
  else
    let t := modOs (fun o => { o with window := memWrite va (bytesLE w v) o.window }) s
    let bs := bytesLE 4 (weightAt t i)
    let ps := (List.range (osPages (osEntries s)).length).filter fun p => match pageSpan p s with
      | some (b, n) => decide (b ≤ i) && decide (i < b + n)
      | none => false
    let u := afterRoll t (ps.foldl (fun x p => rollPage p x) t)
    if mom then modOs (fun o => { o with mom := memWrite (4 * i) bs o.mom, momLoaded := o.momLoaded ++ ps }) u
    else modOs (fun o => { o with anchor := memWrite (4 * i) bs o.anchor }) u

/-- LOAD_COMMIT (R137). The expected attempt becomes 0 (DEDUCED, log entry 43). -/
def loadCommitEffect (s : State) : State :=
  let r := (pendingPages s).foldl (fun u p => rollPage p u) s
  let t := modOs (fun o => { o with
    mom := zeroUnloaded o.momLoaded r, resA := [], resB := [], slot0 := [], slot1 := [], slotEmpty := true
    momLoaded := [], refilled := true, damaged := [], recDamaged := [], waitReads := [], landed := [] }) r
  let u := setN O.OS_STEP_STATE 0 (setN O.OS_ATTEMPT 0 (allCurrent (setN O.OS_COMMITTED_STEP (getN O.OS_LOAD_STEP t) (computeFps t))))
  if s.os.refilled then u
  else
    let g := osGroup u
    let x := getGroup g u
    setN O.OS_REFILL_STATE 0 (if x.isOpen && !relayOnly g u then sendHellos g (x.others (selfSite u)) u else u)

/-- The check of a write of OS_CMD. -/
def osCmdCheck (v : Nat) (s : State) : Nat :=
  if v = 1 then 0 else if v = 2 then (if mayLoad s then 0 else 0x30) else 0x14

/-- The parts of a step (Table 4.6): an all-XC shard has no Q all-reduce (log entry 42). -/
def stepParts (s : State) : List Nat := if hasQ (osEntries s) then [0, 1, 2, 3, 4] else [0, 1, 2]

/-- Whether a part can still be cancelled: it has not been posted, or it is POSTED or ACTIVE (R106, R136). -/
def partCancellable (k : Nat) (s : State) : Bool :=
  match findPart k s with
  | none => true
  | some p => match findColl (osGroup s) p.seq (getGroup (osGroup s) s).epoch s with
    | some c => c.cstate == .posted || c.cstate == .active
    | none => false

/-- ABANDON (R136): the parts that can still be cancelled are, those not yet posted among them, and the step is decided RETRY with cause
REQUESTED; when every part is past cancel, the parts' outcomes decide. With no step RUNNING there is nothing to abandon, and the write
has no effect (DESIGN CHOICE, log entry 147). -/
def abandonEffect (s : State) : State :=
  if getN O.OS_STEP_STATE s ≠ 1 then s
  else
    let g := osGroup s
    let ep := (getGroup g s).epoch
    let t := s.os.parts.foldl (fun u p => match findColl g p.seq ep u with
      | some c => if c.cstate == .posted || c.cstate == .active then
          collEnd g p.seq ep .cancelled ccRequested false
            (sendEach ((getGroup g u).others (selfSite u)) (fun d => .cancel (ctlTo g d p.seq u)) u) else u
      | none => u) s
    settle (if (stepParts s).any fun k => partCancellable k s then stepRetry cauRequested t else t)

/-- The effect of a write of OS_CMD. -/
def osCmdEffect (v : Nat) (s : State) : State := if v = 1 then abandonEffect s else loadCommitEffect s

/-- The bytes a READ door returns for one entry, rounded to the site format (R134, R138). -/
def siteBytes (s : State) (vs : List Nat) : List Byte :=
  let fmt := getN O.OS_SITE_FMT s
  bytesOfCodes fmt (vs.map fun v => (encodeElem fmt .tiesToEven (decodeElem 0 v)).1)

/-- The window data queue pair that carries what is returned of entry `t`: they are taken round-robin by tensor (R459). -/
def returnQp (t : Nat) (s : State) : Option Nat :=
  let qs := (s.host.qps.filter fun p => p.2.service == 1).map (·.1)
  qs[t % qs.length]?

/-- Write the committed anchor or momentum of entry `t` to the return buffer (R138); a read of a damaged page waits for its refill
(R141). With no window data queue pair connected there is nothing to write it through (log entry 148). -/
def returnEntry (mom : Bool) (t : Nat) (s : State) : State :=
  let u := readEntry t s
  match (osEntries u)[t]?, returnQp t u with
  | some e, some q =>
    if entryHeld t u then modOs (fun o => { o with waitReads := o.waitReads ++ [(mom, t)] }) u
    else qpSend q (.returnWrite q (elemBytes (getN O.OS_SITE_FMT u) * e.offset)
      (siteBytes u (f32Run (if mom then u.os.mom else u.os.anchor) e.offset e.size))) u
  | _, _ => u

/-- An ANCHOR_READ or MOMENTUM_READ door (R138). -/
def readDoor (kind : Nat) (mom : Bool) (d : Door) (s : State) : State :=
  let all := doorAttempt d / 2 == 1
  doorRun kind d (doorAttempt d % 2 == 0 && doorStep d == 0 && (if all then doorTensor d == 0 else doorEntryOk d s))
    (fun u => if all then (List.range (osEntries u).length).foldl (fun w t => returnEntry mom t w) u
      else returnEntry mom (doorTensor d) u) s

/-! ### The return stream and the outcome -/

/-- a' of an entry of the step being made, from the slot being filled (R121 step 7). -/
def nextAnchor (es : List OsEntry) (t : Nat) (e : OsEntry) (s : State) : List Nat :=
  let m := s.os.slotOf (1 - s.os.slot)
  (List.range e.size).map fun k =>
    (nesterov s.os.eta s.os.beta (f32At s.os.anchor (e.offset + k)) (f32At s.os.mom (e.offset + k)) (gAt es t e m k)).1

/-- Whether the step just decided is COMMITTED and its record has still to be written. -/
def commitWaits (s : State) : Bool :=
  s.os.recordDue && (match s.os.decided with | some o => o.outcome == ocCommitted | none => false)

/-- Write a' of entry `t` to the return buffer as its Q̄ is complete (R134), on a window data queue pair (R459). -/
def nextAnchorReturn (t : Nat) (s : State) : State :=
  match (osEntries s)[t]?, returnQp t s with
  | some e, some q =>
    let ready := getN O.OS_STEP_STATE s == 1 && entryReady t e s
    let u := if ready then takeEntry t e s else readEntry t s
    if s.os.returned.contains t || !(ready || commitWaits s) || entryHeld t u then s
    else
      let vs := if ready then nextAnchor (osEntries u) t e u else f32Run u.os.anchor e.offset e.size
      modOs (fun o => { o with returned := o.returned ++ [t], retWaits := o.retWaits.filter (· != q) ++ [q] })
        (qpSend q (.returnWrite q (elemBytes (getN O.OS_SITE_FMT u) * e.offset) (siteBytes u vs)) u)
  | _, _ => s

/-- The site acknowledges the last byte written on a window data queue pair: what the return stream wrote there has landed (R135,
R459). -/
def returnAcked (q : Nat) (s : State) : State := modOs (fun o => { o with retWaits := o.retWaits.filter (· != q) }) s

/-- The outcome record is written: for COMMITTED once every byte of the return stream has landed, else at the decision
(R135). -/
def outcomeDue (s : State) : State :=
  match s.os.decided with
  | some o =>
    let all := (List.range (osEntries s).length).all fun t => s.os.returned.contains t
    if s.os.recordDue && (o.outcome != ocCommitted || (all && s.os.retWaits.isEmpty)) then
      emitOutcome o (modOs (fun x => { x with recordDue := false }) s)
    else s
  | none => s

/-- The sweep rolls the next page forward (R133); after the last, the fingerprints are known and the step goes on. -/
def sweepOne (s : State) : State :=
  match (pendingPages s).filter fun p => !pageHeld p s with
  | [] => s
  | p :: _ => settle (afterRoll s (rollPage p s))

/-! ### Refills (R140, R141) -/

/-- What this gateway states as a source. -/
def sourceStatement (s : State) : SourceAnswer :=
  { committed := getN O.OS_COMMITTED_STEP s, anchorFp := getN O.OS_ANCHOR_FP s, momFp := getN O.OS_MOMENTUM_FP s,
    hp := [s.os.eta, s.os.beta, getN O.OS_ETA s, getN O.OS_BETA s, getN O.OS_HP_FROM_STEP s] }

/-- A page as a source serves it. -/
def pageOut (p : Nat) (s : State) : Nat × List Byte × List Byte :=
  match pageSpan p s with
  | some (b, n) => (p, memRead (4 * b) (4 * n) s.os.anchor, memRead (4 * b) (4 * n) s.os.mom)
  | none => (p, [], [])

/-- The bytes of the committed record; none while no step has committed since the load (R137). -/
def recordBytes (s : State) : List Byte :=
  if s.os.slotEmpty then [] else memRead 0 ((osEntries s).foldl (fun a e => a + e.recBytes) 0) (s.os.slotOf s.os.slot)

/-- The pages of the share of source `i` of `k` (R140). -/
def sharePages (k i : Nat) (s : State) : List Nat := (List.range (osPages (osEntries s)).length).filter fun p => p % k == i

/-- The bytes of a share: anchor and momentum of each of its pages, in page order, and behind them, from source 0, the committed
record. The sources give a share no layout (log entry 149). -/
def shareBytes (k i : Nat) (s : State) : List Byte :=
  (sharePages k i s).flatMap (fun p => (pageOut p s).2.1 ++ (pageOut p s).2.2) ++ (if i = 0 then recordBytes s else [])

/-- Serve the share of source `i` of `k`, once the epoch advance is resolved (R140): pending pages are rolled forward first, and the
share leaves in SC4, XC-coded, as a state transfer (R21) along the group's relay map. Its number and its XC table and block size are free
values (93 to 95). A page that waits for its own refill keeps the share waiting (R141). -/
def refillShare (site k i : Nat) (s : State) : State :=
  let g := osGroup s
  let x := getGroup g s
  let t := afterRoll s ((sharePages k i s).foldl (fun u p => rollPage p u) s)
  if !x.isOpen || x.resolution.isSome || k ≤ i || !bitOf x.members site then s
  else if ((sharePages k i s).any fun p => pageHeld p t) || (i == 0 && !t.os.recDamaged.isEmpty) then t
  else
    let number := freeAt 93 t % 2 ^ 32
    let e : XferEntry := { host := false, coded := false, fmt := 0, site := site, number := number, group := g,
                           length := (shareBytes k i t).length, addr := 0, table := freeAt 94 t % 16, block64 := 1 + freeAt 95 t % 32,
                           reservedZero := true }
    xferStart ⟨fnSequencer, 0, 0⟩ x.tenant e (shareBytes k i t) (emit (.refillShare site k i (sourceStatement t) number) t)

/-- The sources of a refill: the far ends of the line ports that are members of the group, each far site once, by its lowest port
(R140 t0). -/
def refillSources (s : State) : List (Nat × Nat) :=
  let far := (List.range 4).filterMap fun k => match (getPort k s).farSite with
    | some f => if bitOf (getGroup (osGroup s) s).members f.1 then some (k, f.1) else none
    | none => none
  far.filter fun a => !(far.any fun b => b.2 == a.2 && b.1 < a.1)

/-- Whether a segment is of a transfer that a refill of this gateway waits for: its pages come as the operand of REFILL_COMPLETE (log
entry 149). -/
def refillTransfer (g : Segment) (s : State) : Bool :=
  let st := getN O.OS_REFILL_STATE s
  (st == 1 || st == 2 || !s.os.damaged.isEmpty || !s.os.recDamaged.isEmpty) && (refillSources s).any (fun a => a.2 == g.src)
    && g.job == (getGroup (osGroup s) s).tenant && (findXfer g.job g.src g.seq s).isNone

/-- Send the refill request to every source; nothing has landed yet. -/
def askSources (s : State) : State :=
  let k := s.os.sources.length
  s.os.sources.zipIdx.foldl (fun u e => emit (.refillRequest e.1.1 e.1.2 k e.2) u)
    (modOs (fun o => { o with landed := [], slot0 := [], slot1 := [], slotEmpty := true }) s)

/-- The refill of a promoted spare begins (R140 t0). -/
def refillStart (sources : List (Nat × Nat)) (s : State) : State :=
  askSources (setN O.OS_REFILL_STATE 1 (modOs (fun o => { o with sources := sources, refilled := false }) s))

/-- The answers of the sources (R140 t1). -/
def refillAnswers (answers : List SourceAnswer) (expired : Bool) (s : State) : State :=
  if getN O.OS_REFILL_STATE s ≠ 1 ∨ answers.length ≠ s.os.sources.length then s
  else if answers.all fun a => answers.head? == some a then
    setN O.OS_REFILL_PAGES (osPages (osEntries s)).length (setN O.OS_REFILL_STATE 2 s)
  else if expired then
    logEvent 0x4805 (getN O.OS_COMMITTED_STEP s * 2 ^ 32 + 2) (setN O.OS_STEP_STATE 2 (setN O.OS_REFILL_STATE 4 s))
  else askSources s

/-- One page lands. -/
def landPage (r : RefillPage) (s : State) : State :=
  match pageSpan r.page s with
  | some (b, n) => modOs (fun o => { o with
      anchor := memWrite (4 * b) (r.anchor.take (4 * n)) o.anchor, mom := memWrite (4 * b) (r.mom.take (4 * n)) o.mom }) s
  | none => s

/-- A committed record lands in the committed slot. -/
def landRecord (record : List Byte) (s : State) : State :=
  if record.isEmpty then s else modOs (fun o => { o.writeSlot o.slot 0 record with slotEmpty := false }) s

/-- After a refill an OUTCOME_QUERY is answered with the committed step as COMMITTED (R140). Which attempt made that step, and
which attempt is expected next, the sources do not state: they are free values. -/
def refillOutcome (committed : Nat) (s : State) : State :=
  let l := max 1 (getN O.OS_ATTEMPT_LIMIT s)
  setN O.OS_ATTEMPT (freeAt 86 s % l) (modOs (fun o => { o with
    decided := some ⟨committed, freeAt 87 s % l, ocCommitted, 0, committed⟩, recordDue := false }) s)

/-- Every page of a refill has landed (R140 t2): the fingerprints are verified. -/
def refillVerify (src0 : SourceAnswer) (s : State) : State :=
  let t := computeFps (setN O.OS_REFILL_STATE 3 s)
  if getN O.OS_ANCHOR_FP t = src0.anchorFp ∧ getN O.OS_MOMENTUM_FP t = src0.momFp then
    let u := modOs (fun o => { o with resA := [], resB := [], refilled := true }) t
    let w := logEvent 0x4806 src0.committed (setN O.OS_REFILL_STATE 0 (allCurrent (setN O.OS_COMMITTED_STEP src0.committed u)))
    let g := osGroup w
    let x := getGroup g w
    refillOutcome src0.committed (if x.isOpen && !relayOnly g w then sendHellos g (x.others (selfSite w)) w else w)
  else
    askSources (setN O.OS_REFILL_STATE 1 (setN O.OS_STEP_STATE 2
      (logEvent 0x4805 (getN O.OS_COMMITTED_STEP t * 2 ^ 32 + 1) t)))

/-- A damaged page has its values again: the source's, rolled forward (R141). -/
def pageRepaired (p : Nat) (s : State) : State :=
  let c := getN O.OS_COMMITTED_STEP s
  logEvent 0x4807 p (countPending (modOs (fun o => { o with
    damaged := o.damaged.filter (· != p)
    pageTable := match o.pageTable[p]? with | some e => o.pageTable.set p { e with step := c } | none => o.pageTable }) s))

/-- What waited for a refill goes on (R141): entries are formed, and READ doors served, unless they wait again. -/
def wakeWaiting (s : State) : State :=
  let t := s.os.waitForm.foldl (fun u e => announceEntry e u) (modOs (fun o => { o with waitForm := [] }) s)
  t.os.waitReads.foldl (fun u r => returnEntry r.1 r.2 u) (modOs (fun o => { o with waitReads := [] }) t)

/-- Pages that an HBM error had damaged have landed, and the committed record if pages of it were (R141). -/
def repairPages (pages : List RefillPage) (record : List Byte) (s : State) : State :=
  let t := (pages.filter fun r => s.os.damaged.contains r.page).foldl (fun u r => pageRepaired r.page (landPage r u)) s
  let u := if record.isEmpty || t.os.recDamaged.isEmpty then t
    else t.os.recDamaged.foldl (fun v n => logEvent 0x4807 n v) (modOs (fun o => { o with recDamaged := [] }) (landRecord record t))
  wakeWaiting (afterRoll s u)

/-- Pages of a refill land, with the committed record when it has (R140 t2); outside a refill they are those of damaged pages. -/
def refillEnd (pages : List RefillPage) (record : List Byte) (src0 : SourceAnswer) (s : State) : State :=
  if getN O.OS_REFILL_STATE s ≠ 2 then repairPages pages record s
  else
    let n := (osPages (osEntries s)).length
    let t := modOs (fun o => { o with landed := (o.landed ++ pages.map (·.page)).eraseDups })
      (landRecord record (pages.foldl (fun u r => landPage r u) s))
    let left := ((List.range n).filter fun p => !t.os.landed.contains p).length
    let u := setN O.OS_REFILL_PAGES left t
    if left = 0 then refillVerify src0 u else u

/-- An HBM error takes a page of the anchor and momentum, or of the committed record: it is asked for from one source, the first, and
reads of it wait (R141, Table 4.10). -/
def damagePage (record : Bool) (n : Nat) (s : State) : State :=
  if (if record then s.os.recDamaged else s.os.damaged).contains n
      || (!record && decide ((osPages (osEntries s)).length ≤ n)) then s
  else
    let t := modOs (fun o => if record then { o with recDamaged := o.recDamaged ++ [n] } else { o with damaged := o.damaged ++ [n] }) s
    match (refillSources t).head? with
    | some a => emit (.pageRequest a.1 a.2 record n) t
    | none => t

/-- A residual page, of at most 262,144 JF16 values of one tensor, is zeroed (Table 4.10). -/
def zeroResidual (bank n : Nat) (s : State) : State :=
  let z (m : SMap Byte) : SMap Byte := match pageSpan n s with
    | some (b, k) => m.filter fun c => c.1 < 2 * b || 2 * (b + k) ≤ c.1
    | none => m
  logEvent 0x4808 n (addN O.OS_RESID_ZEROED 1
    (modOs (fun o => if bank = 0 then { o with resA := z o.resA } else { o with resB := z o.resB }) s))

/-- An uncorrectable HBM error (R141, R236): a crate's word is poisoned; a page is refilled from a source; a residual page is zeroed. -/
def hbmError (h : HbmHit) (s : State) : State :=
  match h with
  | .word a =>
    let t := { s with poison := smPut (fun _ => false) (a / 8) true s.poison }
    (match crateOfAddr a t with | some c => setCratePoison c t | none => t)
  | .ring cls a =>
    logEvent 0x5804 a (if 4 ≤ cls.val then loseHandles cls.val s else s)
  | .page n => damagePage false n s
  | .record n => damagePage true n s
  | .residual b n => zeroResidual b.val n s

end Sys2Proof.Machine
end

