-- ==== Sys2Proof/Machine/TimeOps.lean ====
section
/-! DEFINITION. The time base, its sources and servo (R401 to R408), time transfer over the line (R409 to R414), PTP (R415) and
the one-second tick with the ledger (R322, R323, R402). -/

namespace Sys2Proof.Machine

/-- Change the time part. -/
def modTime (f : TimeBase → TimeBase) (s : State) : State := { s with time := f s.time }

/-! ### The time base (R402) -/

/-- Re-base: BASE takes TB and C0 takes C, in one clock. -/
def rebase (s : State) : State := modTime (fun t => { t with base := timeBase s, c0 := rawCounter s }) s

/-- The largest |ADJ|: 200 ppm. -/
def adjMax : Int := 56294995342

/-- Load a new ADJ: the time base is continuous across it. -/
def setAdj (a : Int) (s : State) : State :=
  let v := max (-adjMax) (min adjMax a)
  setI O.TB_ADJ v (modTime (fun t => { t with adj := v }) (rebase s))

/-- A window in which TB is stepped is discarded on every carrier (R410, Table 15.7). -/
def discardOpen (s : State) : State :=
  (List.range 8).foldl (fun u c => modCar c (fun x => { x with
    tt := { x.tt with n := 0, sumF := 0, sumR := 0, sumRtt := 0, discardWindows := max 1 x.tt.discardWindows } }) u) s

/-- Step TB to a value (R402, R407). -/
def stepTb (tb : Nat) (s : State) : State :=
  let d : Int := ((tb : Int) - (timeBase s : Int)) / 65536
  logEvent 0x6005 (ofSigned 64 d) (addN O.TB_STEP_GEN 1 (discardOpen
    (modTime (fun t => { t with base := tb % 2 ^ 96, c0 := rawCounter s }) s)))

/-! ### Flags (Table 15.10) -/

/-- The states of the servo. -/
def tFree : Nat := 0
def tAcquiring : Nat := 1
def tLocked : Nat := 2
def tHoldover : Nat := 3
def tHeld : Nat := 4

/-- STAMP_VALID (R408). -/
def stampValid (s : State) : Bool :=
  let k := getN O.TIME_STATE s
  k == tLocked || k == tHeld || (k == tHoldover && decide (getN O.TIME_ERR_EST_NS s ≤ getN O.TS_HOLD_ERR_NS s))

/-- Whether the 1PPS input is qualified by its edges (Table 15.2): the last three lie 1 s ± 1 µs apart, and none is overdue. -/
def ppsEdgesOk (s : State) : Bool :=
  let near (a b : Nat) : Bool := let d := a - b; decide (1249998750 ≤ d) && decide (d ≤ 1250001250)
  match s.time.ppsEdges with
  | a :: b :: c :: _ => near a b && near b c && decide (s.time.clocks - a ≤ 1250001250)
  | _ => false

/-- TIME_FLAGS follows the servo, the carriers and the inputs; a 1PPS input that is no longer qualified is lost (Table 15.11). -/
def settleFlags (s : State) : State :=
  let v := getN O.TIME_FLAGS s
  let bits (f : Nat → Bool) : Nat := ((List.range 8).filter f).foldl (fun a c => a + 2 ^ c) 0
  let held := bits fun c => (getCar c s).tt.held
  let sus := bits fun c => getN (O.TT_ASYM_STATE + c) s == 3
  let p10 := bitOf v 11
  let t := setN O.TIME_FLAGS (held * 2 ^ 24 + sus * 2 ^ 16 + ofBool p10 * 2 ^ 11 + ofBool (p10 && getN O.TS_10M_EN s == 1) * 2 ^ 10
    + ofBool (ppsEdgesOk s) * 2 ^ 9 + ofBool (stampValid s) * 2 ^ 8) s
  if bitOf v 9 && !ppsEdgesOk s then logEvent 0x6004 2 t else t

/-! ### Sources (Table 15.2) -/

/-- Whether a carrier qualifies its port as a LINE source. -/
def carQualifies (c : Nat) (s : State) : Bool :=
  let t := (getCar c s).tt
  let a := getN (O.TT_ASYM_STATE + c) s
  carInActive c s && t.ofsOk && !t.held && a != 3 && (a != 0 || getN O.TS_LINE_UNCAL s == 1)

/-- The carriers that qualify a port. -/
def qualifying (n : Nat) (s : State) : List Nat := (carsOf n s).filter fun c => carQualifies c s

/-- One second in ps. -/
def secPs : Int := 1000000000000

/-- Whether a source is qualified. -/
def srcQualified (code : Nat) (s : State) : Bool :=
  if code = 0 then true
  else if code = 0x10 then getN O.TS_PPS_EN s == 1 && ppsEdgesOk s && s.time.ppsTodSet
  else if 0x20 ≤ code ∧ code ≤ 0x2F then
    let p := smGet (fun _ => ({} : PtpPort)) (code - 0x20) s.time.ptp
    bitOf (getN O.PTP_PORTS s) (code - 0x20) && p.slave && p.offset.isSome && decide (p.clockClass ≤ getN O.PTP_CLASS_MAX s)
  else if 0x30 ≤ code ∧ code ≤ 0x33 then
    let o := getI (O.LP_OFS_PS + (code - 0x30)) s
    !(qualifying (code - 0x30) s).isEmpty && decide (-secPs ≤ o) && decide (o ≤ secPs)
  else false

/-- The first qualified entry of TS_SRC_PRIO, else FREE (R406). -/
def srcSelect (s : State) : Nat :=
  match (List.range 4).find? fun i => srcQualified (getN (O.TS_SRC_PRIO + i) s) s with
  | some i => getN (O.TS_SRC_PRIO + i) s
  | none => 0

/-- The source an update selects (R406); while the servo is HELD after a delay step the line source it held stays (log entry
132). -/
def srcNext (s : State) : Nat := if getN O.TIME_STATE s = 4 then getN O.TIME_SRC s else srcSelect s

/-- Whether the line source the servo is HELD on still has a carrier in LP_ACTIVE (Table 15.7). -/
def heldPortUp (s : State) : Bool :=
  let c := getN O.TIME_SRC s
  decide (0x30 ≤ c) && (carsOf (c - 0x30) s).any fun k => carInActive k s

/-- The selected source's time minus TB, in units of 2⁻¹⁶ ns (R407). -/
def srcError (code : Nat) (s : State) : Int :=
  if code = 0x10 then s.time.ppsErr
  else if 0x20 ≤ code ∧ code ≤ 0x2F then - ((smGet (fun _ => ({} : PtpPort)) (code - 0x20) s.time.ptp).offset.getD 0)
  else if 0x30 ≤ code then getI (O.LP_OFS_PS + (code - 0x30)) s * 65536 / 1000
  else 0

/-- The source's figure from Table 15.5, in whole nanoseconds rounded up; the table has none for PTP and for an asymmetry that
host software loaded (log entry 52). -/
def srcFigure (code : Nat) (s : State) : Nat × State :=
  if code = 0x10 then (1, s)
  else if 0x30 ≤ code then
    let st := (qualifying (code - 0x30) s).map fun c => getN (O.TT_ASYM_STATE + c) s
    if st.all (· == 2) then (1, s) else if st.all (· == 0) then (5, s) else (freeAt 52 s % 2 ^ 32, freeNext s)
  else (freeAt 52 s % 2 ^ 32, freeNext s)

/-! ### The servo (Table 15.3) -/

/-- Move the servo to a state, logging EV-0x6001 where the table says so. -/
def servoTo (k : Nat) (log : Bool) (s : State) : State :=
  let old := getN O.TIME_STATE s
  let est := getN O.TIME_ERR_EST_NS s
  let t := modTime (fun x => { x with lockRun := 0, farRun := 0, holdN := 0, holdLogged := false, holdBase := est })
    (setN O.TIME_STATE k s)
  let u := if k = tFree ∨ k = tAcquiring then setN O.TIME_ERR_EST_NS 0xFFFFFFFF t else t
  if log then logEvent 0x6001 (old * 256 + k) u else u

/-- ADJ's mean over the last TS_HOLD_AVG_S, at ten updates a second. -/
def adjMean (s : State) : Int :=
  let xs := s.time.adjHist.take (10 * getN O.TS_HOLD_AVG_S s)
  if xs.isEmpty then s.time.adj else xs.foldl (· + ·) 0 / (xs.length : Int)

/-- LOCKED loses its source, or the TIM processor goes down: HOLDOVER at the mean rate. -/
def toHoldover (s : State) : State := settleFlags (servoTo tHoldover true (setAdj (adjMean s) s))

/-- The servo is LOCKED to a source, with the figure of that source (R407). -/
def toLocked (src : Nat) (log : Bool) (s : State) : State :=
  let (f, u) := srcFigure src s
  setN O.TIME_ERR_EST_NS f (servoTo tLocked log u)

/-- The servo moves ADJ: within a limit of its held mean in parts per 10⁹, and otherwise as the spec leaves open
(log entry 51). -/
def steer (ppb : Nat) (s : State) : State :=
  let lim : Nat := ppb * 2 ^ 48 / 1000000000
  let d : Int := ((freeAt 51 s % (2 * lim + 1) : Nat) : Int) - (lim : Int)
  let t := freeNext (setAdj (s.time.heldMean + d) s)
  modTime (fun x => { x with adjHist := (t.time.adj :: x.adjHist).take 36000 }) t

/-- The held mean follows the rates of the past. -/
def keepMean (s : State) : State := modTime (fun x => { x with heldMean := adjMean s }) s

/-- One nanosecond. -/
def nsUnits (n : Nat) : Int := (n * 65536 : Nat)

/-- The estimate grows in HOLDOVER by TS_HOLD_DRIFT_NS_H an hour; it passes TS_HOLD_ERR_NS once with EV-0x6006 (R407, R408). -/
def holdGrow (s : State) : State :=
  let n := s.time.holdN + 1
  let est := min (2 ^ 32 - 1) (s.time.holdBase + getN O.TS_HOLD_DRIFT_NS_H s * n / 36000)
  let t := setN O.TIME_ERR_EST_NS est (modTime (fun x => { x with holdN := n }) s)
  if getN O.TS_HOLD_ERR_NS s < est ∧ !s.time.holdLogged then
    logEvent 0x6006 est (modTime (fun x => { x with holdLogged := true }) t)
  else t

/-- ACQUIRING at an update. -/
def servoAcquire (src : Nat) (err : Int) (s : State) : State :=
  if nsUnits (getN O.TS_STEP_NS s) < err.natAbs then
    stepTb ((timeBase s : Int) + err).toNat (modTime (fun x => { x with lockRun := 0 }) s)
  else
    let run := if (err.natAbs : Int) ≤ nsUnits (getN O.TS_LOCK_NS s) then s.time.lockRun + 1 else 0
    let t := steer (getN O.TS_SLEW_PPB s) (modTime (fun x => { x with lockRun := run }) s)
    if run < 100 then t
    else toLocked src true (keepMean t)

/-- LOCKED at an update. -/
def servoLocked (old src : Nat) (err : Int) (s : State) : State :=
  let run := if 10 * nsUnits (getN O.TS_LOCK_NS s) < err.natAbs then s.time.farRun + 1 else 0
  if (src ≠ old ∧ nsUnits (getN O.TS_STEP_NS s) < err.natAbs) ∨ 10 ≤ run then servoTo tAcquiring true s
  else
    let (f, u) := srcFigure src s
    setN O.TIME_ERR_EST_NS f (steer (getN O.TS_SLEW_LOCKED_PPB u) (keepMean (modTime (fun x => { x with farRun := run }) u)))

/-- An update of the servo (R406, R407), while the TIM processor runs. -/
def servoUpdate (s : State) : State :=
  if !procUp 4 s then s
  else
    let old := getN O.TIME_SRC s
    let src := srcNext s
    let s1 := if src = old then s else logEvent 0x6002 src (setN O.TIME_SRC src s)
    let err := srcError src s1
    let st := getN O.TIME_STATE s1
    let s2 :=
      if st = tFree then (if src ≠ 0 then servoTo tAcquiring false s1 else s1)
      else if st = tAcquiring then (if src = 0 then servoTo tFree false s1 else servoAcquire src err s1)
      else if st = tLocked then (if src = 0 then toHoldover s1 else servoLocked old src err s1)
      else if st = tHeld then
        (if heldPortUp s1 then s1 else toHoldover s1)
      else (if src = 0 then holdGrow s1
        else if (err.natAbs : Int) ≤ nsUnits (getN O.TS_LOCK_NS s1) then toLocked src false s1
        else servoTo tAcquiring false s1)
    settleFlags s2

/-- The TIM processor goes down: HOLDOVER (Tables 15.3 and 15.7). -/
def timDown (s : State) : State := if getN O.TIME_STATE s = tLocked ∨ getN O.TIME_STATE s = tHeld then toHoldover s else s

/-! ### Samples and windows (R410, R553) -/

/-- One sample of a carrier: F and R, signed, their sum modulo 2⁴⁸, and the far end's STAMP_VALID. -/
def ttSample (c : Nat) (f r : Int) (rtt : Int) (farOk : Bool) (s : State) : State :=
  let x := getCar c s
  let t := x.tt
  if 0 < t.discardWindows ∨ s.time.clocks < t.discardUntil then s
  else
    let fresh := t.n = 0
    let t1 : TtCarrier := { t with
      n := t.n + 1, sumF := t.sumF + f, sumR := t.sumR + r, sumRtt := t.sumRtt + rtt,
      farValid := farOk && (fresh || t.farValid), ownValid := stampValid s && (fresh || t.ownValid) }
    let t2 := if t.calOn then { t1 with calSum := t.calSum + (f - r), calN := t.calN + 1 } else t1
    setCar c { x with tt := t2 } s

/-- The mean of a sum in units of 2⁻¹⁶ ns, in ps. -/
def meanPs (sum : Int) (n : Nat) : Int := sum * 1000 / (65536 * n : Nat)

/-- The mean of the reference windows. -/
def refMean (rs : List (Int × Int × Int)) : Int × Int × Int :=
  let n : Int := rs.length
  let t := rs.foldl (fun (a, b, c) (x, y, z) => (a + x, b + y, c + z)) ((0 : Int), (0 : Int), (0 : Int))
  (t.1 / n, t.2.1 / n, t.2.2 / n)

/-- Whether a difference in ps is beyond a threshold in ns. -/
def beyond (d : Int) (ns : Nat) : Bool := decide (ns * 1000 < d.natAbs)

/-- The port whose LINE source is selected. -/
def linePortSel (s : State) : Option Nat :=
  let c := getN O.TIME_SRC s
  if 0x30 ≤ c ∧ c ≤ 0x33 then some (c - 0x30) else none

/-- A delay step on a carrier (R414 t0). -/
def delayStep (c : Nat) (w ref : Int × Int × Int) (s : State) : State :=
  let df := w.2.1 - ref.2.1
  let dr := w.2.2 - ref.2.2
  let s1 := logEvent 0x6010 (c * 2 ^ 56 + ofSigned 32 ((w.1 - ref.1) / 1000))
    (modCar c (fun x => { x with tt := { x.tt with held := true, lastStep := (df, dr), pendingRefs := [w] } }) s)
  let s2 := if beyond (df - dr) (getN O.TS_ASYM_STEP_NS s1) then
      logEvent 0x6011 (c * 2 ^ 56 + ofSigned 24 (df / 1000) * 2 ^ 24 + ofSigned 24 (dr / 1000)) (setN (O.TT_ASYM_STATE + c) 3 s1)
    else s1
  if linePortSel s2 = portOfCar c s2 ∧ (portOfCar c s2).isSome ∧ getN O.TIME_STATE s2 = tLocked then servoTo tHeld false s2 else s2

/-- A window's means against the reference (R413): a step, or one more window of the path. -/
def judgeWindow (c : Nat) (w : Int × Int × Int) (s : State) : State :=
  let x := getCar c s
  let t := x.tt
  let keep := t.refMode == x.runMode && decide (s.time.clocks - t.refClk ≤ getN O.TS_BASE_KEEP_S s * clkSec)
  let refs := if t.held then t.pendingRefs else if keep then t.refs else []
  let push (rs : List (Int × Int × Int)) : List (Int × Int × Int) := (w :: rs).take 16
  let th := getN O.TS_DELAY_STEP_NS s
  let m := refMean refs
  let stepped := !refs.isEmpty && (beyond (w.1 - m.1) th
    || (t.farValid && t.ownValid && (beyond (w.2.1 - m.2.1) th || beyond (w.2.2 - m.2.2) th)))
  if stepped then delayStep c w m s
  else if t.held then setCar c { x with tt := { t with pendingRefs := push refs } } s
  else setCar c { x with tt := { t with refs := push refs, refClk := s.time.clocks, refMode := x.runMode } } s

/-- A carrier's window closes (R410). -/
def carWindow (c : Nat) (s : State) : State :=
  let x := getCar c s
  let t := x.tt
  let s0 := setN (O.TT_SAMPLES + c) t.n s
  let clear (y : Carrier) : Carrier := { y with tt := { y.tt with
    n := 0, sumF := 0, sumR := 0, sumRtt := 0, discardWindows := y.tt.discardWindows - 1 } }
  if t.n = 0 then modCar c (fun y => clear { y with tt := { y.tt with ofsOk := false } }) s0
  else
    let f := meanPs t.sumF t.n
    let r := meanPs t.sumR t.n
    let rtt := meanPs t.sumRtt t.n
    let ofs := (f - r - getI (O.TT_ASYM_PS + c) s) / 2
    let wide := decide (secPs < ofs.natAbs)
    let s1 := setI (O.TT_OFS_PS + c) ofs (setI (O.TT_REV_PS + c) r (setI (O.TT_FWD_PS + c) f (setN (O.TT_RTT_PS + c) rtt.toNat s0)))
    let due := match t.ofsLog with | none => true | some k => decide (60 * clkSec ≤ s.time.clocks - k)
    let s2 := if wide && due then logEvent 0x6003 (c * 2 ^ 56 + ofSigned 48 (ofs * 65536 / 1000)) s1 else s1
    let s3 := modCar c (fun y => { y with tt := { y.tt with
      ofsOk := t.farValid && !wide, ofsLog := if wide && due then some s.time.clocks else y.tt.ofsLog } }) s2
    modCar c clear (judgeWindow c (rtt, f, r) s3)

/-- A port's round trip and offset follow the window (R410), and with them hold time and cap (R334, R337, R346). -/
def portWindow (n : Nat) (s : State) : State :=
  let cs := (carsOf n s).filter fun c => carInActive c s && getN (O.TT_SAMPLES + c) s != 0
  let rtt := cs.foldl (fun m c => max m (getN (O.TT_RTT_PS + c) s)) 0 / 1000
  let s1 := if cs.isEmpty || getN (O.LP_RTT_NS + n) s == rtt then s
    else evictPort n (rsShare n s) (releaseAged n (refreshPort n (setN (O.LP_RTT_NS + n) rtt s)))
  let qs := qualifying n s1
  if qs.isEmpty then s1
  else setI (O.LP_OFS_PS + n) (qs.foldl (fun a c => a + getI (O.TT_OFS_PS + c) s1) 0 / (qs.length : Int)) s1

/-- A 1 ms window closes on every carrier (R410). -/
def ttWindow (s : State) : State :=
  let s1 := (List.range 8).foldl (fun u c => carWindow c u) s
  settleFlags ((List.range 4).foldl (fun u n => portWindow n u) s1)

/-- HELD ends: LOCKED while the port is still qualified, and otherwise as LOCKED does (Table 15.3). -/
def heldEnds (s : State) : State :=
  let src := srcSelect s
  if !procUp 4 s then toHoldover s
  else if srcQualified (getN O.TIME_SRC s) s && getN O.TIME_SRC s != 0 then toLocked (getN O.TIME_SRC s) false s
  else if src = 0 then toHoldover s
  else
    let t := logEvent 0x6002 src (setN O.TIME_SRC src s)
    if nsUnits (getN O.TS_STEP_NS t) < (srcError src t).natAbs then servoTo tAcquiring true t else toLocked src false t

/-- The settling of a delay step ends (R414 t1). -/
def delaySettled (c : Nat) (s : State) : State :=
  let x := getCar c s
  if !x.tt.held then s
  else
    let s1 := logEvent 0x6012 (c * 2 ^ 56) (setCar c { x with tt := { x.tt with
      held := false, refs := x.tt.pendingRefs, refClk := s.time.clocks, refMode := x.runMode, pendingRefs := [] } } s)
    let still := match linePortSel s1 with | some n => (carsOf n s1).any fun k => (getCar k s1).tt.held | none => false
    settleFlags (if getN O.TIME_STATE s1 != tHeld || still then s1 else heldEnds s1)

/-! ### Asymmetry (R412, R414) -/

/-- The carriers a TT_CAL_CMD names. -/
def calTargets (portWide : Bool) (target : Nat) (s : State) : List Nat := if portWide then carsOf (target % 4) s else [target]

/-- The code of a TT_CAL_CMD. -/
def calCode (cmd : Nat) (portWide : Bool) (target : Nat) : Nat := cmd * 256 + 8 * ofBool portWide + target

/-- CALIBRATE is accepted while the servo is LOCKED to no LINE source of the carrier's port (R412). -/
def calAllowed (portWide : Bool) (target : Nat) (s : State) : Bool :=
  getN O.TIME_STATE s == tLocked && (calTargets portWide target s).all fun c =>
    match portOfCar c s with | some n => getN O.TIME_SRC s != 0x30 + n | none => true

/-- The measurement starts. -/
def calStart (portWide : Bool) (target : Nat) (s : State) : State :=
  (calTargets portWide target s).foldl (fun u c => modCar c (fun x => { x with
    tt := { x.tt with calOn := true, calSum := 0, calN := 0 } }) u) s

/-- Store A_c; the spec states no result outside I32 (log entry 53). -/
def setAsym (c : Nat) (a : Int) (s : State) : State :=
  if -2147483648 ≤ a ∧ a ≤ 2147483647 then setI (O.TT_ASYM_PS + c) a s
  else freeNext (setN (O.TT_ASYM_PS + c) (freeAt 53 s % 2 ^ 32) s)

/-- TT_CAL_S ends (R412). -/
def calEnd (c : Nat) (s : State) : State :=
  let x := getCar c s
  if !x.tt.calOn then s
  else
    let t := setCar c { x with tt := { x.tt with calOn := false } } s
    if !calAllowed false c t then logEvent 0x6021 (c * 2 ^ 56 + 1) t
    else if x.tt.calN < 1000000 then logEvent 0x6021 (c * 2 ^ 56 + 2) t
    else
      let u := setN (O.TT_ASYM_STATE + c) 2 (setAsym c (meanPs x.tt.calSum x.tt.calN) t)
      settleFlags (logEvent 0x6020 (c * 2 ^ 56 + getN (O.TT_ASYM_PS + c) u) u)

/-- CLEAR marks carriers UNCAL: A_c is 0. -/
def asymClear (portWide : Bool) (target : Nat) (s : State) : State :=
  settleFlags ((calTargets portWide target s).foldl (fun u c => setN (O.TT_ASYM_STATE + c) 0 (setN (O.TT_ASYM_PS + c) 0 u)) s)

/-- ACCEPT adds the last step and marks carriers LOADED (R414). -/
def asymAccept (portWide : Bool) (target : Nat) (s : State) : State :=
  settleFlags ((calTargets portWide target s).foldl (fun u c =>
    let d := (getCar c u).tt.lastStep
    setN (O.TT_ASYM_STATE + c) 1 (setAsym c (getI (O.TT_ASYM_PS + c) u + d.1 - d.2) u)) s)

/-- A write of TT_ASYM_PS marks the carrier LOADED (R412). -/
def asymWrite (c v : Nat) (s : State) : State := settleFlags (setN (O.TT_ASYM_STATE + c) 1 (setN (O.TT_ASYM_PS + c) v s))

/-! ### References (R405) -/

/-- The 10 MHz input is present, or lost: EV-0x6004; with REF156 gone as well the servo enters HOLDOVER (Table 20.14). -/
def ref10m (present : Bool) (s : State) : State :=
  let was := bitOf (getN O.TIME_FLAGS s) 11
  let t := settleFlags (setObjBit O.TIME_FLAGS 11 present s)
  if was && !present then
    let u := logEvent 0x6004 1 t
    if bitOf (getN O.EMERG_FLAGS u) 10 then timDown u else u
  else t

/-- A rising edge of 1PPS: stamped, and labelled with TS_PPS_TOD, which advances (Table 15.2). -/
def ppsPulse (s : State) : State :=
  let tod := getN O.TS_PPS_TOD s
  let err : Int := ((tod * 1000000000 * 65536 : Nat) : Int) - (timeBase s : Int)
  let t := modTime (fun x => { x with ppsEdges := (s.time.clocks :: x.ppsEdges).take 3, ppsErr := if x.ppsTodSet then err else x.ppsErr }) s
  settleFlags (if s.time.ppsTodSet then setN O.TS_PPS_TOD ((tod + 1) % 2 ^ 48) t else t)

/-- A write of TS_PPS_TOD: its reserved bits are ignored. -/
def ppsTod (v : Nat) (s : State) : State := modTime (fun x => { x with ppsTodSet := true }) (setN O.TS_PPS_TOD (v % 2 ^ 48) s)

/-- A write of TS_SET (R407). -/
def tsSetEffect (v : Nat) (s : State) : State := stepTb ((v / 2 ^ 32 * 1000000000 + v % 2 ^ 32) * 65536) s

/-- TS_SET is refused while a source other than FREE is selected. -/
def tsSetCheck (s : State) : Nat := if getN O.TIME_SRC s = 0 then 0 else 0x30

/-! ### PTP (R415) -/

/-- A port's ordinary clock. -/
def getPtp (k : Nat) (s : State) : PtpPort := smGet (fun _ => ({} : PtpPort)) k s.time.ptp

/-- Store it. -/
def setPtp (k : Nat) (p : PtpPort) (s : State) : State := modTime (fun t => { t with ptp := smPut (fun _ => ({} : PtpPort)) k p t.ptp }) s

/-- A Sync whose origin time is known: the slave asks for the delay. -/
def ptpSynced (k t1 : Nat) (p : PtpPort) (s : State) : State :=
  let now := timeBase s
  fabSend ⟨k, false, clsCtrl, .ptpSend k (.delayReq k)⟩ (setPtp k { p with t1 := some t1, t3 := now, offset := some ((p.t2 : Int) - t1 - p.delay) } s)

/-- A message in the domain on a port enabled in PTP_PORTS (R415): a master answers Delay_Req; a slave follows the best
master's Announce, and forms offset and delay from its messages. -/
def ptpTake (k domain : Nat) (m : PtpBody) (s : State) : State :=
  let p := getPtp k s
  let now := timeBase s
  if !bitOf (getN O.PTP_PORTS s) k || domain != getN O.PTP_DOMAIN s || !procUp 4 s then s
  else if bitOf (getN O.PTP_MASTER s) k then
    (match m with
      | .delayReq r => fabSend ⟨k, false, clsCtrl, .ptpSend k (.delayResp r now)⟩ s
      | _ => s)
  else match m with
    | .announce rank cc => if p.slave && p.rank < rank then s else setPtp k { p with slave := true, rank := rank, clockClass := cc } s
    | .sync o two =>
      if !p.slave then s
      else if two then setPtp k { p with t1 := none, t2 := now } s
      else ptpSynced k o { p with t2 := now } s
    | .followUp o => if p.slave && p.t1.isNone then ptpSynced k o p s else s
    | .delayResp r t4 =>
      match p.t1 with
      | some t1 =>
        if !p.slave || r != k then s
        else
          let d : Int := (((p.t2 : Int) - t1) + ((t4 : Int) - p.t3)) / 2
          setPtp k { p with delay := d, offset := some ((p.t2 : Int) - t1 - d) } s
      | none => s
    | .delayReq _ => s

/-- What a master sends of its own at a clock, where the spec fixes no times (free value 303): nothing, a one-step Sync, a two-step Sync with
its Follow_Up, or an Announce; 128 Syncs in a second at most (R415, Table 15.6; log entry 168). -/
def ptpMaster (k : Nat) (s : State) : State :=
  let p := getPtp k s
  let now := timeBase s
  let mayBe := match p.syncClk with | some c => decide (c + 9765625 ≤ s.time.clocks) | none => true
  let out (m : PtpBody) (u : State) : State := fabSend ⟨k, false, clsCtrl, .ptpSend k m⟩ u
  let synced := setPtp k { p with syncClk := some s.time.clocks } s
  freeNext (match freeAt 303 s % 4, mayBe with
    | 1, true => out (.sync now false) synced
    | 2, true => out (.followUp now) (out (.sync now true) synced)
    | 3, _ => out (.announce (freeAt 303 s / 4 % 2 ^ 32) (freeAt 303 s / 2 ^ 34 % 256)) s
    | _, _ => s)

/-- The masters among the enabled ports run while TIM does (R415). -/
def ptpMasters (s : State) : State :=
  if !procUp 4 s then s
  else (bitsSet 16 (getN O.PTP_PORTS s &&& getN O.PTP_MASTER s)).foldl (fun u k => if (getFab k u).lst == 2 then ptpMaster k u else u) s

/-! ### The tick (R322, R323, R402) -/

/-- A ledger record (Table 11.15). -/
def ledgerRecord (tick : Nat) (l : Ledger) : List Byte :=
  let w (v : Nat) : List Byte := bytesLE 8 v
  w tick ++ w l.framesTx ++ w l.rxGood ++ w l.uncorr ++ w l.badHdr ++ w l.prevMissing ++ w l.authFail ++ w l.bipBlocks
    ++ w l.bipBits ++ w l.fecCorrBits ++ w l.segsRx ++ w l.segsBad ++ w l.clMsgsRx ++ bytesLE 4 l.huntEntries
    ++ bytesLE 2 (l.swChanges % 65536) ++ bytesLE 2 (l.defectSecs % 128) ++ w l.probeRx ++ w l.clUnknown

/-- Latch a carrier's counters; a defect reported across the tick is flagged in both seconds. -/
def latchCar (tick c : Nat) (s : State) : State :=
  modCar c (fun x => { x with
    records := (x.records ++ [ledgerRecord tick x.ledger]).drop (x.records.length - 63),
    ledger := { x.ledger with defectSecs := x.reported } }) s

/-- Commit group 0x60 applies at the tick (Table 2.8): the inputs follow, and a port no longer enabled loses its clock. -/
def timeConfigured (s : State) : State :=
  settleFlags (modTime (fun t => { t with ptp := t.ptp.filter fun p => bitOf (getN O.PTP_PORTS s) p.1 }) s)

/-- The boundary SECOND of an armed group comes. -/
def cgSecond (s : State) : State :=
  if (getCg 0x60 s).cgState = 2 then timeConfigured (cgDone 0x60 (cgLoad 0x60 s)) else s

/-- A one-second tick: the seconds of the time base reach a value no earlier record holds (R323). -/
def secondTick (s : State) : State :=
  let sec := timeSec s
  if !(getCar 0 s).records.isEmpty && sec ≤ getN O.LEDGER_TICK s then s
  else
    let s1 := rebase s
    cgSecond (setN O.LEDGER_TICK sec ((List.range 8).foldl (fun u c => latchCar sec c u) s1))

end Sys2Proof.Machine
end

