-- ==== Sys2Proof/Machine/CgApply.lean ====
section
/-! DEFINITION. What the application of each commit group does beside giving its members their values (R64, Table 2.8). -/

namespace Sys2Proof.Machine

/-! ### The optimizer shard region (R119, R221) -/

/-- The whole optimizer shard region is discarded: the committed step reads 0, and a load may follow. Its page table is that of the
applied OS_TABLE. -/
def discardShard (s : State) : State :=
  let o := s.os
  let s1 := { s with os := { ({} : OuterStep) with
    eta := o.eta, beta := o.beta, etaC := o.etaC, betaC := o.betaC, pendPair := o.pendPair } }
  freshPages 0 (setN O.OS_SWEEP_PENDING 0 (setN O.OS_CUR_STEP 0 (setN O.OS_ATTEMPT 0 (setN O.OS_COMMITTED_STEP 0 s1))))

/-! ### The HBM split (R220, R221) -/

/-- The image of one program, cell by cell from the start of its crate, with its poisoned words. -/
def imageCells (h : Nat) (s : State) : List (Nat × Byte) × List (Nat × Bool) :=
  let a := crateAddr h s
  ((s.mem.filter fun c => a ≤ c.1 && c.1 < a + mib).map fun c => (c.1 - a, c.2),
   (s.poison.filter fun c => a / 8 ≤ c.1 && c.1 < (a + mib) / 8).map fun c => (c.1 - a / 8, c.2))

/-- Put an image's cells into a crate. -/
def placeImage (h : Nat) (cells : List (Nat × Byte) × List (Nat × Bool)) (s : State) : State :=
  let a := crateAddr h s
  { s with
    mem := s.mem.filter (fun c => c.1 < a) ++ cells.1.map (fun c => (a + c.1, c.2)) ++ s.mem.filter (fun c => a + mib ≤ c.1)
    poison := s.poison.filter (fun c => c.1 < a / 8) ++ cells.2.map (fun c => (a / 8 + c.1, c.2))
      ++ s.poison.filter (fun c => (a + mib) / 8 ≤ c.1) }

/-- The last holder of some bytes of a crate was of a tenant (R230). -/
def noteTenant (h tenant : Nat) (s : State) : State :=
  let c := getCrate h s
  setCrate h { c with lastTenant := match c.lastTenant with | none => some tenant | some t => some (if t = tenant then t else 64) } s

/-- The tenants that an old split's HBM crates remember, carried to the crates that have their bytes in the new one (R230). -/
def carryTenants (old s : State) : State :=
  (old.pools.crates.filter fun c => 4 ≤ handleClass c.1).foldl (fun u c =>
    match c.2.lastTenant with
    | none => u
    | some t => (List.range (classSize (handleClass c.1) / 16384)).foldl (fun v i =>
        match crateOfAddr (crateAddr c.1 old + 16384 * i) v with | some h => noteTenant h t v | none => v) u) s

/-- The pools after a new split: every HBM crate is free but those of the registered images, which lie in the lowest H1M
crates of the new pool (log entry 62), and those whose handles a ring error has lost (Table 8.5). `old` is the state before the split
applied. -/
def repool (old s : State) : State :=
  let ps := s.comp.programs.zipIdx
  let images := ps.map fun p => (mkHandle 6 p.2, imageCells p.1.crate old, getCrate p.1.crate old)
  let moved (h : Nat) : Nat := match ps.find? fun p => p.1.crate == h with | some p => mkHandle 6 p.2 | none => h
  let used (cls : Nat) : List Nat := ((s.pools.lost ++ images.map (·.1)).filter (handleClass · == cls)).map handleIndex
  let s1 := { s with
    pools := { s.pools with crates := s.pools.crates.filter fun c => c.1 / 2 ^ 28 < 4 }
    comp := { s.comp with
      programs := ps.map fun p => { p.1 with crate := moved p.1.crate }
      placements := s.comp.placements.map fun p => (p.1, { p.2 with prog := { p.2.prog with crate := moved p.2.prog.crate } })
      placeQueue := s.comp.placeQueue.map fun q => { q with prog := { q.prog with crate := moved q.prog.crate } } } }
  let s2 := [4, 5, 6].foldl (fun u cls => setStore cls (FreeStore.fresh (classCount cls u) (used cls)) u) (carryTenants old s1)
  images.foldl (fun u i => setCrate i.1 i.2.2 (placeImage i.1 i.2.1 u)) s2

/-- Commit group 0x58 is applied (R221, R333): a change of HBM_RESEND_GIB discards the shard region, and the re-send store starts
empty. -/
def hbmApplied (old s : State) : State :=
  let s1 := repool old s
  if getN O.HBM_RESEND_GIB old = getN O.HBM_RESEND_GIB s1 then refreshLine s1
  else
    let s2 := (List.range 4).foldl (fun u n => emptyStore n u) (discardShard s1)
    logEvent 0x5807 (getN O.HBM_RESEND_GIB s1) (refreshLine s2)

/-! ### Application (R64 t3) -/

/-- What an applied group does, from the state before its values were loaded and the state after. -/
def cgEffect (id : Nat) (old s : State) : State :=
  if 0x21 ≤ id ∧ id ≤ 0x28 then
    let c := id - 0x21
    carConfigured c ([2, 3, 4].any fun k => getN (carKey c k) old != getN (carKey c k) s) s
  else match id with
  | 0x2C => applyBatch (getB O.SCHED_BATCH s) s
  | 0x2D =>
    let t := (List.range 4).foldl (fun u n => modPort n (fun p => { p with everActive := false }) u) s
    lineSettle ((List.range 4).foldl (fun u n =>
      if getN (O.LP_CAP_MBPS + n) old = getN (O.LP_CAP_MBPS + n) s then u else keepTokens old (2080 + n) u) t)
  | 0x30 => fabricApplied old s
  | 0x40 => groupApply s
  | 0x48 => if getB O.OS_TABLE old = getB O.OS_TABLE s then s else discardShard s
  | 0x49 => modOs (fun o => { o with pendPair := some (getN O.OS_ETA s, getN O.OS_BETA s) }) s
  | 0x58 => hbmApplied old s
  | 0x60 => timeConfigured s
  | 0x88 => lineSettle s
  | _ => s

/-- Every member takes its value and the group acts. -/
def cgTake (id : Nat) (s : State) : State := cgEffect id s (cgLoad id s)

/-- The carriers an application with boundary FRAME concerns. -/
def frameCarriers (id : Nat) (s : State) : List Nat :=
  (if 0x21 ≤ id ∧ id ≤ 0x28 then [id - 0x21] else List.range 8).filter fun c => carSends c s

/-- The boundary of an armed group has come: it is CLEAN, and its values are in force (R64 t3). -/
def cgCome (id : Nat) (s : State) : State := cgEffect id s (cgDone id (cgLoad id s))

/-- A group is armed (R64 t2). For boundary FRAME the values are taken at this instant, and used by each carrier from the next
frame it begins; the group is CLEAN once every carrier concerned has begun one. -/
def cgArm (id : Nat) (s : State) : State :=
  let g := getCg id s
  let s1 := setCg id { g with cgState := 2 } s
  if boundaryCome id s1 then cgCome id s1
  else if cgBoundary id = 1 then
    let wait := frameCarriers id s1
    if wait.isEmpty then cgCome id s1
    else setCg id { getCg id s1 with waitCarriers := wait, loaded := true, before := g.shadow.map fun p => (p.1, getObj p.1 s1) } (cgTake id s1)
  else s1

/-- A change is aborted, not applied (R67): of an armed one whose values a FRAME application has taken, each member that still holds the
shadow's value takes back the value it had at arming, and the group acts again (log entry 90). -/
def cgAbortArmed (id : Nat) (s : State) : State :=
  let g := getCg id s
  if g.cgState = 2 ∧ g.loaded then
    cgAbort id (cgEffect id s (g.before.foldl (fun u p => if getObj p.1 u = shadowVal g p.1 u then setObj p.1 p.2 u else u) s))
  else cgAbort id s

/-- The boundary of an armed group comes for carrier `c`, or, with another boundary, at all (R64, Table 2.8). -/
def cgBoundaryAt (id c : Nat) (s : State) : State :=
  let g := getCg id s
  if g.cgState ≠ 2 then s
  else if g.loaded then
    let w := g.waitCarriers.filter fun d => carSends d s && (d != c)
    if w.isEmpty then cgDone id s else setCg id { g with waitCarriers := w } s
  else if boundaryCome id s then cgCome id s
  else s

end Sys2Proof.Machine
end

