-- ==== Sys2Proof/Machine/FabricOps.lean ====
section
/-! DEFINITION. Local-fabric ports and their failover (R452 to R454), RoCE connections (R457 to R461) and board links (R420, R462,
R463). -/

namespace Sys2Proof.Machine

/-! ### Ports (R452 to R454) -/

/-- The failover partner of a port, if it has one. -/
def fabPartner (k : Nat) (s : State) : Option Nat :=
  let p := getN (O.LF_FAILOVER + k) s
  if p < 16 && p != k && fabExists p s then some p else none

/-- Announce the addresses of identity `k` from a port (R454): its IPv4 and its IPv6 address, where it has them. -/
def announceId (port k : Nat) (s : State) : State :=
  let mac := getN (O.LF_PORT_MAC + k) s
  let v4 := getN (O.LF_PORT_IPV4 + k) s / 2 ^ 32
  let v6 := getB (O.LF_PORT_IPV6 + k) s
  let t := if v4 = 0 then s else emit (.arpAnnounce port mac v4) s
  if v6.isEmpty then t else emit (.neighbourAdvert port mac (natOfBE (v6.take 16))) t

/-- Announce every identity of a mask from a port. -/
def announceIds (port ids : Nat) (s : State) : State := (bitsSet 16 ids).foldl (fun u k => announceId port k u) s

/-- Everything a failed port carries moves to its partner, if that is UP (R454). -/
def failover (k : Nat) (s : State) : State :=
  let x := getFab k s
  match fabPartner k s with
  | some p =>
    let y := getFab p s
    if y.lst = 2 ∧ x.serving ≠ 0 then
      let t := setFab p { y with serving := y.serving ||| x.serving } (setFab k { x with lst := 4, serving := 0 } s)
      fabRelease (logEvent 0x3003 (k * 256 + p) (announceIds p x.serving t))
    else s
  | none => s

/-- The ports of a fenced octet, which stay DOWN, fail over to a port that has come up (Table 21.2). -/
def fencedFailover (p : Nat) (s : State) : State :=
  (List.range 16).foldl (fun u k => if fabFenced k u && fabPartner k u == some p && (getFab k u).serving != 0 then failover k u else u) s

/-- A port has aligned and locked (R452): it is UP; the identity it lost stays with its partner until failback. -/
def portComesUp (k : Nat) (s : State) : State :=
  let x := getFab k s
  if fabExists k s && !fabFenced k s && (x.lst == 1 || x.lst == 3 || x.lst == 4) then
    fabRelease (fencedFailover k (logEvent 0x3001 k (setFab k { x with lst := 2, retried := false, paused := 0 } s)))
  else s

/-- A port that has not come up in 500 ms starts again (R452). -/
def portRetries (k lane : Nat) (s : State) : State :=
  let x := getFab k s
  if fabExists k s && !fabFenced k s && (x.lst == 1 || x.lst == 3 || x.lst == 4) then
    logEvent 0x3002 (k * 256 + lane) (setFab k { x with retried := true } s)
  else s

/-- A lane of an UP port is lost for 10 µs (R453); `uncorr` uncorrectable codewords have come on the port since it last went DOWN
(LF_FEC_UNCORR_CW; log entry 170). -/
def portGoesDown (k lane uncorr : Nat) (s : State) : State :=
  let x := getFab k s
  if x.lst = 2 then
    failover k (logEvent 0x3002 (k * 256 + lane) (fabLose k (setFab k { x with
      lst := 3, downs := (x.downs + 1) % 2 ^ 32, paused := 0, uncorr := (x.uncorr + uncorr) % 2 ^ 64 } s)))
  else s

/-- A port that has been UP for LF_FAILBACK_MS takes its identity back (R454). -/
def failsBack (k : Nat) (s : State) : State :=
  let x := getFab k s
  match fabCarrier k s with
  | some p =>
    if x.lst = 2 ∧ p ≠ k then
      let t := modFab p (fun y => { y with serving := clrBit y.serving k }) (setFab k { x with serving := setBit x.serving k } s)
      fabRelease (logEvent 0x3003 (p * 256 + k) (announceId k k t))
    else s
  | none => s

/-! ### Queue pairs (R457 to R461) -/

/-- The services of Table 17.4: 1 window data, 2 window door, 3 state transfer; 0 for another service ID. -/
def serviceOf (id : Nat) : Nat :=
  if id = 0x4E4C00000001 then 1 else if id = 0x4E4C00000002 then 2 else if id = 0x4E4C00000003 then 3 else 0

/-- The most queue pairs of a service. -/
def serviceLimit : Nat → Nat
  | 1 => 16 | 2 => 1 | 3 => 256 | _ => 0

/-- The door queue pair has the first number of the range, so that a REP can name it before it is connected (log entry 63). -/
def doorQpn (s : State) : Nat := getN O.LF_QPN_BASE s

/-- The number a new queue pair gets: the lowest free one (log entry 63). -/
def newQpn (svc : Nat) (s : State) : Option Nat :=
  if svc = 2 then some (doorQpn s)
  else (List.range 4095).findSome? fun i =>
    let q := doorQpn s + 1 + i
    if s.host.qps.any fun p => p.1 == q then none else some q

/-- The length of the shard window: the shard in OS_SITE_FMT; none while OS_MODE is OFF (R458). -/
def windowLen (s : State) : Nat :=
  if getN O.OS_MODE s = 0 then 0 else elemBytes (getN O.OS_SITE_FMT s) * osParams s

/-- The shard window's rkey (R459): left open (free value 63), and one for all its connections. -/
def windowRkey (s : State) : Nat := s.host.rkey.getD (freeAt 63 s % 2 ^ 32)

/-- The private data of a REP (R459): for a window connection the rkey, the window's length and the door queue pair's number. -/
def repData (svc : Nat) (s : State) : List Byte :=
  if svc = 3 then [] else bytesBE 4 (windowRkey s) ++ bytesBE 8 (windowLen s) ++ bytesBE 4 (doorQpn s)

/-- A CM REQ on port `k` (R458, R459), answered in the control class (R455). -/
def cmRequest (k service remote : Nat) (b : DoorBufs) (s : State) : State :=
  let svc := serviceOf service
  let used := (s.host.qps.filter fun p => p.2.service == svc).length
  if !fabReached k s then s
  else if svc = 0 ∨ !bitOf (getN O.LF_WIN_PORTS s) k ∨ 4096 ≤ s.host.qps.length ∨ serviceLimit svc ≤ used
      ∨ (svc ≠ 3 ∧ windowLen s = 0) ∨ (svc = 3 ∧ !featActive 5 s) then fabSend ⟨k, true, clsCtrl, .cmRej k⟩ s
  else match newQpn svc s with
  | none => fabSend ⟨k, true, clsCtrl, .cmRej k⟩ s
  | some q =>
    let d (v : Nat) : Nat := if svc = 2 then v else 0
    let x : QueuePair := {
      service := svc, port := k, remote := remote, retVa := d b.retVa, retRkey := d b.retRkey, outVa := d b.outVa, outRkey := d b.outRkey }
    let t := { s with host := { s.host with
      qps := s.host.qps ++ [(q, x)], rkey := if svc = 3 then s.host.rkey else some (windowRkey s) } }
    fabSend ⟨k, true, clsCtrl, .cmRep k q (repData svc s)⟩ (setN O.LF_QP_USED t.host.qps.length t)

/-- Change a queue pair. -/
def modQp (q : Nat) (f : QueuePair → QueuePair) (s : State) : State :=
  { s with host := { s.host with qps := s.host.qps.map fun p => if p.1 == q then (p.1, f p.2) else p } }

/-- The NAK codes of the InfiniBand architecture that R461 and R460 use: Remote Access Error, and Remote Operational Error (PRESUMED, log
entry 170). -/
def nakAccess : Nat := 2
def nakOperational : Nat := 3

/-- A CE-marked packet makes the gateway send a CNP, at most one in 50 µs on a queue pair (R457). -/
def ceMarked (q : Nat) (x : QueuePair) (s : State) : State :=
  match x.cnpSent with
  | some t => if s.time.clocks < t + 62500 then s else qpSend q (.cnp q) (modQp q (fun y => { y with cnpSent := some s.time.clocks }) s)
  | none => qpSend q (.cnp q) (modQp q (fun y => { y with cnpSent := some s.time.clocks }) s)

/-- A request packet for a queue pair, CE-marked or not: one that is not connected is answered by a promoted spare alone (R461). -/
def onQp (q : Nat) (ce : Bool) (f : QueuePair → State → State) (s : State) : State :=
  match findQp q s with
  | some x => if fabReached x.port s then f x (if ce then ceMarked q x s else s) else s
  | none =>
    let mine := getN O.LF_QPN_BASE s ≤ q && q ≤ getN O.LF_QPN_BASE s + 4095
    if mine && getN O.CR_STATE s == 3 then emit (.rdmaNak q nakOperational) (addN O.LF_NAK_UNCONNECTED 1 s) else s

/-- An RDMA WRITE (R460): it lands in the shard window and is acknowledged then; outside the window it is not acknowledged but
refused, as the InfiniBand architecture has it. -/
def rdmaWritten (q va : Nat) (bs : List Byte) (ce : Bool) (s : State) : State :=
  onQp q ce (fun x u =>
    if x.service = 1 then
      if va + bs.length ≤ windowLen u then qpSend q (.rdmaAck q) (modOs (fun o => { o with window := memWrite va bs o.window }) u)
      else qpSend q (.rdmaNak q nakAccess) u
    else if x.service = 3 then qpSend q (.rdmaAck q) u
    else qpSend q (.rdmaNak q nakAccess) u) s

/-- An RDMA READ (R457). -/
def rdmaReadServed (q va len : Nat) (ce : Bool) (s : State) : State :=
  onQp q ce (fun x u =>
    if x.service = 1 ∧ va + len ≤ windowLen u then qpSend q (.rdmaReadData q (memRead va len u.os.window)) u
    else qpSend q (.rdmaNak q nakAccess) u) s

/-- The share of its full rate a queue pair sends at, of 65,536: from what the last CNP left it, back to all of it linearly in 1 ms
(R457). -/
def QueuePair.rate (x : QueuePair) (now : Nat) : Nat :=
  match x.cnpClk with
  | some t => min 65536 (x.cnpRate + (65536 - x.cnpRate) * (now - t) / 1250000)
  | none => 65536

/-- A CNP: the queue pair's rate is halved now, and recovers over 1 ms (R457). -/
def cnpTaken (q : Nat) (s : State) : State :=
  modQp q (fun x => { x with cnpRate := x.rate s.time.clocks / 2, cnpClk := some s.time.clocks }) s

/-! ### Board links (R10, R420, R462, R463) -/

/-- The board link that reaches a place; none to the own place. -/
def linkOf (q : Nat) (s : State) : Option Nat :=
  let p := getN O.BG_PLACE s
  if q = p ∨ 8 < q then none else some (if q < p then q else q - 1)

/-- Whether a place is fitted (R11). -/
def fitted (q : Nat) (s : State) : Bool := q < 9 && bitOf (getN O.BG_MEMBER_MASK s) q

/-- Whether a board link is up and may be used (R10). -/
def linkUsable (i : Nat) (s : State) : Bool := 2 ≤ getN (O.BL_STATUS + i) s && !bitOf (getN O.BL_PEER_FAULT s) i

/-- Whether the gateway's board links run: from the end of BOOT, while its place is known (R418, R462). -/
def linksRun (s : State) : Bool := s.crier.active

/-- A board link comes UP: this end gives its board group and place, and takes the far end's (R10, R462). -/
def linkComesUp (i group place : Nat) (s : State) : State :=
  if !linksRun s || 2 ≤ getN (O.BL_STATUS + i) s || s.dev.bist.fenced.contains (62 + i) then s
  else
    let ok := group == getN O.BG_GROUP_ID s && place == linkPlace i s
    let s1 := logEvent 0x3051 i (setObjBit O.CR_LINK (8 + i) false (setN (O.BL_STATUS + i) 2 s))
    let s2 := emit (.linkIdentity i (getN O.BG_GROUP_ID s) (getN O.BG_PLACE s)) s1
    if ok then setObjBit O.BL_PEER_FAULT i false s2 else logEvent 0x3050 i (setObjBit O.BL_PEER_FAULT i true s2)

/-- A board link goes down; messages that wait to leave on it are lost (R463). -/
def linkGoesDown (i : Nat) (s : State) : State :=
  if getN (O.BL_STATUS + i) s < 2 then s
  else
    let t := { s with host := { s.host with blTxWait := s.host.blTxWait.filter (·.1 != i) } }
    logEvent 0x3052 i (setObjBit O.CR_LINK (8 + i) false (setN (O.BL_STATUS + i) 0 t))

/-- One lane of a board link fails (R420): the link runs on the other; with both gone it is down. -/
def linkLaneFails (i : Nat) (s : State) : State :=
  match getN (O.BL_STATUS + i) s with
  | 2 => logEvent 0x8808 i (setObjBit O.CR_LINK (8 + i) true (setN (O.BL_STATUS + i) 3 s))
  | 3 => linkGoesDown i s
  | _ => s

/-- The check of a write of BL_MSG_TX (R463). -/
def blMsgCheck (bs : List Byte) (s : State) : Nat :=
  if bs.length < 2 ∨ 1024 < bs.length then 0x14
  else match linkOf ((bs.headD 0).toNat) s with
    | some i => if fitted (linkPlace i s) s && linkUsable i s then 0 else 0x30
    | none => 0x30

/-- The effect of a write of BL_MSG_TX: the message leaves, or waits while BL_FC_IN is high (R245, R463). -/
def blMsgEffect (bs : List Byte) (s : State) : State :=
  match linkOf ((bs.headD 0).toNat) s with
  | some i =>
    if bitOf s.pools.fcIn i then { s with host := { s.host with blTxWait := s.host.blTxWait ++ [(i, bs)] } }
    else emit (.blMessage i bs) s
  | none => s

/-- The words of a message arrive one after the other at a link's receive FIFO; `flow` says what passes after each (log entry 154): with
no entry left the reader keeps up. -/
def linkWords (i : Nat) : List FifoWord → List (List FifoEvent) → State → State
  | [], _, s => s
  | w :: ws, flow, s =>
    let t := linkWord i w s
    match flow with
    | [] => linkWords i ws [] (fifoDrain (0x100 + i) t)
    | es :: more => linkWords i ws more (fifoEvents (0x100 + i) es t)

/-- A board-group message arrives on a usable link (R246, R463); when the command is over both pointers have crossed. -/
def blMsgTaken (i : Nat) (body : List Byte) (poisoned : List Nat) (flow : List (List FifoEvent)) (s : State) : State :=
  if !linkUsable i s then s
  else fifoEvent (0x100 + i) .cross (linkWords i (messageWords poisoned 64 0 body) flow s)

/-- BL_MSG_RX: source place, a length of 2 bytes and the body of each message, oldest first, in the byte order of the source
that reads it. -/
def blMsgRx (big : Bool) (s : State) : List Byte :=
  s.host.blMsgs.flatMap fun m => bytesLE 1 m.1 ++ (if big then bytesBE 2 m.2.length else bytesLE 2 m.2.length) ++ m.2

end Sys2Proof.Machine
end

