-- ==== Sys2Proof/Machine/Optics.lean ====
section
/-! DEFINITION. The commands of carriers, lasers and margins (R373 to R400). -/

namespace Sys2Proof.Machine

/-- The gateway reads the module's status (R25). -/
def execLaserInt (m : ModuleRead) (s : State) : Host.Outcome State Fault Refusal := .next (takeModule m s)

/-- The module has not answered for 100 ms (R379). -/
def execLaserModuleSilent (s : State) : Host.Outcome State Fault Refusal := .next (moduleFaulty s)

/-- An unacknowledged transfer is counted and retried once; one not acknowledged again is counted again (R379). -/
def i2cRetried (m : Option ModuleRead) (s : State) : State :=
  let t := addN O.LM_I2C_ERRS 1 s
  match m with | some r => takeModule r t | none => addN O.LM_I2C_ERRS 1 t

/-- The retry of a transfer (R379). -/
def execI2cRetry (m : Option ModuleRead) (s : State) : Host.Outcome State Fault Refusal := .next (i2cRetried m s)

/-- LM_TUNE_MS has passed (R382, R394). -/
def tuneExpired (c : Nat) (s : State) : State :=
  let x := getCar c s
  let target := if x.laserMove = 1 then 8 + c / 4 else c
  if x.laserMove = 1 ∨ x.laserMove = 4 then (if (getLaser target s).tuned then s else lineSettle (moveFails c 2 s))
  else if x.cstate == .tuning then lineSettle (goDown c 1 s)
  else s

/-- A carrier or spare laser has not tuned in time (R382). -/
def execLmTuneExpiry (c : Fin 8) (s : State) : Host.Outcome State Fault Refusal := .next (tuneExpired c s)

/-- A locker sample (R380, R381). -/
def execLockerSample (c : Fin 8) (err : Int) (orderOk : Bool) (fmonDiff : Int) (s : State) : Host.Outcome State Fault Refusal :=
  .next (lockerSample c err orderOk fmonDiff s)

/-- The fine offset written to a laser: within its range, and otherwise left open by the spec (R380, log entry 49). -/
def fineSteer (c : Nat) (s : State) : State :=
  let x := getCar c s
  if !lncUp c s || !x.locked then s
  else
    let p := laserPos c s
    let f : Int := ((freeAt 49 s % 601 : Nat) : Int) - 300
    freeNext (lmWrite (lfReg p 6) (bytesBE 2 (ofSigned 16 f)) (modLaser p (fun l => { l with fine := f }) s))

/-- A laser is steered (R380). -/
def execLfFineSteer (c : Fin 8) (s : State) : Host.Outcome State Fault Refusal := .next (fineSteer c s)

/-- 10 ms of LOCKING without lock (R382). -/
def lockTimedOut (c : Nat) (s : State) : State :=
  if (getCar c s).cstate == .locking then lineSettle (goDown c 2 s) else s

/-- A carrier has not locked (R382). -/
def execLockTimeout (c : Fin 8) (s : State) : Host.Outcome State Fault Refusal := .next (lockTimedOut c s)

/-- LOS or LOCK is still raw after 2 s of ACQUIRING: EV-0x2002 once, and the state stays (R382). -/
def acquireTimedOut (c : Nat) (s : State) : State :=
  let x := getCar c s
  if x.cstate == .acquiring && x.raw % 4 != 0 && !x.acquireLogged then
    logEvent 0x2002 (c * 2 ^ 56 + 6) (setCar c { x with acquireLogged := true } s)
  else s

/-- A carrier has not acquired (R382). -/
def execAcquireTimeout (c : Fin 8) (s : State) : Host.Outcome State Fault Refusal := .next (acquireTimedOut c s)

/-- A DOWN carrier retunes (R382). -/
def downRetried (c : Nat) (s : State) : State :=
  if (getCar c s).cstate == .down && carEnabled c s && mayLight s then enterTuning c s else s

/-- MG_RETRY_S have passed since DOWN (R382). -/
def execDownRetry (c : Fin 8) (s : State) : Host.Outcome State Fault Refusal := .next (downRetried c s)

/-- The current MARGIN message is due again (R384). -/
def marginAgain (c : Nat) (s : State) : State :=
  let x := getCar c s
  if x.cstate == .probing && x.test.msg.isSome then modTest c (fun t => { t with msgDue := true }) s else s

/-- MARGIN is sent at least every 10 µs (R384). -/
def execMarginSend (c : Fin 8) (s : State) : Host.Outcome State Fault Refusal := .next (marginAgain c s)

/-- An OFFER is taken (R386). -/
def execOffer (c : Fin 8) (m : MarginMsg) (s : State) : Host.Outcome State Fault Refusal :=
  .next (takeMargin c { m with mgType := 1 } (laneCount c.val s))

/-- A REPORT is taken (R386). -/
def execMarginReport (c : Fin 8) (m : MarginMsg) (s : State) : Host.Outcome State Fault Refusal :=
  .next (takeMargin c { m with mgType := 2 } (laneCount c.val s))

/-- A SET is taken (R386). -/
def execSet (c : Fin 8) (m : MarginMsg) (s : State) : Host.Outcome State Fault Refusal :=
  .next (takeMargin c { m with mgType := 3 } (laneCount c.val s))

/-- A SET_ACK is taken (R386). -/
def execSetAck (c : Fin 8) (m : MarginMsg) (s : State) : Host.Outcome State Fault Refusal :=
  .next (takeMargin c { m with mgType := 4 } (laneCount c.val s))

/-- A JOIN is taken (R386). -/
def execJoin (c : Fin 8) (m : MarginMsg) (s : State) : Host.Outcome State Fault Refusal :=
  .next (takeMargin c { m with mgType := 5 } (laneCount c.val s))

/-- A measurement window ends (R386). -/
def execMgMeasEnd (c : Fin 8) (snr farOffset : Int) (skewOk : Bool) (s : State) : Host.Outcome State Fault Refusal :=
  .next (measEnd c snr farOffset skewOk s)

/-- An end has not acquired in the round's mode (R387). -/
def execMgAcqTimeout (c : Fin 8) (s : State) : Host.Outcome State Fault Refusal := .next (acqTimeout c s)

/-- A verification window ends (R389). -/
def execMgVerifyEnd (c : Fin 8) (snr : Int) (s : State) : Host.Outcome State Fault Refusal := .next (verifyEnd c snr s)

/-- The margin is updated in service (R390). -/
def execQmarginUpdate (c : Fin 8) (snr : Int) (s : State) : Host.Outcome State Fault Refusal := .next (marginUpdate c snr s)

/-- A drain ends by its limit (R392). -/
def execDrainWaitExpiry (c : Fin 8) (s : State) : Host.Outcome State Fault Refusal := .next (lineSettle (drainComplete c s))

/-- The lasers' trend is sampled (R393). -/
def execLaserTrendSample (samples : List LaserRead) (s : State) : Host.Outcome State Fault Refusal :=
  .next (lineSettle (trendSample samples s))

/-- The laser a carrier moves to has settled (R394). -/
def execSpareSettle (c : Fin 8) (s : State) : Host.Outcome State Fault Refusal := .next (lineSettle (moveSettled c s))

/-- A laser's power or LF_STAT shows a failure (R396). -/
def laserChecked (p : Nat) (power : Int) (s : State) : State :=
  let t := modLaser p (fun x => { x with power := power }) s
  if power < getI O.LASER_IN_MIN_CDBM t ∨ bitOf (getLaser p t).stat 2 then laserFailed p t else t

/-- A laser fails (R396). -/
def execLaserFail (pos : Fin 10) (power : Int) (s : State) : Host.Outcome State Fault Refusal := .next (laserChecked pos power s)

/-- RETEST of a carrier that is ACTIVE drains it for a test from the start; another is refused (R390, R382). -/
def retestEffect (c : Nat) (s : State) : State := startDrain c 3 3 (modTest c (fun t => { t with below := 0 }) s)

/-- RETEST needs a carrier that is ACTIVE in a native mode (log entry 50). -/
def retestCheck (c : Nat) (s : State) : Nat := if (getCar c s).cstate == .active && (getCar c s).mode != modeZ4 then 0 else 0x30

/-- CAR_CMD RETEST (R390). -/
def execRetest (sess : Fin 73) (c : Fin 8) (s : State) : Host.Outcome State Fault Refusal :=
  .next (numRow O.CAR_CMD sess (0x100 + c.val) (retestCheck c) (fun u => lineSettle (retestEffect c u)) s)

/-- LASER_SPARE needs a carrier on its working laser that is not moving, and a free spare input (R27, R395, log entry 50). -/
def spareCheck (c : Nat) (s : State) : Nat :=
  let x := getCar c s
  if x.cstate == .dark || x.spareIn || x.laserMove != 0 || (reserveSpare c s).isNone then 0x30 else 0

/-- LASER_SPARE moves a carrier to the spare without a fade (R395). -/
def spareEffect (c : Nat) (s : State) : State := match reserveSpare c s with | some t => t | none => s

/-- CAR_CMD LASER_SPARE (R395). -/
def execLaserSpare (sess : Fin 73) (c : Fin 8) (s : State) : Host.Outcome State Fault Refusal :=
  .next (numRow O.CAR_CMD sess (0x200 + c.val) (spareCheck c) (spareEffect c) s)

/-- LASER_RETURN is refused unless the carrier is on the spare input and its working laser is tuned with light enough
(R395). -/
def returnCheck (c : Nat) (s : State) : Nat :=
  let x := getCar c s
  let l := getLaser c s
  if x.spareIn && l.tuned && !bitOf l.stat 2 && decide (getI O.LF_FLOOR_CDBM s ≤ l.power) then (if x.laserMove = 0 then 0 else 0x30) else 0x14

/-- The working laser takes the place of the spare in R394; one tuned to the carrier's slot stays tuned. -/
def returnEffect (c : Nat) (s : State) : State :=
  let t := if (getLaser c s).targetMhz = slotMhz (carFreqN c s) then setLaserCtrl c 3 s else tuneLaser c c s
  modCar c (fun x => { x with laserMove := 4 }) (modLaser c (fun l => { l with fault := false }) t)

/-- CAR_CMD LASER_RETURN (R395). -/
def execLaserReturn (sess : Fin 73) (c : Fin 8) (s : State) : Host.Outcome State Fault Refusal :=
  .next (numRow O.CAR_CMD sess (0x300 + c.val) (returnCheck c) (returnEffect c) s)

/-- A calibration whose result is out of range is logged with its row of Table 14.8 (R398). -/
def calibrated (c row : Nat) (ok : Bool) (s : State) : State := if ok then s else logEvent 0x2051 (c * 2 ^ 56 + row) s

/-- The bias loop: within ±1% of Vπ (R398). -/
def execBiasDither (c : Fin 8) (err : Int) (s : State) : Host.Outcome State Fault Refusal :=
  .next (if lncUp c s && (getCar c s).cstate != .dark then calibrated c 1 (-10 ≤ err && err ≤ 10) s else s)

/-- The launch power loop: within ±0.5 dB of CAR_TX_CDBM (R398). -/
def launchLoop (c : Nat) (power : Int) (s : State) : State :=
  if !lncUp c s || (getCar c s).shutter then s
  else
    let d := power - getI (carKey c 5) s
    calibrated c 2 (-50 ≤ d && d ≤ 50) s

/-- The launch power loop updates (R398). -/
def execLaunchPowerLoop (c : Fin 8) (power : Int) (s : State) : Host.Outcome State Fault Refusal := .next (launchLoop c power s)

/-- The locker's offset is corrected by at most 0.1 GHz when it differs by more than 0.5 GHz; beyond ±1.5 GHz it is out of
range (R398). -/
def lockerCal (c : Nat) (diff : Int) (s : State) : State :=
  if !lncUp c s || (getCar c s).cstate == .dark then s
  else
    let step : Int := if 50 < diff then 10 else if diff < -50 then -10 else 0
    calibrated c 3 (-150 ≤ diff && diff ≤ 150) (modCar c (fun x => { x with lockerOff := x.lockerOff - step }) s)

/-- The locker's ring-heater offset is checked (R398). -/
def execLockerCalCheck (c : Fin 8) (diff : Int) (s : State) : Host.Outcome State Fault Refusal := .next (lockerCal c diff s)

end Sys2Proof.Machine
end

