-- ==== Sys2Proof/Machine/LowWrites.lean ====
section
/-! DEFINITION. Writes of the objects of the line, the local fabric, collectives and the outer step (0x2000 to 0x4FFF) outside commit
groups: each object's own check (R36), and its effect. -/

namespace Sys2Proof.Machine

/-- Order of two F32 codes that are no NaN. -/
def f32Less (a b : Nat) : Bool :=
  let key (v : Nat) : Int := if v < 2 ^ 31 then v else -((v - 2 ^ 31 : Nat) : Int)
  decide (key a < key b)

/-- A CAR_CMD: its code and carrier (Table 14.10). -/
def carCmdCheck (v : Nat) (s : State) : Nat :=
  let c := v % 8
  match v / 256 with
  | 1 => retestCheck c s
  | 2 => spareCheck c s
  | 3 => returnCheck c s
  | _ => 0x14

/-- The effect of a CAR_CMD. -/
def carCmdEffect (v : Nat) (s : State) : State :=
  let c := v % 8
  match v / 256 with
  | 1 => lineSettle (retestEffect c s)
  | 2 => spareEffect c s
  | _ => returnEffect c s

/-- A KEY_CMD: its code and transmit port (Table 13.10). -/
def keyCmdCheck (v : Nat) (s : State) : Nat :=
  match v / 256 with
  | 1 => 0
  | 2 => eraseNextCheck (v % 4) s
  | _ => 0x14

/-- The effect of a KEY_CMD. -/
def keyCmdEffect (v : Nat) (s : State) : State :=
  match v / 256 with
  | 1 => startChange (v % 4) s
  | _ => eraseNextEffect (v % 4) s

/-- An object's own check beyond the type, length and ranges of its directory entry. -/
def lowCheck (key : Nat) (v : ObjVal) (s : State) : Nat :=
  let n := v.toNat
  if key = O.MG_DOWN_CDB then (if n ≤ getN O.MG_TARGET_CDB s then 0 else 0x14)
  else if key = O.DEG_BER_CLR then (if f32Less n (getN O.DEG_BER_SET s) then 0 else 0x14)
  else if key = O.LF_CTRL_PRIO then (if n = getN O.LF_DATA_PRIO s then 0x14 else 0)
  else if key = O.CAR_CMD then carCmdCheck n s
  else if key = O.KEY_LOAD then keyLoadCheck v.toBytes s
  else if key = O.KEY_CMD then keyCmdCheck n s
  else if key = O.BL_MSG_TX then blMsgCheck v.toBytes s
  else if key = O.OS_CMD then osCmdCheck n s
  else 0

/-- Whether the hold times of the re-send store follow from an object (R334). -/
def holdObject (key : Nat) : Bool :=
  key == O.RS_HOLD_MARGIN_US || key == O.RS_RTT_DEFAULT_US || key == O.LR_REPEAT || key == O.LR_SPACING_US

/-- The effect of a write that passed its checks. -/
def lowEffect (key : Nat) (v : ObjVal) (s : State) : State :=
  let n := v.toNat
  if key = O.CAR_CMD then carCmdEffect n s
  else if key = O.KEY_LOAD then keyLoadEffect v.toBytes s
  else if key = O.KEY_CMD then keyCmdEffect n s
  else if key = O.BL_MSG_TX then blMsgEffect v.toBytes s
  else if key = O.OS_CMD then osCmdEffect n s
  else if holdObject key then settleLine (setObj key v s)
  else setObj key v s

end Sys2Proof.Machine
end

