-- ==== Sys2Proof/Machine/CrierOps.lean ====
section
/-! DEFINITION. The crier: heartbeats and suspicions (R418 to R420), crier messages (R426), fencing (R422 to R425), place profiles
(R429), promotion and its withdrawal and release (R421, R431 to R439). -/

namespace Sys2Proof.Machine

/-! ### Members -/

/-- The places of a mask. -/
def placesOf (m : Nat) : List Nat := bitsSet 9 m

/-- F, the number of fitted places. -/
def bgCount (s : State) : Nat := (placesOf (getN O.BG_MEMBER_MASK s)).length

/-- M = ⌊(F − 1)/2⌋ + 1 (R421). -/
def bgMajority (s : State) : Nat := (bgCount s - 1) / 2 + 1

/-- Whether a place of a mask is fitted and not this gateway's own. -/
def otherMembers (m : Nat) (s : State) : List Nat := (placesOf m).filter fun q => fitted q s && q != getN O.BG_PLACE s

/-- Change the crier. -/
def modCrier (f : CrierEngine → CrierEngine) (s : State) : State := { s with crier := f s.crier }

/-- Whether heartbeats and crier messages are sent and taken: from the end of BOOT, in a group of two or more (R418, R424). -/
def crierRuns (s : State) : Bool := s.crier.active && decide (2 ≤ bgCount s)

/-- Whether a board link carries crier traffic: it is up, obeys the wiring rule, and its far place is fitted (R10, R11). -/
def crierLink (i : Nat) (s : State) : Bool := linkUsable i s && fitted (linkPlace i s) s

/-! ### Heartbeats (R418, R419) -/

/-- SERVES of this gateway (Table 16.1). -/
def servesNow (s : State) : Nat :=
  if !isSpareGw s then getN O.BG_PLACE s
  else
    let a := getN O.CR_ADOPTED_PLACE s
    if a = 0xFF then 0xF else a

/-- A heartbeat symbol (Table 16.1). -/
def heartbeatWord (seq : Nat) (s : State) : Nat :=
  let failed := s.devState == .safe || s.devState == .halt
  let hi := getN O.BG_GROUP_ID s % 65536 * 2 ^ 48 + getN O.BG_PLACE s % 16 * 2 ^ 44 + servesNow s * 2 ^ 40
    + getN O.CR_PROMO_GEN s % 256 * 2 ^ 32 + seq % 65536 * 2 ^ 16 + ofBool failed * 2 ^ 15 + ofBool s.crier.fencedSelf * 2 ^ 14
    + ofBool (bitOf (getN O.DEV_FLAGS s) 0) * 2 ^ 13 + ofBool (getN O.CR_SUSPECT s != 0) * 2 ^ 12 + ofBool s.crier.served * 2 ^ 11
  hi + crc8 (bytesBE 7 (hi / 256))

/-- Send a heartbeat on one link. -/
def sendHeartbeat (i : Nat) (s : State) : State :=
  if crierLink i s then
    let k := (smGet (fun _ => 0) i s.crier.seq + 1) % 65536
    emit (.heartbeat i (heartbeatWord k s)) (modCrier (fun c => { c with seq := smPut (fun _ => 0) i k c.seq }) s)
  else s

/-- The members whose valid heartbeats are current, or whether there are enough of them (R422, R425). -/
def settleEnough (s : State) : State :=
  let n := (otherMembers s.crier.current s).length
  let v : Option Nat := if bgMajority s ≤ n then some (s.crier.enoughSince.getD s.time.clocks) else none
  modCrier (fun c => { c with enoughSince := v }) s

/-- The bytes of a crier message (Tables 16.2 and 16.3). -/
def crierFrame (ctype dst : Nat) (body : List Byte) (s : State) : List Byte :=
  let h := bytesBE 1 ctype ++ [1#8] ++ bytesBE 2 (getN O.BG_GROUP_ID s) ++ bytesBE 1 (getN O.BG_PLACE s) ++ bytesBE 1 dst
    ++ bytesBE 1 (getN O.CR_PROMO_GEN s) ++ [0#8] ++ body
  h ++ bytesBE 4 (crc32c h)

/-- Send a crier message on a link once it has a crate (R228). -/
def crierSend (i : Nat) (msg : List Byte) (s : State) : State :=
  crateFor { size := msg.length, loc := 3, prio := 1, spill := true, nowait := false, die := 0, owner := 0x3000, tenant := 0 }
    (.crier i msg) (crierCrate i msg) s

/-- Send a crier message to every other fitted member. -/
def crierAll (ctype : Nat) (body : List Byte) (s : State) : State :=
  if !crierRuns s then s
  else (List.range 8).foldl (fun u i => if crierLink i u then crierSend i (crierFrame ctype 0xF body u) u else u) s

/-- The body of SUSPECT and CLEAR. -/
def suspectBody (p cause : Nat) : List Byte := bytesBE 1 p ++ bytesBE 1 cause ++ [0#8, 0#8]

/-- The body of PROMOTE and WITHDRAW. -/
def promoteBody (p gen : Nat) : List Byte := bytesBE 1 p ++ [0#8] ++ bytesBE 2 gen

/-- Whether another gateway's suspicion, or this one's, of a place stands. -/
def suspected (p : Nat) (s : State) : Bool := bitOf (getN O.CR_SUSPECT s) p

/-- The clock of the first suspicion of a place is kept while anyone suspects it. -/
def noteSuspicion (p : Nat) (s : State) : State :=
  match smGet (fun _ => (none : Option Nat)) p s.crier.firstSuspicion with
  | some _ => s
  | none => modCrier (fun c => { c with firstSuspicion := smPut (fun _ => none) p (some s.time.clocks) c.firstSuspicion }) s

/-- With nobody suspecting a place any more the clock is forgotten. -/
def forgetSuspicion (p : Nat) (s : State) : State :=
  if suspected p s || smGet (fun _ => 0) p s.crier.suspectedBy != 0 then s
  else modCrier (fun c => { c with firstSuspicion := smPut (fun _ => none) p none c.firstSuspicion }) s

/-- Whether the spare is promoted, or waits for SHUF_ACK. -/
def spareBusy (s : State) : Bool := isSpareGw s && getN O.CR_ADOPTED_PLACE s != 0xFF

/-- A suspicion starts (R419); the promotions it cannot lead to are logged (R12, R421, R439). -/
def suspectPlace (p cause : Nat) (s : State) : State :=
  if suspected p s || !fitted p s then s
  else
    let s1 := logEvent 0x8801 (p * 256 + cause) (noteSuspicion p (setObjBit O.CR_SUSPECT p true s))
    let s2 := crierAll 1 (suspectBody p cause) s1
    if p = 8 then logEvent 0x8804 (8 * 256 + 3) s2
    else if !fitted 8 s2 then logEvent 0x8804 (p * 256 + 1) s2
    else if spareBusy s2 then logEvent 0x8804 (p * 256 + 2) s2
    else s2

/-- A suspicion ends (R419); a place that answers again was restarted (R434). -/
def endSuspicion (p : Nat) (s : State) : State :=
  if !suspected p s then s
  else
    let s1 := logEvent 0x8802 (p * 256) (setObjBit O.CR_SUSPECT p false s)
    forgetSuspicion p (crierAll 2 (suspectBody p 0) (modCrier (fun c => { c with givenUp := clrBit c.givenUp p }) s1))

/-- Valid heartbeats from a place are current, or no longer. -/
def setCurrent (p : Nat) (b : Bool) (s : State) : State :=
  let s1 := modCrier (fun c => { c with current := putBit c.current p b }) s
  settleEnough (match linkOf p s1 with | some i => setObjBit O.CR_LINK i b s1 | none => s1)

/-- A missed or invalid symbol or message on a link. -/
def missedOn (i : Nat) (s : State) : State := addN (O.CR_HB_MISSED + i) 1 s

/-! ### Displaced gateways (R438) -/

/-- The spare serves this gateway's place: unless it is in service or stopped, it keeps its carriers dark and its ports down. -/
def displace (s : State) : State :=
  let waiting := s.devState == .load || s.devState == .init || s.devState == .ready
  if waiting && getN O.CR_STATE s == 1 then
    logEvent 0x8806 (getN O.BG_PLACE s) (fabricDown (allDark (setN O.CR_STATE 5 s)))
  else s

/-- The spare serves another place: the gateway is an ordinary member again. -/
def undisplace (s : State) : State :=
  if getN O.CR_STATE s = 5 then
    let t := setN O.CR_STATE 1 s
    startCarriers (if t.devState == .ready then fabricUp t else t)
  else s

/-- What a heartbeat of the spare says of the place it serves (R431, R438): it stands in place of that place's own. -/
def takeServes (h : HbSeen) (s : State) : State :=
  let v := h.serves
  let own := getN O.BG_PLACE s
  let s1 := modCrier (fun c => { c with spareServes := if v = 0xF then none else some v }) s
  let s2 := if v = own then displace s1 else undisplace s1
  if v < 8 ∧ v ≠ own then (if h.failed then suspectPlace v 2 s2 else endSuspicion v s2) else s2

/-- A valid heartbeat from place `p`. -/
def validHeartbeat (p : Nat) (h : HbSeen) (s : State) : State :=
  let s1 := setCurrent p true (modCrier (fun c => { c with lastHb := smPut (fun _ => (none : Option HbSeen)) p (some h) c.lastHb }) s)
  if p = 8 then
    let s2 := if h.failed then suspectPlace 8 2 s1 else endSuspicion 8 s1
    takeServes h s2
  else if s1.crier.spareServes = some p then s1
  else if h.failed then suspectPlace p 2 s1
  else endSuspicion p s1

/-- A control symbol on a board link (R419). -/
def takeHeartbeat (i sym : Nat) (s : State) : State :=
  if !crierRuns s || !crierLink i s then s
  else
    let p := linkPlace i s
    let ok := crc8 (bytesBE 7 (sym / 256)) == sym % 256 && field sym 63 48 == getN O.BG_GROUP_ID s && field sym 47 44 == p
    if !ok then missedOn i s
    else validHeartbeat p
      { serves := field sym 43 40, gen := field sym 39 32, failed := bitOf sym 15, fenced := bitOf sym 14,
        degraded := bitOf sym 13, suspecting := bitOf sym 12, serving := bitOf sym 11 } s

/-- No valid heartbeat for CR_HB_US × CR_MISS_N: CR_MISS_N of them were missed. Those of a promoted spare stand for its place's too
(R431). -/
def heartbeatsMissed (p : Nat) (s : State) : State :=
  if !crierRuns s || !fitted p s || p == getN O.BG_PLACE s then s
  else match linkOf p s with
    | none => s
    | some i =>
      let s1 := setCurrent p false (addN (O.CR_HB_MISSED + i) (getN O.CR_MISS_N s) s)
      if s1.crier.spareServes = some p then s1
      else
        let s2 := suspectPlace p 1 s1
        (match s2.crier.spareServes with
          | some v => if p = 8 ∧ v < 8 ∧ v ≠ getN O.BG_PLACE s then suspectPlace v 1 s2 else s2
          | none => s2)

/-! ### Fencing (R422, R425) -/

/-- Whether self-fencing for isolation and the check of R425 apply: a working place in a group of three or more with a spare. -/
def guarded (s : State) : Bool := !isSpareGw s && fitted 8 s && decide (3 ≤ bgCount s)

/-- The gateway fences itself (R422): 1 isolated, 2 PROMOTE received. -/
def fenceSelf (why : Nat) (s : State) : State :=
  let s1 := modCrier (fun c => { c with fencedSelf := true }) (setN O.CR_STATE 4 (fabricDown (allDark s)))
  causeOfSafe (if why = 1 then 4 else 5) (crierAll 4 [0#8, 0#8, 0#8, 0#8] (logEvent 0x8805 why s1))

/-- Whether DEV_CMD SERVICE and LINE_HOLD meet R425. -/
def enoughPeers (s : State) : Bool :=
  !guarded s || (match s.crier.enoughSince with
    | some k => decide (getN O.CR_FENCE_US s * 1250 ≤ s.time.clocks - k)
    | none => false)

/-! ### Place profiles (R429) -/

/-- One item of a profile: the object, its type code, and its value's bytes. -/
structure ProfItem where
  idx : Nat
  sub : Nat
  ty : Nat
  bytes : List Byte
  deriving DecidableEq, Repr

/-- The items of a profile in a WRITE body's layout, little-endian; nothing when it is malformed. A value given in one piece with
OFFSET starts at 0. -/
def profItems : Nat → List Byte → Option (List ProfItem)
  | 0, bs => if bs.isEmpty then some [] else none
  | fuel + 1, bs =>
    if bs.isEmpty then some []
    else if bs.length < 8 then none
    else
      let f (i n : Nat) : Nat := natOfLE ((bs.drop i).take n)
      let len := f 4 2
      let raw := (bs.drop 8).take len
      let pieceOk := f 6 1 == 0 || (f 6 1 == 3 && 4 ≤ len && natOfLE (raw.take 4) == 0)
      if raw.length < len ∨ !pieceOk then none
      else match profItems fuel (bs.drop (8 + (len + 3) / 4 * 4)) with
        | some r => some (⟨f 0 2, f 2 1, f 3 1, if f 6 1 = 0 then raw else raw.drop 4⟩ :: r)
        | none => none

/-- The value a type gives bytes in one byte order. -/
def valOfBytes (ty : ObjType) (big : Bool) (bs : List Byte) : ObjVal :=
  match ty.size with
  | some _ => .num (if big then natOfBE bs else natOfLE bs)
  | none => .bytes bs

/-- The indices a profile may name. -/
def profIndex (idx : Nat) : Bool :=
  (0x2000 ≤ idx && idx ≤ 0x27FF) || (0x2C00 ≤ idx && idx ≤ 0x2FFF) || (0x3000 ≤ idx && idx ≤ 0x37FF)
    || (0x4000 ≤ idx && idx ≤ 0x4FFF)

/-- The octet modes a profile gives, else those in force (R450). -/
def profMode (is : List ProfItem) (s : State) (k : Nat) : Nat :=
  match is.find? fun i => i.idx == 0x3000 && i.sub == k / 2 + 1 with
  | some i => natOfLE i.bytes
  | none => fabMode k s

/-- The check of one item of a profile, as a WRITE's. -/
def profItemCheck (is : List ProfItem) (sess : Nat) (i : ProfItem) (s : State) : Nat :=
  if !profIndex i.idx then 0x14
  else match findDesc i.idx i.sub with
    | some d =>
      let v := valOfBytes d.ty false i.bytes
      (match stdCheckAt (profMode is s) sess i.idx i.sub i.ty i.bytes.length v s with
        | 0 => lowCheck (objKey i.idx i.sub) v s
        | e => e)
    | none => stdCheckAt (profMode is s) sess i.idx i.sub i.ty i.bytes.length (.num 0) s

/-- The check of a write of PLACE_PROFILE: refused at a working place; the first failing item's error; no object twice. -/
def profileCheck (sess : Nat) (bs : List Byte) (s : State) : Nat :=
  if !isSpareGw s then 0x19
  else match profItems (bs.length / 8 + 1) bs with
    | none => 0x13
    | some is =>
      match is.find? fun i => profItemCheck is sess i s != 0 with
      | some i => profItemCheck is sess i s
      | none => if (is.map fun i => objKey i.idx i.sub).eraseDups.length = is.length then 0 else 0x14

/-- The values of a staged profile by key. -/
def profileValues (p : Nat) (s : State) : List (Nat × ObjVal) :=
  let bs := getB (O.PLACE_PROFILE + p) s
  match profItems (bs.length / 8 + 1) bs with
  | none => []
  | some is => is.filterMap fun i =>
      match findDesc i.idx i.sub with
      | some d => some (objKey i.idx i.sub, valOfBytes d.ty false i.bytes)
      | none => none

/-- Apply values at once: a member of a commit group takes its value whatever is open (R63, R435), any other object is written. -/
def applyValues (vs : List (Nat × ObjVal)) (s : State) : State :=
  let s1 := vs.foldl (fun u p => if groupOfKey p.1 = 0 then lowEffect p.1 p.2 u else setMember p.1 p.2 u) s
  let ids := cgIds.filter fun id => id != 0x40 && vs.any fun p => groupOfKey p.1 == id
  ids.foldl (fun u id => cgEffect id s u) s1

/-- The collective group a profile opens (R433). -/
def profileGroup (vs : List (Nat × ObjVal)) (s : State) : Option Nat :=
  if vs.any (fun p => groupOfKey p.1 == 0x40) && getN O.GD_ACTION s == 1 then some (getN O.GD_TARGET s) else none

/-! ### REPORT (R427, Table 16.4) -/

/-- The entry of a carrier. -/
def reportCarrier (c : Nat) (s : State) : Nat :=
  let x := getCar c s
  x.fseq * 2 ^ 16 + x.mode % 16 * 2 ^ 12 + ofBool x.spareIn * 2 ^ 11 + (portOfCar c s).getD 7 * 2 ^ 8

/-- The entry of a line port. -/
def reportPort (n : Nat) (s : State) : Nat :=
  let p := getPort n s
  match p.curTx with
  | some k => (p.txSlot k).keyId * 2 ^ 32 + k * 2 ^ 31
  | none => 2 ^ 30

/-- The body of a REPORT. -/
def reportBody (s : State) : List Byte :=
  ((List.range 8).flatMap fun c => bytesBE 8 (reportCarrier c s)) ++ ((List.range 4).flatMap fun n => bytesBE 8 (reportPort n s))
    ++ List.replicate 4 0#8

/-- Send REPORT to the spare. -/
def sendReport (s : State) : State :=
  if isSpareGw s || !crierRuns s then s
  else match linkOf 8 s with
    | some i => if crierLink i s then crierSend i (crierFrame 5 8 (reportBody s) s) s else s
    | none => s

/-- Entry `k` of a place's last REPORT, and whether it is newer than 100 s (R352). -/
def reportEntry (p k : Nat) (s : State) : Option Nat :=
  match smGet (fun _ => (none : Option (Nat × List Byte))) p s.crier.reports with
  | some (clk, bs) => if s.time.clocks - clk < 100 * clkSec then some (natOfBE ((bs.drop (8 + 8 * k)).take 8)) else none
  | none => none

/-! ### Promotion (R431) -/

/-- Load the key slots of one port from the keys staged for place `p` (R360): `id` is the KEY_ID reported as CURRENT. -/
def adoptKeys (p n : Nat) (id : Option Nat) (s : State) : State :=
  let st (d k : Nat) : KeySlot := getStaged (stagedKey p n d k) s
  let tx (k : Nat) : KeySlot := if (st 0 k).kstate = 1 ∧ id = some (st 0 k).keyId then { st 0 k with kstate := 3 } else st 0 k
  let s1 := modPort n (fun q => { q with
    tx0 := tx 0, tx1 := tx 1, rx0 := st 1 0, rx1 := st 1 1, phase := 0, switchAt := 0, toSwitch := [], changeDue := false,
    warned := false, txSince := s.time.clocks, rxSince := s.time.clocks }) s
  if (tx 0).kstate = 3 ∨ (tx 1).kstate = 3 ∨ lpCarriers n s = 0 then s1
  else logEvent 0x2807 (n * 2 ^ 56 + id.getD 0)
    ((carsOf n s1).foldl (fun u c => modCar c (fun x => { x with probeOnly := true }) u) s1)

/-- The CURRENT transmit KEY_ID the last REPORT of a place gives a port. -/
def reportedKey (p n : Nat) (s : State) : Option Nat :=
  match reportEntry p (8 + n) s with
  | some e => if bitOf e 30 then none else some (e / 2 ^ 32)
  | none => none

/-- Set a carrier as the last REPORT of a place states (R352, R397). -/
def adoptCarrier (p c : Nat) (s : State) : State :=
  match reportEntry p c s with
  | some e =>
    let spare := bitOf e 11
    let s1 := modCar c (fun x => { x with
      fseq := (e / 2 ^ 16 + 2 ^ 32) % w48, mode := field e 15 12, spareIn := spare, fastStart := field e 15 12 != 0 }) s
    if spare then setSpareUser (c / 4) (some c) s1 else s1
  | none => modCar c (fun x => { x with probeOnly := true }) s

/-- Other places already suspected as the spare promotes into `p`: no promotion for them (R439, Table 16.12). -/
def noteBusy (p : Nat) (s : State) : State :=
  (List.range 8).foldl (fun u q => if q != p && suspected q u then logEvent 0x8804 (q * 256 + 2) u else u) s

/-- The vote has carried: the spare promotes into place `p` (R431 t2). -/
def promoteInto (p : Nat) (s : State) : State :=
  let gen := (getN O.CR_PROMO_GEN s + 1) % 65536
  let vs := profileValues p s
  let since := (smGet (fun _ => (none : Option Nat)) p s.crier.firstSuspicion).getD s.time.clocks
  let s1 := crierAll 3 (promoteBody p gen) (abandonSlices (fun _ => true) s)
  let s2 := modCrier (fun c => { c with
    waitingAck := true, genBefore := getN O.CR_PROMO_GEN s, promoSince := since, shufSel := 2 ^ p, unacked := [],
    promoLogged := false, saved := vs.map fun v => (v.1, getObj v.1 s) })
    (setN O.SHUF_STATE (2 ^ p) (setN O.CR_ADOPTED_PLACE p (setN O.CR_PROMO_GEN gen s1)))
  let s3 := applyValues vs s2
  let s4 := if getN O.OS_MODE s3 = 1 then modOs (fun o => { o with refilled := false }) s3 else s3
  let s5 := match profileGroup vs s4 with | some g => settle (openGroup true g s4) | none => s4
  let s6 := (List.range 8).foldl (fun u c => adoptCarrier p c u) s5
  noteBusy p (lineSettle ((List.range 4).foldl (fun u n => adoptKeys p n (reportedKey p n u) u) s6))

/-- The members other than `p` whose suspicion of it this gateway holds. -/
def suspecters (p : Nat) (s : State) : Nat :=
  ((otherMembers (smGet (fun _ => 0) p s.crier.suspectedBy) s).filter fun q => q != p).length

/-- CR_CONFIRM_US has passed (R421): the conditions that have held decide. -/
def voteEnds (p : Nat) (s : State) : State :=
  if !isSpareGw s || !crierRuns s || !fitted p s || spareBusy s || bitOf s.crier.givenUp p then s
  else
    let m := bgMajority s
    let mine := suspected p s
    let n := suspecters p s
    let hb := smGet (fun _ => (none : Option HbSeen)) p s.crier.lastHb
    let failed := match hb with | some h => h.failed | none => false
    let serving := match hb with | some h => h.serving | none => false
    let quiet := !bitOf s.crier.current p || failed
    if !(mine || decide (m ≤ n)) || !quiet then s
    else if n + ofBool mine < m then logEvent 0x8804 (p * 256 + 4) s
    else if bgCount s < 3 && !failed then s
    else if s.devState != .ready || !featActive 0 s then logEvent 0x8804 (p * 256 + 6) s
    else if !serving then logEvent 0x8804 (p * 256 + 5) s
    else promoteInto p s

/-- SHUF_ACK is sampled high (Table 1.7, SHUF_STATE [8]); one that the spare waits for makes it enter SERVICE and start the adopted
carriers (R431 t3, R435). -/
def shufAcked (s : State) : State :=
  if !s.crier.waitingAck then setObjBit O.SHUF_STATE 8 true s
  else
    let s1 := setN O.SHUF_STATE (256 + s.crier.shufSel) (setN O.CR_STATE 3 (modCrier (fun c => { c with
      waitingAck := false, unacked := (List.range 4).filter fun n => lpCarriers n s != 0 }) s))
    let s2 := enterState .service s1
    lineSettle ((List.range 8).foldl (fun u c =>
      let x := getCar c u
      if x.cstate == .dark && carEnabled c u then (if x.fastStart then enterLocking c u else startCarrier c u) else u) s2)

/-- The carriers of a spare that serves no place any more stand on their working inputs, and no spare input is in use (DESIGN CHOICE, log
entry 139; Table 1.7, LASER_SPARE_STATE). -/
def leaveLasers (s : State) : State :=
  let t := (List.range 8).foldl (fun u c => modCar c (fun x => { x with spareIn := false, laserMove := 0 }) u) s
  { t with line := { t.line with spareFor := [] } }

/-- No SHUF_ACK in time (R30, R434). -/
def shufFailed (s : State) : State :=
  if !s.crier.waitingAck then s
  else
    let p := getN O.CR_ADOPTED_PLACE s
    let gen := s.crier.genBefore
    let saved := s.crier.saved
    let opened := profileGroup saved s
    let s1 := logEvent 0x8821 p (setN O.CR_PROMO_GEN gen (setN O.SHUF_STATE 0 s))
    let s2 := crierAll 6 (promoteBody p gen) s1
    let s3 := match opened with | some g => settle (closeGroup g s2) | none => s2
    let s4 := setN O.CR_ADOPTED_PLACE 0xFF (modCrier (fun c => { c with
      waitingAck := false, shufSel := 0, saved := [], givenUp := setBit c.givenUp p }) s3)
    let s5 := applyValues saved (modOs (fun o => { o with refilled := true }) s4)
    let s6 := (List.range 4).foldl (fun u n => modPort n (fun q => { q with
      tx0 := KeySlot.empty, tx1 := KeySlot.empty, rx0 := KeySlot.empty, rx1 := KeySlot.empty }) u) s5
    lineSettle ((List.range 8).foldl (fun u c => modCar c (fun x => { x with
      mode := 0, fastStart := false, probeOnly := false }) u) (leaveLasers s6))

/-- PROMOTED is due on a carrier that has acquired; the first one is t5 of R431, and the refill begins (R140). -/
def promotedDue (c : Nat) (s : State) : State :=
  match portOfCar c s with
  | none => s
  | some n =>
    let x := getCar c s
    if getN O.CR_STATE s ≠ 3 ∨ !s.crier.unacked.contains n ∨ !carSends c s ∨ x.fa ≠ 2 then s
    else
      let s1 := setCar c { x with crierDue := true } s
      if s1.crier.promoLogged then s1
      else
        let us := (s.time.clocks - s.crier.promoSince) / 1250 % 2 ^ 32
        let s2 := logEvent 0x8803 (getN O.CR_ADOPTED_PLACE s * 2 ^ 56 + us) (setN O.CR_PROMO_TIME_US us
          (modCrier (fun k => { k with promoLogged := true }) s1))
        if s2.os.refilled then s2
        else refillStart (refillSources s2) s2

/-- PROMOTED taken on a carrier of a port (R428, R432). -/
def takePromoted (c : Nat) (m : CrierMsg) (s : State) : State :=
  match portOfCar c s with
  | none => s
  | some n =>
    let ack : CrierMsg := { m with clType := 2 }
    let s1 := modPort n (fun p => { p with crierQ := p.crierQ ++ [ack, ack, ack] }) s
    if (getPort n s).promotedTaken = some m.gen then s1
    else
      let s2 := logEvent 0x8807 (n * 2 ^ 56 + m.gen) (modPort n (fun p => { p with promotedTaken := some m.gen, promotedSince := true }) s1)
      let s3 := (carsOf n s2).foldl (fun u k =>
        let x := getCar k u
        let m1 := if x.mode = 0 then x.runMode else x.mode
        let y := { x with runMode := m1 }
        let t : MarginTest := { verify := true }
        if x.cstate == .acquiring || x.cstate == .probing then modTest k (fun _ => t) (enterActive k (setCar k y u))
        else u) s2
      settle (announceAll n 1 m.site (2 ^ n) (xferReplaced n m.site (lineSettle s3)))

/-- PROMOTED_ACK taken on a port: its repeats stop. -/
def takePromotedAck (c : Nat) (s : State) : State :=
  match portOfCar c s with
  | none => s
  | some n =>
    if s.crier.unacked.contains n then
      (carsOf n s).foldl (fun u k => modCar k (fun x => { x with crierDue := false }) u)
        (modCrier (fun k => { k with unacked := k.unacked.filter (· != n) }) s)
    else s

/-- Host software releases the promotion (R435, R438); from LINE_HOLD, READY is entered once the compute dies have returned (R476). -/
def releasePromotion (s : State) : State :=
  if getN O.CR_STATE s ≠ 3 then s
  else
    let gs := (s.coll.groups.map (·.1)).filter fun g => !(openColls g s).isEmpty
    let s1 := settle (gs.foldl (fun u g => endAllOf g .cancelled ccRequested u) s)
    let s2 := fabricDown (leaveLasers (allDark (setN O.SHUF_STATE 0 (modCrier (fun c => { c with
      shufSel := 0, unacked := [], saved := [], promoLogged := false }) s1))))
    let s3 := setN O.CR_STATE 2 (setN O.CR_ADOPTED_PLACE 0xFF s2)
    if s3.devState == .service then leaveService s3
    else if s3.devState == .lineHold then { s3 with dev := { s3.dev with returning := some .ready } }
    else s3

/-! ### Crier messages received (R426) -/

/-- A crier message of a type, with its length and checks: its body, or nothing when it does not fit. -/
def crierBody (i ctype len : Nat) (msg : List Byte) (s : State) : Option (List Byte) :=
  let n := msg.length
  let f (o k : Nat) : Nat := natOfBE ((msg.drop o).take k)
  if n = len ∧ natOfBE (msg.drop (n - 4)) = crc32c (msg.take (n - 4)) ∧ f 0 1 = ctype ∧ f 1 1 = 1 ∧ f 2 2 = getN O.BG_GROUP_ID s
      ∧ f 4 1 = linkPlace i s then some ((msg.drop 8).take (n - 12))
  else none

/-- Whether a message is for this gateway. -/
def crierForMe (msg : List Byte) (s : State) : Bool :=
  let d := (msg.getD 5 0).toNat
  d == 0xF || d == getN O.BG_PLACE s

/-- Take a crier message of a type from a board link: one that does not fit is discarded and counted. -/
def takeCrier (i ctype len : Nat) (msg : List Byte) (f : Nat → List Byte → State → State) (s : State) : State :=
  if !crierRuns s || !crierLink i s then s
  else match crierBody i ctype len msg s with
    | none => missedOn i s
    | some b => if crierForMe msg s then f (linkPlace i s) b s else s

/-- Another member suspects a place. -/
def takeSuspect (src : Nat) (b : List Byte) (s : State) : State :=
  let p := natOfBE (b.take 1)
  let old := smGet (fun _ => 0) p s.crier.suspectedBy
  let s1 := noteSuspicion p (modCrier (fun c => { c with suspectedBy := smPut (fun _ => 0) p (setBit old src) c.suspectedBy }) s)
  if p = 8 ∧ isSpareGw s ∧ old = 0 then logEvent 0x8804 (8 * 256 + 3) s1 else s1

/-- Another member's suspicion ends. -/
def takeClear (src : Nat) (b : List Byte) (s : State) : State :=
  let p := natOfBE (b.take 1)
  forgetSuspicion p (modCrier (fun c => { c with
    suspectedBy := smPut (fun _ => 0) p (clrBit (smGet (fun _ => 0) p c.suspectedBy) src) c.suspectedBy }) s)

/-- PROMOTE: a gateway it names fences itself from LOAD onward; another records that the spare serves the place (R422, R431). -/
def takePromote (_src : Nat) (b : List Byte) (s : State) : State :=
  let p := natOfBE (b.take 1)
  let s1 := setN O.CR_PROMO_GEN (natOfBE ((b.drop 2).take 2)) s
  let started := s.devState != .off && s.devState != .aux && s.devState != .boot
  if p = getN O.BG_PLACE s then (if started then fenceSelf 2 s1 else s1)
  else modCrier (fun c => { c with spareServes := some p }) s1

/-- FENCED is recorded. -/
def takeFenced (src : Nat) (_b : List Byte) (s : State) : State :=
  let h : HbSeen := match smGet (fun _ => (none : Option HbSeen)) src s.crier.lastHb with
    | some x => { x with fenced := true }
    | none => ⟨src, 0, false, true, false, false, false⟩
  modCrier (fun c => { c with lastHb := smPut (fun _ => (none : Option HbSeen)) src (some h) c.lastHb }) s

/-- WITHDRAW: the spare does not serve the place (R434). -/
def takeWithdraw (_src : Nat) (b : List Byte) (s : State) : State :=
  modCrier (fun c => { c with spareServes := if c.spareServes = some (natOfBE (b.take 1)) then none else c.spareServes })
    (setN O.CR_PROMO_GEN (natOfBE ((b.drop 2).take 2)) s)

/-- REPORT: the spare keeps the last of each place (R427). -/
def takeReportOf (src : Nat) (msg : List Byte) (s : State) : State :=
  if isSpareGw s then
    modCrier (fun c => { c with reports := smPut (fun _ => (none : Option (Nat × List Byte))) src (some (s.time.clocks, msg)) c.reports }) s
  else s

/-! ### Settings (R423, R562) and PROT_CMD (R440, R444) -/

/-- The check of a crier setting: R423 over the values it would make, and the limit of A1 on CR_REPORT_US (R562). -/
def crSettingCheck (g : Nat → Nat) (key v : Nat) (s : State) : Nat :=
  if key = O.CR_REPORT_US then (if getN O.STEPPING s = 0xA1 ∧ 60 < v then 0x14 else 0)
  else if g O.CR_FENCE_US < g O.CR_HB_US * (g O.CR_MISS_N - 1) + g O.CR_CONFIRM_US then 0 else 0x14

/-- The check of a PROT_CMD; LOCKOUT names the working port of a pair. -/
def protCmdCheck (v : Nat) (s : State) : Nat :=
  match v / 256 with
  | 1 | 2 => 0
  | 3 | 4 => (match pairOf (v % 4) s with | some (k, _) => if k = v % 4 then 0 else 0x14 | none => 0x14)
  | _ => 0x14

/-- The effect of a PROT_CMD. -/
def protCmdEffect (v : Nat) (s : State) : State :=
  let mask := v % 256
  let ports (f : Nat → LinePort → LinePort) : State := lineSettle ((List.range 4).foldl (fun u n => modPort n (f n) u) s)
  match v / 256 with
  | 1 => ports fun n p => { p with forced := (p.forced ||| mask) &&& lpCarriers n s }
  | 2 => ports fun _ p => { p with forced := p.forced &&& (255 - mask) }
  | k => ports fun n p => if (pairPorts (v % 4) s).contains n then { p with lockoutCmd := k == 3 } else p

end Sys2Proof.Machine
end

