-- ==== Sys2Proof/Machine/Crier.lean ====
section
/-! DEFINITION. The meanings of the commands of the crier and of protection (chapter 16). -/

namespace Sys2Proof.Machine

/-- HEARTBEAT_SEND (R418). -/
def execHeartbeatSend (s : State) : Host.Outcome State Fault Refusal :=
  .next (if crierRuns s then (List.range 8).foldl (fun u i => sendHeartbeat i u) s else s)

/-- HEARTBEAT (R419). -/
def execHeartbeat (link : Fin 8) (sym : BitVec 64) (s : State) : Host.Outcome State Fault Refusal :=
  .next (takeHeartbeat link.val sym.toNat s)

/-- HEARTBEAT_MISS_EXPIRY (R419). -/
def execHeartbeatMissExpiry (place : Fin 9) (s : State) : Host.Outcome State Fault Refusal := .next (heartbeatsMissed place.val s)

/-- SUSPECT (R419). -/
def execSuspect (link : Fin 8) (msg : List Byte) (s : State) : Host.Outcome State Fault Refusal :=
  .next (takeCrier link.val 1 16 msg takeSuspect s)

/-- CLEAR (R419). -/
def execClear (link : Fin 8) (msg : List Byte) (s : State) : Host.Outcome State Fault Refusal :=
  .next (takeCrier link.val 2 16 msg takeClear s)

/-- PROMOTE (R422, R431). -/
def execPromote (link : Fin 8) (msg : List Byte) (s : State) : Host.Outcome State Fault Refusal :=
  .next (takeCrier link.val 3 16 msg takePromote s)

/-- FENCED (R426). -/
def execFenced (link : Fin 8) (msg : List Byte) (s : State) : Host.Outcome State Fault Refusal :=
  .next (takeCrier link.val 4 16 msg takeFenced s)

/-- WITHDRAW (R434). -/
def execWithdraw (link : Fin 8) (msg : List Byte) (s : State) : Host.Outcome State Fault Refusal :=
  .next (takeCrier link.val 6 16 msg takeWithdraw s)

/-- CRIER_REPORT (R427). -/
def execCrierReport (link : Fin 8) (msg : List Byte) (s : State) : Host.Outcome State Fault Refusal :=
  .next (takeCrier link.val 5 112 msg (fun src _ u => takeReportOf src msg u) s)

/-- REPORT_SEND (R427). -/
def execReportSend (s : State) : Host.Outcome State Fault Refusal := .next (sendReport s)

/-- VOTE_CONFIRM_EXPIRY (R421). -/
def execVoteConfirmExpiry (place : Fin 8) (s : State) : Host.Outcome State Fault Refusal := .next (voteEnds place.val s)

/-- SHUF_ACK (R431). -/
def execShufAck (s : State) : Host.Outcome State Fault Refusal := .next (shufAcked s)

/-- SHUF_ACK_TIMEOUT (R30). -/
def execShufAckTimeout (s : State) : Host.Outcome State Fault Refusal := .next (shufFailed s)

/-- PROMOTED_SEND (R428). -/
def execPromotedSend (c : Fin 8) (s : State) : Host.Outcome State Fault Refusal := .next (promotedDue c.val s)

/-- PROMOTED (R432). -/
def execPromoted (c : Fin 8) (m : CrierMsg) (s : State) : Host.Outcome State Fault Refusal :=
  .next (takePromoted c.val m (laneCount c.val s))

/-- PROMOTED_ACK (R428). -/
def execPromotedAck (c : Fin 8) (_m : CrierMsg) (s : State) : Host.Outcome State Fault Refusal :=
  .next (takePromotedAck c.val (laneCount c.val s))

/-- ISOLATION_FENCE (R422): fewer than M other members were heard in the last CR_FENCE_US. -/
def execIsolationFence (heard : Nat) (s : State) : Host.Outcome State Fault Refusal :=
  .next (if guarded s && (s.devState == .service || s.devState == .lineHold) && decide ((otherMembers heard s).length < bgMajority s)
    then fenceSelf 1 s else s)

/-- PROMOTION_RELEASE (R438). -/
def execPromotionRelease (s : State) : Host.Outcome State Fault Refusal := .next (releasePromotion s)

/-- PLACE_PROFILE (R429). -/
def execPlaceProfile (place : Fin 8) (w : BlobWrite) (s : State) : Host.Outcome State Fault Refusal :=
  let key := O.PLACE_PROFILE + place.val
  .next (blobRow key w (profileCheck w.sess w.bytes) (setB key w.bytes) s)

/-- WTR_EXPIRY (R441). -/
def execWtrExpiry (c : Fin 8) (s : State) : Host.Outcome State Fault Refusal :=
  .next (lineSettle (modCar c.val (fun x => { x with sfHold := false }) s))

/-- PORT_WITHDRAW_EXPIRY (R442). -/
def execPortWithdrawExpiry (port : Fin 4) (s : State) : Host.Outcome State Fault Refusal :=
  .next (settle (lineSettle (withdrawPort port.val s)))

/-- PROT_CMD FORCE_OUT (R440). -/
def execForceOut (sess : Fin 73) (mask : Fin 256) (s : State) : Host.Outcome State Fault Refusal :=
  .next (numRow O.PROT_CMD sess.val (256 + mask.val) (protCmdCheck (256 + mask.val)) (protCmdEffect (256 + mask.val)) s)

/-- PROT_CMD CLEAR_FORCE (R440). -/
def execClearForce (sess : Fin 73) (mask : Fin 256) (s : State) : Host.Outcome State Fault Refusal :=
  .next (numRow O.PROT_CMD sess.val (512 + mask.val) (protCmdCheck (512 + mask.val)) (protCmdEffect (512 + mask.val)) s)

/-- PROT_CMD LOCKOUT (R444). -/
def execLockout (sess : Fin 73) (port : Fin 4) (s : State) : Host.Outcome State Fault Refusal :=
  .next (numRow O.PROT_CMD sess.val (768 + port.val) (protCmdCheck (768 + port.val)) (protCmdEffect (768 + port.val)) s)

/-- PROT_CMD CLEAR_LOCKOUT (R444). -/
def execClearLockout (sess : Fin 73) (port : Fin 4) (s : State) : Host.Outcome State Fault Refusal :=
  .next (numRow O.PROT_CMD sess.val (1024 + port.val) (protCmdCheck (1024 + port.val)) (protCmdEffect (1024 + port.val)) s)

end Sys2Proof.Machine
end

