-- ==== Sys2Proof/Machine/Fabric.lean ====
section
/-! DEFINITION. The meanings of the local fabric's and the board links' commands (R450 to R463). -/

namespace Sys2Proof.Machine

/-- PORT_UP (R452). -/
def execPortUp (port : Fin 16) (s : State) : Host.Outcome State Fault Refusal := .next (portComesUp port.val s)

/-- PORT_BRINGUP_TIMEOUT (R452). -/
def execPortBringupTimeout (port : Fin 16) (lane : Fin 8) (s : State) : Host.Outcome State Fault Refusal :=
  .next (portRetries port.val lane.val s)

/-- PORT_DOWN (R453, R454). -/
def execPortDown (port : Fin 16) (lost : LaneLost) (s : State) : Host.Outcome State Fault Refusal :=
  .next (portGoesDown port.val lost.lane.val lost.uncorr s)

/-- FAILBACK (R454). -/
def execFailback (port : Fin 16) (s : State) : Host.Outcome State Fault Refusal := .next (failsBack port.val s)

/-- CM_REQ (R458). -/
def execCmReq (port : Fin 16) (service remote : Nat) (bufs : DoorBufs) (s : State) : Host.Outcome State Fault Refusal :=
  .next (freeNext (cmRequest port.val service remote bufs s))

/-- RDMA_WRITE (R460). -/
def execRdmaWrite (q : QpArrival) (va : Nat) (bytes : List Byte) (s : State) : Host.Outcome State Fault Refusal :=
  .next (rdmaWritten q.qp va bytes q.ce s)

/-- RDMA_READ (R457). -/
def execRdmaRead (q : QpArrival) (va len : Nat) (s : State) : Host.Outcome State Fault Refusal := .next (rdmaReadServed q.qp va len q.ce s)

/-- RDMA_SEND (R457): acknowledged; no service of Table 17.4 gives a SEND an effect. -/
def execRdmaSend (q : QpArrival) (_bytes : List Byte) (s : State) : Host.Outcome State Fault Refusal :=
  .next (onQp q.qp q.ce (fun _ u => qpSend q.qp (.rdmaAck q.qp) u) s)

/-- CNP (R457). -/
def execCnp (qp : Nat) (s : State) : Host.Outcome State Fault Refusal := .next (cnpTaken qp s)

/-- PFC_PAUSE (R455): the class is held, or free again and what waited in it leaves. -/
def execPfcPause (port : Fin 16) (cls : Fin 2) (on : Bool) (s : State) : Host.Outcome State Fault Refusal :=
  .next (if (getFab port.val s).lst == 2 then fabRelease (modFab port.val (fun x => { x with paused := putBit x.paused cls.val on }) s)
    else s)

/-- BL_MSG_TX (R463). -/
def execBlMsgTx (w : BlobWrite) (s : State) : Host.Outcome State Fault Refusal :=
  .next (blobRow O.BL_MSG_TX w (blMsgCheck w.bytes) (blMsgEffect w.bytes) s)

/-- BL_MSG (R463). -/
def execBlMsg (link : Fin 8) (body : FifoBytes) (flow : List (List FifoEvent)) (s : State) : Host.Outcome State Fault Refusal :=
  .next (blMsgTaken link.val body.bytes body.poisoned flow s)

/-- BOARD_LINK_UP (R462). -/
def execBoardLinkUp (link : Fin 8) (group place : Nat) (s : State) : Host.Outcome State Fault Refusal :=
  .next (linkComesUp link.val group place s)

/-- BOARD_LINK_DOWN (R462). -/
def execBoardLinkDown (link : Fin 8) (s : State) : Host.Outcome State Fault Refusal := .next (linkGoesDown link.val s)

/-- BL_LANE_FAIL (R420). -/
def execBlLaneFail (link : Fin 8) (s : State) : Host.Outcome State Fault Refusal := .next (linkLaneFails link.val s)

end Sys2Proof.Machine
end

