-- ==== Sys2Proof/Machine/BistOps.lean ====
section
/-! DEFINITION. Self-test (R533 to R540), the ageing monitors (R541, R542) and margin re-planning (R543 to R546). -/

namespace Sys2Proof.Machine

/-! ### Islands (Tables 20.11 and 21.1) -/

/-- Whether an island is critical (Table 20.11). -/
def islandCritical (i : Nat) : Bool :=
  (16 ≤ i && i ≤ 21) || (70 ≤ i && i ≤ 86) || (95 ≤ i && i ≤ 102) || (104 ≤ i && i ≤ 111)

/-- Whether an island has power: the compute dies are gated in P1 and P2, the line DSPs and cipher pools in P2 (Table 19.7). -/
def islandPowered (i : Nat) (s : State) : Bool :=
  let p := getN O.PWR_STATE s
  if i ≤ 21 then p == 0 else if 22 ≤ i && i ≤ 53 then p ≤ 1 else p ≤ 2

/-- Whether an island is fenced. -/
def islandFenced (i : Nat) (s : State) : Bool := s.dev.bist.fenced.contains i

/-- The slices per cycle of an island other than those of its stalls (Table 21.1). -/
def islandParts (i : Nat) : Nat :=
  if i < 16 then 17
  else if i = 16 ∨ i = 18 ∨ i = 19 ∨ i = 21 then 1
  else if 22 ≤ i ∧ i ≤ 53 ∧ i % 4 = 1 then 256
  else if i = 70 ∨ i = 78 then 20
  else if i = 71 ∨ i = 79 then 4
  else if i = 106 then 32
  else 0

/-- The stalls of a row that are not fenced. -/
def goodStalls (row : Nat) (s : State) : Nat :=
  ((List.range 8).filter fun k => (getStall (row * 8 + k) s).sstate != .fenced).length

/-- The slices of a cycle: islands without power, fenced islands and fenced items are skipped (R536). -/
def cycleSlices (s : State) : Nat :=
  (List.range 112).foldl (fun n i =>
    if islandFenced i s || !islandPowered i s then n
    else n + islandParts i + (if i < 16 && rotOn s then 40 * goodStalls i s else 0)
      - (if 22 ≤ i ∧ i ≤ 53 ∧ i % 4 = 1 then 256 - poolCores ((i - 22) / 4) 0 s - poolCores ((i - 22) / 4) 1 s else 0)) 0

/-- Minutes since an island's last full test, at most 0xFF_FFFF. -/
def testAge (i : Nat) (s : State) : Nat :=
  match smGet (fun _ => (none : Option Nat)) i s.dev.bist.lastTest with
  | some c => min 0xFFFFFF ((s.time.clocks - c) / 75000000000)
  | none => min 0xFFFFFF (s.time.clocks / 75000000000)

/-- Fenced stalls or cipher cores of an island, at most 15. -/
def fencedItems (i : Nat) (s : State) : Nat :=
  if i < 16 then min 15 (8 - goodStalls i s)
  else if 22 ≤ i ∧ i ≤ 53 ∧ i % 4 = 1 then min 15 (smGet (fun _ => ([] : List Nat)) ((i - 22) / 4) s.dev.bist.coresLost).length
  else 0

/-- ISLAND_BIST (Table 21.6): an island without power is skipped. -/
def islandBist (i : Nat) (s : State) : Nat :=
  let st := if islandFenced i s then 1 else if !islandPowered i s then 3 else if s.dev.bist.tested.contains i then 0 else 2
  st * 2 ^ 28 + fencedItems i s * 2 ^ 24 + testAge i s

/-! ### Fencing (Table 21.2) -/

/-- The next position of a row in rotation order after `p` that is not fenced (R174). -/
def nextPos (row p : Nat) (s : State) : Option Nat :=
  ((List.range 7).map fun j => (p + 1 + j) % 8).find? fun q => (getStall (row * 8 + q) s).sstate != .fenced

/-- A position becomes the row's spare: SPARE at once when no unit holds it, and when it is released otherwise. -/
def withdraw (row q : Nat) (s : State) : State :=
  let s1 := { s with comp := { s.comp with sparePos := smPut (fun _ => 0) row q s.comp.sparePos } }
  let x := getStall (row * 8 + q) s1
  if x.sstate == .idle && x.tag == 0xFF then setStall (row * 8 + q) { x with sstate := .spare } s1 else s1

/-- The row keeps one spare while rotation is on, and none otherwise (R174). -/
def settleSpare (row : Nat) (s : State) : State :=
  let st := spareOf row s
  let x := getStall st s
  if !rotOn s then (if x.sstate == .spare || x.sstate == .testing then setStall st { x with sstate := .idle } s else s)
  else if x.sstate == .fenced then (match nextPos row (st % 8) s with | some q => withdraw row q s | none => s)
  else withdraw row (st % 8) s

/-- Every row keeps its spare. -/
def settleSpares (s : State) : State := (List.range 16).foldl (fun u r => settleSpare r u) s

/-- One stall of a row island is fenced: a unit on it ends (R172), and a migration it takes part in is abandoned (Table 5.12). -/
def fenceOne (st : Nat) (s : State) : State :=
  let s1 := (s.comp.migrations.filter fun m => m.a == st || m.b == st).foldl (fun u m => abandonMigration m u) s
  let x := getStall st s1
  if x.sstate == .running then fenceRunning st cFenced s1 else fenceStall st s1

/-- What follows from the fence of an island that is not critical. -/
def islandGone (i : Nat) (inService : Bool) (s : State) : State :=
  let s1 := logEvent 0x100B i (setObjBit O.DEV_FLAGS 0 true s)
  if i < 16 then settle ((List.range 8).foldl (fun u k => fenceOne (i * 8 + k) u) s1)
  else if 22 ≤ i ∧ i ≤ 53 ∧ !inService then setMember (carKey ((i - 22) / 4) 1) (.num 0) s1
  else s1

/-- An island is fenced by a start-up test or in service (R534, R540): a critical one leads to HALT in INIT and to SAFE afterwards. -/
def fenceIsland (i : Nat) (inService : Bool) (s : State) : State :=
  if islandFenced i s then s
  else
    let s1 := logEvent 0x7802 (i * 256 + ofBool inService) (modBist (fun b => { b with fenced := b.fenced ++ [i] }) s)
    if islandCritical i then (if s.devState == .init then enterHalt 0x13 s1 else causeOfSafe 0x01 s1) else islandGone i inService s1

/-- One stall is fenced by its own test. -/
def fenceTested (st : Nat) (inService : Bool) (s : State) : State :=
  if (getStall st s).sstate == .fenced then s
  else
    let s1 := fenceOne st (logEvent 0x7802 (stallRow st * 256 + ofBool inService) s)
    let row := stallRow st
    let s2 := if st == spareOf row s1 then modBist (fun b => { b with stallDone := smPut (fun _ => 0) row 0 b.stallDone }) s1 else s1
    settle (settleSpare row s2)

/-- One cipher core is fenced from its pool (R538): below 125 good cores the carrier leaves L16. -/
def fenceCore (c k : Nat) (inService : Bool) (s : State) : State :=
  let lost := smGet (fun _ => ([] : List Nat)) c s.dev.bist.coresLost
  if lost.contains k then s
  else
    let s1 := modBist (fun b => { b with coresLost := smPut (fun _ => ([] : List Nat)) c (lost ++ [k]) b.coresLost })
      (logEvent 0x7802 ((25 + 4 * c) * 256 + ofBool inService) s)
    if goodCores c s1 < 125 ∧ 125 ≤ goodCores c s then
      let s2 := logEvent 0x7805 (c * 2 ^ 56 + goodCores c s1) s1
      let x := getCar c s2
      match [3, 2, 1].find? fun m => bitOf (sentModes c s2) m && bitOf (x.test.farModes.getD (sentModes c s2)) m with
      | some m =>
        if x.cstate == .active && x.mode == 4 then
          lineSettle (startDrain c 4 3 (modTest c (fun t => { t with below := m }) (logEvent 0x2007 (c * 2 ^ 56 + m) s2)))
        else s2
      | none => s2
    else s1

/-- What a start-up test found (R534): an island, or an item of it alone. -/
def startFence (f : BistFail) (s : State) : State :=
  match f.item with
  | none => if f.island < 112 then fenceIsland f.island false s else s
  | some k =>
    if f.island < 16 then fenceTested (f.island * 8 + k % 8) false s
    else if 22 ≤ f.island ∧ f.island ≤ 53 ∧ f.island % 4 = 1 then fenceCore ((f.island - 22) / 4) (k % 256) false s
    else s

/-- Fence what a start-up test found, until one of them leads to HALT. -/
def startFences (fs : List BistFail) (s : State) : State :=
  fs.foldl (fun u f => if u.devState == .halt || u.devState == .safe then u else startFence f u) s

/-- A start-up test of some islands is a full test of them. -/
def testedNow (is : List Nat) (s : State) : State :=
  modBist (fun b => { b with lastTest := is.foldl (fun m i => smPut (fun _ => (none : Option Nat)) i (some s.time.clocks) m) b.lastTest }) s

/-! ### Slices (R535 to R540) -/

/-- SUP's runtime runs. -/
def supUp (s : State) : Bool := procUp 5 s

/-- A flag that suspends self-test is set: OT_WARN, POWER_CAP, VIN_LOW, OC or COOLANT (Table 20.6). -/
def testSuspended (s : State) : Bool := [0, 3, 4, 7, 8].any fun k => emergFlag k s

/-- READY, SERVICE or LINE_HOLD. -/
def inService (s : State) : Bool := s.devState == .ready || s.devState == .service || s.devState == .lineHold

/-- BIST_STATE (Table 21.5). -/
def bistState (s : State) : Nat :=
  if !supUp s then 4
  else if !inService s || getN O.BIST_EN s == 0 then 0
  else if testSuspended s then 3
  else if getI O.BIST_HEADROOM_W s < 40 then 2 else 1

/-- The good cores a pool must keep for a mode (R538). -/
def coresNeeded : Nat → Nat
  | 4 => 125 | 3 => 94 | 2 => 63 | 1 => 32 | _ => 0

/-- Whether an item can be tested now: it exists, a stall is the row's spare and the next of its 40 slices is due (R537), a
cipher core can be spared (R538). -/
def itemOk (i : Nat) (it : BistItem) (s : State) : Bool :=
  match it with
  | .stall k =>
    i < 16 && rotOn s && k < 40 && k == smGet (fun _ => 0) i s.dev.bist.stallDone && (getStall (spareOf i s) s).sstate == .spare
      && !rowMigrating i s
  | .part k => !(22 ≤ i && i ≤ 53) && decide (k < islandParts i)
  | .core k =>
    let c := (i - 22) / 4
    22 ≤ i && i ≤ 53 && i % 4 == 1 && k < 256 && !(smGet (fun _ => ([] : List Nat)) c s.dev.bist.coresLost).contains k
      && decide (coresNeeded (getCar c s).mode ≤ poolCores c (k / 128) s - 1)

/-- Whether clocks have passed since a slot last started a slice. -/
def slotRested (slot clocks : Nat) (s : State) : Bool :=
  match smGet (fun _ => (none : Option Nat)) slot s.dev.bist.slotClk with
  | some c => decide (c + clocks ≤ s.time.clocks)
  | none => true

/-- Whether a slot may start a slice (R535): beside the conditions listed there, no re-plan runs or waits (R543). -/
def sliceMayStart (slot i : Nat) (it : BistItem) (headroom : Int) (s : State) : Bool :=
  let b := s.dev.bist
  inService s && getN O.BIST_EN s == 1 && supUp s && !testSuspended s && decide (40 ≤ headroom)
    && slotRested slot (getN O.BIST_GAP_MS s * 1250000) s && slotRested (1 - slot) 250000 s
    && b.slices.all (fun z => z.slot != slot && z.island != i) && !b.replanDue && !b.replanning
    && islandPowered i s && !islandFenced i s && itemOk i it s

/-- The tested spare of a row goes back to service and the next position is withdrawn (R174, R537), with a planned migration when a
unit runs there; a row whose sequencer is down waits (R178). -/
def rotateRow (row : Nat) (s : State) : State :=
  let st := spareOf row s
  if smGet (fun _ => 0) row s.dev.bist.stallDone < 40 || !rotOn s || rowMigrating row s || !colRuns (row / 8) s
      || (getStall st s).sstate != .spare then s
  else
    let again := modBist (fun b => { b with stallDone := smPut (fun _ => 0) row 0 b.stallDone })
    match nextPos row (st % 8) s with
    | none => again s
    | some q =>
      let y := getStall (row * 8 + q) s
      if y.sstate == .running then
        let s1 := setStall (row * 8 + q) { y with sstate := .moving } s
        { s1 with comp := { s1.comp with migrations := s1.comp.migrations ++ [{ a := row * 8 + q, b := st, tag := y.tag }] } }
      else if y.sstate == .idle && y.tag == 0xFF then
        again (withdraw row q (setStall st { getStall st s with sstate := .idle } s))
      else s

/-- Rows whose rotation is due rotate. -/
def rotateRows (s : State) : State := (List.range 16).foldl (fun u r => rotateRow r u) s

/-- BIST_PROGRESS shows the cycle. -/
def showProgress (s : State) : State := setN O.BIST_PROGRESS (s.dev.bist.done % 65536 * 65536 + cycleSlices s % 65536) s

/-- A slot starts a slice when R535 allows; the headroom is kept, and one below 0 abandons the slices in progress (R539). -/
def sliceStart (slot i : Nat) (it : BistItem) (headroom : Int) (s : State) : State :=
  if !supUp s then s
  else
    let s1 := rotateRows (setI O.BIST_HEADROOM_W headroom s)
    let s2 := if headroom < 0 then abandonSlices (fun _ => true) s1 else s1
    if !sliceMayStart slot i it headroom s2 then s2
    else
      let s3 := modBist (fun b => { b with
        slices := b.slices ++ [{ slot := slot, island := i, item := it, again := false }]
        slotClk := smPut (fun _ => (none : Option Nat)) slot (some s2.time.clocks) b.slotClk }) s2
      let s4 := match it with
        | .stall _ => setStall (spareOf i s3) { getStall (spareOf i s3) s3 with sstate := .testing } s3
        | _ => s3
      showProgress s4

/-- The position or core a slice tests, 0 for another item (Table 21.7). -/
def slicePos (z : Slice) (s : State) : Nat :=
  match z.item with
  | .stall _ => spareOf z.island s % 8
  | .core k => k
  | .part _ => 0

/-- The cycle's last slice: the cycle is complete, and a new one begins (R536). -/
def cycleEnds (s : State) : State :=
  let b := s.dev.bist
  if b.done < cycleSlices s then s
  else
    let secs := (s.time.clocks - b.cycleClk) / 1250000000
    let live := (List.range 112).filter fun i => islandParts i != 0 && !islandFenced i s && islandPowered i s
    let s1 := modBist (fun y => { y with done := 0, cycleClk := s.time.clocks, overdue := false, tested := (y.tested ++ live).eraseDups }) s
    let s2 := setN O.BIST_LAST_CYCLE_S (secs % 2 ^ 32) (addN O.BIST_CYCLES 1 (testedNow live s1))
    logEvent 0x7804 secs s2

/-- A slice has passed. -/
def slicePassed (z : Slice) (s : State) : State :=
  let s1 := modBist (fun b => { b with done := b.done + 1 }) (releaseSlice z s)
  let s2 := match z.item with
    | .stall k => rotateRow z.island (modBist (fun b => { b with stallDone := smPut (fun _ => 0) z.island (k + 1) b.stallDone }) s1)
    | _ => s1
  showProgress (cycleEnds s2)

/-- A slice has failed: once, and it is repeated at once; twice, and its item is fenced (R540). -/
def sliceFailed (z : Slice) (s : State) : State :=
  if !z.again then
    modBist (fun b => { b with slices := b.slices.map fun y => if y.slot == z.slot then { y with again := true } else y })
      (logEvent 0x7801 (z.island * 256 + slicePos z s) s)
  else
    let s1 := releaseSlice z s
    let s2 := match z.item with
      | .stall _ => fenceTested (spareOf z.island s1) true s1
      | .core k => fenceCore ((z.island - 22) / 4) k true s1
      | .part _ => fenceIsland z.island true s1
    showProgress s2

/-- A slot's slice ends. -/
def sliceEnd (slot : Nat) (pass : Bool) (s : State) : State :=
  match s.dev.bist.slices.find? fun z => z.slot == slot with
  | some z => if pass then slicePassed z s else sliceFailed z s
  | none => s

/-- A cycle is not complete 24 h after it began (R536). -/
def cycleOverdue (suspended : Nat) (s : State) : State :=
  if s.dev.bist.overdue || !inService s then s
  else logEvent 0x7803 suspended (modBist (fun b => { b with overdue := true }) s)

/-! ### Ageing (R541, R542) -/

/-- Keep the slack of each island. -/
def ageSlack (slacks : List Int) (s : State) : State :=
  if !supUp s then s else ((slacks.take 112).zipIdx).foldl (fun u p => setI (O.AGE_SLACK_PS + p.2) p.1 u) s

/-- Keep the eye margin of each lane; one below AGE_EYE_MIN_MUI is logged. -/
def ageEye (eyes : List Nat) (s : State) : State :=
  if !supUp s then s
  else ((eyes.take 80).zipIdx).foldl (fun u p =>
    let t := setN (O.AGE_EYE_MUI + p.2) (p.1 % 65536) u
    if p.1 < getN O.AGE_EYE_MIN_MUI u then logEvent 0x7023 (p.2 * 256 + p.1 / 4 % 256) t else t) s

/-- Ea/k in kelvin for Ea = 0.7 eV, in units of 2⁻¹⁶⁰ K; Boltzmann's constant is not in the spec (PRESUMED, log entry 77). -/
def eaOverK : Nat := 7 * 10 ^ 14 * 2 ^ 160 / 86173332621

/-- exp((Ea/k)(1/363.15 − 1/T)) in units of 2⁻¹⁶⁰, for T in units of 0.01 °C. -/
def ageRate (cc : Int) : Nat :=
  let t := (cc + 27315).toNat
  if t = 0 then 0
  else
    let x := eaOverK * 100 * (cc - 9000).natAbs / (36315 * t)
    if 9000 ≤ cc then fxExp x else fxOne * fxOne / fxExp x

/-- A second at a temperature (R542): equivalent hours are added, kept in flash every hour, and logged at 80 % of the life. -/
def ageTemp (cc : Int) (s : State) : State :=
  if !supUp s then s
  else
    let b := s.dev.bist
    let fine := b.eqFine + ageRate cc * 2 ^ 64 / fxOne / 3600
    let h := fine / 2 ^ 64
    let secs := b.eqSecs + 1
    let s1 := setN O.AGE_EQ_HOURS (h % 2 ^ 32)
      (modBist (fun y => { y with eqFine := fine, eqSecs := secs, eqSaved := if secs % 3600 = 0 then h else y.eqSaved }) s)
    if b.eqFine / 2 ^ 64 < 105192 ∧ 105192 ≤ h then logEvent 0x7025 h s1 else s1

/-! ### Re-planning (R543 to R546) -/

/-- Whether re-planning may run (R543). -/
def replanAllowed (s : State) : Bool :=
  inService s && getN O.EMERG_FLAGS s == 0 && s.dev.actKind.isNone && supUp s

/-- The most a rail's set value may be: 0.85 V for a row rail, 25 mV above Table 20.7 for the others that re-planning raises. -/
def railMax (k : Nat) : Nat :=
  if 11 ≤ k ∧ k ≤ 26 then 850
  else if k = 1 ∨ k = 3 ∨ k = 4 ∨ k = 27 ∨ k = 28 then (objDefault (O.RAIL_SET_MV + k)).toNat + 25
  else 0

/-- Re-planning is complete. -/
def replanEnds (s : State) : State :=
  let b := s.dev.bist
  let s1 := modBist (fun y => { y with replanning := false, raised := [], lowered := 0 }) s
  let s2 := setN O.REPLAN_LAST (timeSec s * 2 ^ 32 + timeNs s) s1
  logEvent 0x7021 (b.raised.length * 2 ^ 56 + b.lowered * 2 ^ 40 + getN O.MG_TARGET_CDB s) s2

/-- A loss rounded up to 5 units, between 0 and 100. -/
def lossStep (l : Int) : Nat := min 100 ((l.toNat + 4) / 5 * 5)

/-- The largest projected loss of the carriers in service. -/
def worstLoss (r : ReplanData) (s : State) : Nat :=
  r.losses.foldl (fun m p => if (getCar p.1 s).cstate == .active then max m (lossStep p.2) else m) 0

/-- Carriers whose predicted margin in the next higher allowed mode meets the new target (R546). -/
def upshiftable (s : State) : List Nat :=
  (List.range 8).filter fun c =>
    let x := getCar c s
    x.cstate == .active && (match (testModes c {} s).reverse.find? fun k => decide (x.mode < k) with
      | some k =>
        decide (((getN O.MG_TARGET_CDB s + getN O.MG_PRED_GUARD_CDB s : Nat) : Int) * 100 ≤ predicted (getI (O.CAR_SNR_CDB + c) s) k)
      | none => false)

/-- Re-planning runs: thresholds and photodiodes at once, carriers to retest in their turn, and the rails short of slack step by step
(R544, R546). -/
def replanRun (r : ReplanData) (s : State) : State :=
  let loss := worstLoss r s
  let s1 := setN O.MG_DOWN_CDB (getN O.MG_DOWN_FLOOR_CDB s + loss) (setN O.MG_TARGET_CDB (getN O.MG_TARGET_FLOOR_CDB s + loss) s)
  let s2 := ((r.pd.take 8).zipIdx).foldl (fun u p => setI (O.REPLAN_PD_CDB + p.2) p.1 u) s1
  let short := (r.short.filter fun k => railMax k != 0).eraseDups
  let up := if getN O.REPLAN_UPSHIFT s2 = 1 then upshiftable s2 else []
  let s3 := modBist (fun b => { b with replanDue := false, replanning := true, short := short, raised := [], lowered := 0, upshift := up }) s2
  if short.isEmpty then replanEnds s3 else s3

/-- Re-planning is asked for (R543): deferred where the conditions do not hold, and begun once no slice is in progress. -/
def replanAsked (r : ReplanData) (s : State) : State :=
  let b := s.dev.bist
  if b.replanning then s
  else
    let due := modBist (fun y => { y with replanDue := true })
    if !replanAllowed s then (if b.replanDue then s else logEvent 0x7024 (getN O.EMERG_FLAGS s) (due s))
    else if !b.slices.isEmpty then due s
    else replanRun r s

/-- A rail has its slack, or can have no more. -/
def railDone (k : Nat) (s : State) : State :=
  let t := modBist (fun b => { b with short := b.short.filter (· != k) }) s
  if t.dev.bist.short.isEmpty then replanEnds t else t

/-- One step of a rail (R544), or of its row's ceiling once the rail is at its maximum (R545). -/
def voltageStep (k : Nat) (slack : Int) (s : State) : State :=
  let b := s.dev.bist
  if !b.replanning || !b.short.contains k || !supUp s then s
  else
    let mv := getN (O.RAIL_SET_MV + k) s
    if mv + 5 ≤ railMax k then
      let s1 := setN (O.RAIL_SET_MV + k) (mv + 5) (modBist (fun y => { y with raised := y.raised.filter (· != k) ++ [k] }) s)
      if 30 ≤ slack then railDone k s1 else s1
    else if k < 11 ∨ 26 < k then railDone k s
    else
      let row := k - 11
      let ceil := getN (O.ROW_FREQ_CEIL + row) s - 100
      if ceil < 800 then railDone k (fenceIsland row true s)
      else
        let s1 := setN (O.ROW_FREQ_CEIL + row) ceil (modBist (fun y => { y with lowered := y.lowered + 1 }) s)
        let s2 := settleRow row (logEvent 0x7022 (row * 65536 + ceil) s1)
        if 30 ≤ slack then railDone k s2 else s2

end Sys2Proof.Machine
end

