-- ==== Sys2Proof/Machine/HostOps.lean ====
section
/-! DEFINITION. The host interface: mailboxes (R466), job rings (R467 to R469), function level reset and the loss of the PCIe
link (R472). -/

namespace Sys2Proof.Machine

/-! ### Functions and mailboxes -/

/-- Whether a function is there: the PF while the link is up; a VF that is enabled, while feature SRIOV is active (R464, Table 18.10). -/
def fnLive (fn : Nat) (s : State) : Bool :=
  getN O.HOST_LINK s != 0 && (fn == fnPf || (fn < 64 && (vfTenantOf fn s).isSome && featActive 12 s))

/-- The job rings and the interrupt vectors of a function (Table 17.5). -/
def fnRings (fn : Nat) : Nat := if fn = fnPf then 32 else 8
def fnVectors (fn : Nat) : Nat := if fn = fnPf then 256 else 16

/-- The size of BAR0 of a function (Table 17.5). -/
def fnBar (fn : Nat) : Nat := if fn = fnPf then 64 * mib else 256 * 1024

/-- The mailbox session of a function (Table 17.5). -/
def fnSess (fn : Nat) : Nat := if fn = fnPf then 8 else 9 + fn

/-- A mailbox after reset. -/
def Mailbox.new0 : Mailbox := {}

/-- A mailbox by session. -/
def getBox (k : Nat) (s : State) : Mailbox := smGet (fun _ => Mailbox.new0) k s.host.boxes

/-- Store a mailbox. -/
def setBox (k : Nat) (b : Mailbox) (s : State) : State := modHost (fun h => { h with boxes := smPut (fun _ => Mailbox.new0) k b h.boxes }) s

/-- A doorbell ignored or a bad ring setting (Table 17.12). -/
def ringErr (s : State) : State := addN O.HOST_RING_ERRS 1 s

/-- MB_DOORBELL: the request waits in REQ until it is served; one written while BUSY, or with a length out of range, is ignored. -/
def doorbell (fn length : Nat) (s : State) : State :=
  let b := getBox (fnSess fn) s
  if !fnLive fn s then s
  else if b.busy || length < 16 || 4096 < length then ringErr s
  else setBox (fnSess fn) { b with busy := true, reqLen := length } s

/-- RESP_ACK. -/
def ackResp (fn v : Nat) (s : State) : State :=
  if fnLive fn s ∧ v % 2 = 1 then setBox (fnSess fn) { getBox (fnSess fn) s with respReady := false } s else s

/-- NOTE_ACK. -/
def ackNote (fn v : Nat) (s : State) : State :=
  if fnLive fn s ∧ v % 2 = 1 then setBox (fnSess fn) { getBox (fnSess fn) s with noteReady := false } s else s

/-! ### Ring registers (Table 17.7) -/

/-- Whether a ring of a function is there. -/
def ringLive (fn ring : Nat) (s : State) : Bool := fnLive fn s && ring < fnRings fn

/-- SUB_TAIL; an index the ring does not have, or a ring that is not enabled, takes no doorbell. -/
def putSubTail (fn ring v : Nat) (s : State) : State :=
  let r := getRing (ringKey fn ring) s
  if !ringLive fn ring s then s
  else if !r.on || r.size ≤ v then ringErr s
  else setRing (ringKey fn ring) { r with subTail := v } s

/-- COMP_HEAD. -/
def putCompHead (fn ring v : Nat) (s : State) : State :=
  let r := getRing (ringKey fn ring) s
  if !ringLive fn ring s then s
  else if !r.on || r.size ≤ v then ringErr s
  else setRing (ringKey fn ring) { r with compHead := v } s

/-- The fields of RING_CTRL that a function may set. -/
def ringCtrlMask (fn v : Nat) : Nat := if fn = fnPf then v % 2 ^ 24 else v % 2 ^ 24 - field v 15 10 * 2 ^ 10

/-- Whether a RING_CTRL that enables a ring is good. -/
def ringCtrlOk (fn v : Nat) : Bool :=
  field v 3 1 ≤ 5 && 6 ≤ field v 8 4 && field v 8 4 ≤ 16 && field v 23 16 < fnVectors fn

/-- RING_CTRL: settings change only while the ring is, or by this write becomes, disabled (R467). -/
def putRingCtrl (fn ring v0 : Nat) (s : State) : State :=
  let r := getRing (ringKey fn ring) s
  let v := ringCtrlMask fn v0
  if !ringLive fn ring s then s
  else if (bitOf v 0 && !ringCtrlOk fn v) || (r.on && bitOf v 0 && r.ctrl != v) then ringErr s
  else setRing (ringKey fn ring) { r with ctrl := v } s

/-- One of the address registers of a ring, aligned as the table says; they are written while ENABLE is clear. -/
def putRingBase (fn ring off v : Nat) (s : State) : State :=
  let k := ringKey fn ring
  let r := getRing k s
  let align := if off < 0x10 then 4096 else if off = 0x10 then 64 else 8
  if r.on || v % align != 0 then ringErr s
  else
    let w := v % 2 ^ 64
    match off with
    | 0x00 => setRing k { r with subBase := w } s
    | 0x08 => setRing k { r with compBase := w } s
    | 0x10 => setRing k { r with statusBase := w } s
    | _ => setRing k { r with tailWb := w } s

/-- A write to BAR0 at an offset: the register's behaviour, or its value kept; read-only and absent registers take none. -/
def barWrite (fn off v : Nat) (s : State) : State :=
  if !fnLive fn s || fnBar fn ≤ off then s
  else if off = 0 then doorbell fn v s
  else if off = 8 then ackResp fn v s
  else if off = 0xC then ackNote fn v s
  else if 0x1000 ≤ off ∧ off < 0x2000 then
    modHost (fun h => { h with bar := smPut (fun _ => 0) (fn * 2 ^ 26 + off) (v % 2 ^ 64) h.bar }) s
  else if 0x10000 ≤ off ∧ off < 0x10000 + fnRings fn * 0x100 then
    let ring := (off - 0x10000) / 0x100
    match off % 0x100 with
    | 0x00 | 0x08 | 0x10 | 0x18 => putRingBase fn ring (off % 0x100) v s
    | 0x20 => putRingCtrl fn ring v s
    | 0x24 => putSubTail fn ring v s
    | 0x2C => putCompHead fn ring v s
    | _ => s
  else match (if fn = fnPf then Config.hostWindow off else none) with
    | some w => hostWindowWrite w.1 w.2 v s
    | none => s

/-! ### Completions (R467, R469) -/

/-- Write a completion entry, then COMP_TAIL to TAIL_WB, then signal the vector. -/
def writeCompletion (d : JobDone) (s : State) : State :=
  let k := ringKey d.src.fn d.src.ring
  let r := getRing k s
  let t := (r.compTail + 1) % r.size
  let s1 := emit (.hostWrite d.src.fn (r.compBase + 32 * r.compTail) d.bytes) s
  let s2 := emit (.hostWrite d.src.fn r.tailWb (bytesLE 8 t)) (setRing k { r with compTail := t } s1)
  emit (.interrupt d.src.fn (field r.ctrl 23 16)) s2

/-- Remove the first element a test names. -/
def removeFirst {α : Type} (p : α → Bool) : List α → List α
  | [] => []
  | x :: xs => if p x then xs else x :: removeFirst p xs

/-- The next completion of a ring is written, if there is one and the completion ring has room. -/
def completeNext (fn ring : Nat) (s : State) : State :=
  let mine (d : JobDone) : Bool := d.src.fn == fn && d.src.ring == ring
  match s.host.done.find? mine with
  | some d =>
    if (getRing (ringKey fn ring) s).hasRoom && fnLive fn s
    then writeCompletion d (modHost (fun h => { h with done := removeFirst mine h.done }) s) else s
  | none => s

/-- The far end has confirmed a transfer's seal, or the transfer has failed (R469). -/
def transferEnds (fn ring : Nat) (e : XferEnd) (s : State) : State :=
  match s.host.xferOut.find? fun x => x.site == e.site && x.number == e.number && x.src.fn == fn && x.src.ring == ring with
  | some x => match e.again with
    | some r => xferResend x r.1 r.2 s
    | none => if e.confirmed then xferOutEnds x 0 0 s else xferOutEnds x 1 ccChunkLoss s
  | none => s

/-- JOB_COMPLETION. -/
def jobCompletes (fn ring : Nat) (e : Option XferEnd) (s : State) : State :=
  completeNext fn ring (match e with | some x => transferEnds fn ring x s | none => s)

/-! ### Jobs (Table 17.8) -/

/-- Whether a channel may be given to a host job: a host channel at rest without a job. -/
def hostChanFree (c : Nat) (s : State) : Bool :=
  let x := getChan c s
  hostChan c s && x.job.isNone && (x.cstate == .idle || x.cstate == .stop || x.cstate == .fault)

/-- PORTER START: the job takes the lowest free host channel (log entry 71); without one it waits in its ring. -/
def porterStart (src : JobSrc) (host : Bool) (addr : Nat) (resZero : Bool) (s : State) : State :=
  if !mayConsume 2 src s then s
  else match (List.range 384).find? fun c => hostChanFree c s with
  | none => s
  | some c =>
    let t := entryTaken src stOk s
    let tenant := srcTenant src s
    if !resZero || addr % 32 != 0 || !(host || operandReach tenant addr 32 s) then
      endJob src 0x12 0 0 0 (if host then t else noteOperand tenant addr 32 (0x2000 + src.fn) t)
    else
      setChan c { getChan c t with
        cstate := .run, owner := .host, cause := 0, pc := 0, loops := [], moves := [], waitFor := none, afterMoves := none,
        pendingFault := none, stopCode := 0, bytes := 0, tag := 0xFF, gen := 0, tenant := tenant, fn := src.fn, job := some src,
        prog := addr, progHost := host, progInStore := false } (holdJob src (if host then [] else [addr / 2 ^ 32]) t)

/-- Whether the tally space is there: not in P1 or P2 (R476, R507). -/
def talliesThere (s : State) : Bool := getN O.PWR_STATE s == 0

/-- TALLY ALLOC. -/
def tallyAllocJob (src : JobSrc) (j : Nat) (resZero : Bool) (s : State) : State :=
  if !mayConsume 3 src s then s
  else
    let t := entryTaken src stOk s
    if 10 < j || !resZero then endJob src 0x12 0 0 0 t
    else if !talliesThere s then endJob src 1 0 0 0 t
    else match allocBlock (2 ^ j) (srcTenant src s) 0 1 (.host src.fn) t with
    | (some b, u) => endJob src 0 0 b 0 u
    | (none, u) => endJob src 1 0 0 0 u

/-- A block of KIND host that a tenant holds, by a tally in it. -/
def hostBlock (tenant t : Nat) (s : State) : Option TallyBlock :=
  match blockOf t s with
  | some b => (match b.owner with | .host _ => if b.tenant = tenant then some b else none | _ => none)
  | none => none

/-- The RESULT of a TALLY job for which Table 17.9 states none (free value 89). -/
def openResult (s : State) : Nat := freeAt 89 s % 2 ^ 64

/-- TALLY FREE. -/
def tallyFreeJob (src : JobSrc) (base : Nat) (resZero : Bool) (s : State) : State :=
  if !mayConsume 3 src s then s
  else
    let t := entryTaken src stOk s
    match hostBlock (srcTenant src s) base s with
    | some b => if b.base = base ∧ resZero then freeNext (endJob src 0 0 (openResult s) 0 (freeBlock base t)) else endJob src 0x12 0 0 0 t
    | none => endJob src 0x12 0 0 0 t

/-- TALLY ADD and RESET: on a tally in ERROR the job has FAILED. `result` is the RESULT of the job. -/
def tallyOpJob (src : JobSrc) (tl : Nat) (resZero : Bool) (result : Nat) (f : State → State) (s : State) : State :=
  if !mayConsume 3 src s then s
  else
    let t := entryTaken src stOk s
    if (hostBlock (srcTenant src s) tl s).isNone || !resZero then endJob src 0x12 0 0 0 t
    else
      let u := f t
      endJob src (if (getTally tl u).tstate = 1 then 0 else 1) 0 result 0 u

/-- The record of a PLACE entry (Table 17.8). -/
def placeRecord (e : PlaceEntry) : List Byte :=
  bytesLE 1 1 ++ bytesLE 1 (ofBool e.host) ++ [0#8, 0#8] ++ bytesLE 4 e.prog ++ bytesLE 8 e.tallyBase ++ bytesLE 8 e.user
    ++ bytesLE 8 e.list ++ List.replicate 32 0#8

/-- PLACE START: a failed read of host memory ends the job with cause HOST (R464). Else the request joins the sequencers' queue (R169); the
USER bytes are those of its address. -/
def placeStart (src : JobSrc) (e : PlaceEntry) (d : HostRead) (s : State) : State :=
  if !mayConsume 4 src s then s
  else if takesNoWork s then entryTaken src stDenied s
  else
    let tenant := srcTenant src s
    let user : Option (List Byte) :=
      if e.host then (if d.ok then some (padTo 128 d.bytes) else none)
      else if operandReach tenant e.user 128 s then some (operandBytes e.user 128 s) else none
    let t := entryTaken src stOk s
    if e.host && !d.ok then endJob src 1 hostCause 0 0 (hostFault src.fn e.user t)
    else match findProgram e.prog s, user, tenantList tenant e.list s with
    | some g, some us, some l =>
      if !e.reservedZero || !tallyBaseOk e.tallyBase tenant g.tallies s || (!isVendor g.progId && !featActive 11 s)
      then endJob src 0x12 0 0 0 t
      else if !bitOf g.tenantMask tenant then entryTaken src stDenied s
      else
        let q : PlaceReq := {
          owner := .host src, tenant := tenant, prog := g, argBlock := placeRecord e ++ List.replicate 64 0#8 ++ us,
          handles := l.handles, restartOf := none,
          tallyBase := if e.tallyBase = 0xFFFFFFFF then none else some e.tallyBase, tallyCount := g.tallies }
        let u := holdJob src (q.handles ++ (if e.host then [] else [e.user / 2 ^ 32])) t
        { u with comp := { u.comp with placeQueue := u.comp.placeQueue ++ [q] } }
    | _, _, _ => endJob src 0x12 0 0 0 (refuseEntries e.list tenant (0x2000 + src.fn) (if e.host then t else noteOperand tenant e.user 128 (0x2000 + src.fn) t))

/-! ### Reset of a function (Table 17.11) -/

/-- The work of a function ends without completions: its collectives are cancelled, its channels stop, its tally blocks are
freed, and its placements, transfers, rings and mailbox are gone. -/
def functionEnds (fn : Nat) (s : State) : State :=
  let own := s.coll.colls.filter fun c => c.src.fn == fn && !c.isFinal
  let s1 := own.foldl (fun u c => collEnd c.group c.seq c.epoch .cancelled ccRequested true u) s
  let s2 := s1.port.chans.foldl (fun u p =>
    if p.2.owner == .host && p.2.fn == fn then stopChannel p.1 (setChan p.1 { getChan p.1 u with job := none } u) else u) s1
  let s3 := (s2.comp.blocks.filter fun b => b.owner == .host fn).foldl (fun u b => freeBlock b.base u) s2
  let mine (o : PlaceOwner) : Bool := match o with | .host j => j.fn == fn | .coll _ _ => false
  let s4 := (s3.comp.placements.filter fun p => mine p.2.owner).foldl (fun u p => placementOwnerEnd p.1 u)
    { s3 with comp := { s3.comp with placeQueue := s3.comp.placeQueue.filter fun q => !mine q.owner } }
  let s5 := modHost (fun h => { h with
    done := h.done.filter fun d => d.src.fn != fn
    rings := h.rings.filter fun r => r.1 / 32 != fn
    boxes := h.boxes.filter fun b => b.1 != fnSess fn
    bar := h.bar.filter fun b => b.1 / 2 ^ 26 != fn }) (releaseJobs (·.fn == fn) (xferForget fn s4))
  settle s5

/-- A function takes the tenant HOST_VF_TENANT holds (R464). -/
def bindVf (v : Nat) (s : State) : State :=
  modHost (fun h => { h with vfTenant := smPut (fun _ => (none : Option Nat)) v (some (getN (O.HOST_VF_TENANT + v) s)) h.vfTenant }) s

/-- A function level reset. -/
def functionReset (fn : Nat) (s : State) : State :=
  if !(getN O.HOST_LINK s != 0 && (fn == fnPf || (vfTenantOf fn s).isSome)) then s
  else
    let t := logEvent 0x3802 fn (functionEnds fn s)
    if fn = fnPf then t else bindVf fn t

/-- Enabling the first VFs; those no longer enabled end as in a reset (log entry 72). -/
def enableVfs (n : Nat) (s : State) : State :=
  if getN O.HOST_LINK s = 0 then s
  else
    let s1 := (List.range 64).foldl (fun u v =>
      if v < n then (if (vfTenantOf v u).isSome then u else bindVf v u)
      else if (vfTenantOf v u).isSome then
        modHost (fun h => { h with vfTenant := smPut (fun _ => (none : Option Nat)) v none h.vfTenant }) (functionEnds v u)
      else u) s
    setN O.HOST_NUM_VFS n s1

/-- A DMA error ends a fetch (R484, Table 18.12): outside LOAD the staged image goes too. -/
def fetchBroken (s : State) : State :=
  let st := getN O.DL_STATUS s
  if st / 2 ^ 28 = 1 ∨ st / 2 ^ 28 = 2 then
    let t := setDl 5 (field st 27 20) 0xF0 s
    if s.devState == .load then t else discardStaged t
  else s

/-- The PCIe link is lost or reset: as a reset of every function, the VFs with it (R472). -/
def linkLost (s : State) : State :=
  let was := getN O.HOST_LINK s
  if was = 0 then s
  else
    let fns := fnPf :: ((List.range 64).filter fun v => (vfTenantOf v s).isSome)
    let s1 := fns.foldl (fun u fn => functionEnds fn u) s
    let s2 := setN O.HOST_NUM_VFS 0 (setN O.HOST_LINK 0 (modHost (fun h => { h with vfTenant := [] }) s1))
    logEvent 0x3801 was (fetchBroken s2)

/-- Whether anything serves the PCIe endpoint: from LOAD on, and in HALT (Table 18.2). -/
def endpointUp (s : State) : Bool :=
  match s.devState with
  | .off | .aux | .boot => false
  | _ => true

/-- The link trains at a generation and width (R464). -/
def linkTrains (gen width : Nat) (s : State) : State :=
  if endpointUp s ∧ width ≠ 0 ∧ gen ≠ 0 then setN O.HOST_LINK (gen * 256 + width) s else s

end Sys2Proof.Machine
end

