-- ==== Sys2Proof/Machine/Fec.lean ====
section
/-! DEFINITION. The native code (R326, Table 12.1): the outer codewords filled from the stream of frame bodies, their interleaving into
inner codewords, and the reverse. -/

namespace Sys2Proof.Machine

/-- The body bytes of one FEC block: 81,920 bits. -/
def fecBlockBytes : Nat := 10240

/-- Information symbol `i` of an outer codeword, whose 10,240 bits are `w`, most significant bit first. -/
def outerInfo (w i : Nat) : Nat := w / 2 ^ (10 * (1023 - i)) % 1024

/-- Symbol `i` of an outer codeword: information, then the 32 parity symbols, for which the spec gives no generator (free value 301, log
entry 159). -/
def outerSymbol (w i : Nat) : Nat := if i < 1024 then outerInfo w i else Config.freeValue 301 (w * 64 + (i - 1024)) % 1024

/-- The outer codewords of a block's body bytes, in transmission order. -/
def outerWords (bs : List Byte) : List Nat := (List.range 8).map fun j => natOfBE ((bs.drop (1280 * j)).take 1280)

/-- The outer codeword that gives inner codeword `k` its symbol with index `i`: symbol i of outer codeword j lies in inner codeword
(i + j) mod 8. -/
def outerOf (k i : Nat) : Nat := (k + 8 - i % 8) % 8

/-- The 1,056 information symbols of inner codeword `k`, by their index in the outer codewords (log entry 159). -/
def innerInfo (ws : List Nat) (k : Nat) : List Nat := (List.range 1056).map fun i => outerSymbol (ws.getD (outerOf k i) 0) i

/-- The parity of an inner codeword, 1,728 bits, for which the spec gives no matrix (free value 302, log entry 159). -/
def innerParity (info : List Nat) : Nat := Config.freeValue 302 (info.foldl (fun a x => a * 1024 + x) 0) % 2 ^ 1728

/-- The eight inner codewords of a block's body bytes: information symbols and parity. -/
def fecEncode (bs : List Byte) : List (List Nat × Nat) :=
  let ws := outerWords bs
  (List.range 8).map fun k => let x := innerInfo ws k; (x, innerParity x)

/-- The body bytes of outer codeword `j` of a block, from the decoded information symbols of its inner codewords. -/
def outerBytes (inner : List (List Nat)) (j : Nat) : List Byte :=
  bytesBE 1280 ((List.range 1024).foldl (fun a i => a * 1024 + (inner.getD ((i + j) % 8) []).getD i 0 % 1024) 0)

/-- The body bytes of a block, from the decoded information symbols of its inner codewords. -/
def fecDecode (inner : List (List Nat)) : List Byte := (List.range 8).flatMap (outerBytes inner)

/-- The blocks that a stream of body bytes fills, and what is left over. -/
def fecFill : Nat → List Byte → List (List Byte) × List Byte
  | 0, bs => ([], bs)
  | fuel + 1, bs =>
    if bs.length < fecBlockBytes then ([], bs)
    else let r := fecFill fuel (bs.drop fecBlockBytes); (bs.take fecBlockBytes :: r.1, r.2)

end Sys2Proof.Machine
end

