-- ==== Sys2Proof/Machine/RxOps.lean ====
section
/-! DEFINITION. The receive side of a carrier: the aligner (R312), the optical defects (R319), the FEC decoder (R329, R330), loss
reports (R339 to R342) and the identity of the far end (R17). -/

namespace Sys2Proof.Machine

/-! ### The far end (R17) -/

/-- A far end in the layout of LP_FAR_ID. -/
def farId (i : IdentInfo) : Nat := i.site % 256 * 2 ^ 24 + i.group % 65536 * 2 ^ 8 + i.place % 16 * 16 + 1

/-- Whether a far end is a peer: the same board group and place at another site. -/
def isPeer (i : IdentInfo) (s : State) : Bool :=
  i.group == getN O.BG_GROUP_ID s && i.place == servedPlace s && i.site != selfSite s

/-- Whether a port's far end is known and a peer, so that it may carry segments. -/
def portPeer (n : Nat) (s : State) : Bool :=
  match (getPort n s).farSite with
  | some (site, group, place) => isPeer ⟨site, group, place, 0, 0⟩ s
  | none => false

/-- IDENT taken on a carrier (R17, R349). -/
def takeIdent (c : Nat) (i : IdentInfo) (s : State) : State :=
  match portOfCar c s with
  | none => s
  | some n =>
    let ok := isPeer i s
    let seen := getN (O.LP_FAR_ID + n) s
    let s1 := modCar c (fun x => { x with ident := some i, peer := ok }) s
    let s2 := setN (O.LP_FAR_ID + n) (farId i) (modPort n (fun p => { p with farSite := some (i.site, i.group, i.place) }) s1)
    let s3 := if ok ∨ seen = farId i then s2 else logEvent 0x2021 (n * 2 ^ 56 + farId i) s2
    lineSettle (tryProbing c s3)

/-! ### The aligner (R312) -/

/-- The fields of a header. -/
def hdrFseq (w : List Byte) : Nat := natOfBE (w.take 6)
def hdrByte6 (w : List Byte) : Nat := natOfBE ((w.drop 6).take 1)
def hdrCar (w : List Byte) : Nat := hdrByte6 w / 32
def hdrType (w : List Byte) : Nat := field (hdrByte6 w) 4 1
def hdrKey (w : List Byte) : Nat := hdrByte6 w % 2

/-- A header whose check fits and whose FTYPE is listed. -/
def headerFits (w : List Byte) : Bool :=
  w.length == 16 && natOfBE (w.drop 12) == crc32c (w.take 12) && (hdrType w == 1 || hdrType w == 2)

/-- The lost range ends with the first FSEQ received in SYNC (R340); on A1 its COUNT is one larger (R560). -/
def closeRange (c first : Nat) (s : State) : State :=
  match (getCar c s).openRange, portOfCar c s with
  | some base, some n =>
    let k := fseqDiff base first + (if getN O.STEPPING s = 0xA1 then 1 else 0)
    let t := modCar c (fun x => { x with openRange := none }) s
    if k = 0 then t else lossDetermined n (getCar c s).rxCar base k t
  | _, _ => modCar c (fun x => { x with openRange := none }) s

/-- A candidate has enough good headers: SYNC (Table 11.10). Its frames are delivered from its first one on. -/
def enterSync (c : Nat) (a : AlignCand) (s : State) : State :=
  let x := getCar c s
  let y := { x with
    fa := 2, cands := [], badCount := 0, expFseq := a.first, rxCar := a.carrier, rxSeen := true, rxLocked := true,
    prevStamp := none, prevBip := none, prevRefl := none, tt := { x.tt with discardWindows := 2 } }
  let s1 := closeRange c a.first (setCar c { y with rxCar := x.rxCar } s)
  let s2 := setRaw c dLof false (setN (O.FA_STATE + c) 2 (modCar c (fun z => { z with rxCar := a.carrier }) s1))
  let s3 := (match portOfCar c s2 with | some n => applySwitch n (getN (O.SW_PORT_RX + n) s2) s2 | none => s2)
  lineSettle (tryProbing c s3)

/-- The aligner tests a 16-byte window at a bit offset, in HUNT or PRESYNC; a Z4 carrier has no Ghete frames. -/
def alignWindow (c off : Nat) (w : List Byte) (s : State) : State :=
  let x := getCar c s
  let o := off % 65536
  if x.fa = 2 ∨ x.raw % 4 ≠ 0 ∨ x.runMode = modeZ4 then s
  else
    let rest := x.cands.filter fun a => a.offset != o
    let put (cs : List AlignCand) : State :=
      let st := if cs.isEmpty then 0 else 1
      setN (O.FA_STATE + c) st (setCar c { x with cands := cs, fa := st } s)
    match x.cands.find? fun a => a.offset == o with
    | some a =>
      if headerFits w && hdrFseq w == (a.last + 1) % w48 && hdrCar w == a.carrier then
        let b : AlignCand := { a with last := hdrFseq w, good := a.good + 1 }
        if getN O.FA_PRESYNC_N s ≤ b.good then enterSync c b s else put (rest ++ [b])
      else put rest
    | none =>
      if headerFits w && x.cands.length < 8 then put (x.cands ++ [⟨o, hdrFseq w, hdrFseq w, hdrCar w, 1⟩]) else s

/-! ### Optical defects (Table 11.12) -/

/-- LOS is declared. -/
def losDeclared (c : Nat) (s : State) : State := defectFollow c (opticalDefect c dLos s)

/-- Carrier or clock lock is lost: the FEC block boundary goes with it. -/
def lockLost (c : Nat) (s : State) : State := defectFollow c (relock c s)

/-- A Z4 carrier has no margin test and no framing of its own: with its receiver in lock it enters ACTIVE (R374). -/
def z4Active (c : Nat) (s : State) : State :=
  let x := getCar c s
  if x.cstate == .acquiring && x.runMode == modeZ4 && x.fecLock && x.raw % 4 == 0 then enterActive c (setRaw c dLof false s) else s

/-- What a receiver's locks let a carrier do: a native one goes to PROBING, one in Z4 to ACTIVE. -/
def acquired (c : Nat) (s : State) : State := z4Active c (tryProbing c s)

/-- LOS clears. -/
def losCleared (c : Nat) (s : State) : State := defectFollow c (acquired c (setRaw c dLos false s))

/-- Every lock has been held for 10 µs: LOCK clears. -/
def lockCleared (c : Nat) (s : State) : State :=
  let x := getCar c s
  if x.fecLock && (x.locked || x.cstate == .dark) then defectFollow c (acquired c (setRaw c dLock false s)) else s

/-! ### The FEC decoder (R329, R330) -/

/-- One FEC block, of a decoder that is on: its body bytes go to the framer (R326); a flag for each outer codeword that is uncorrectable,
the corrected bits and the line bits of the codewords that decoded. -/
def fecBlock (c : Nat) (inner : List (List Nat)) (uncorr : List Bool) (corr bits : Nat) (s : State) : State :=
  let x := getCar c s
  if x.runMode = 0 then s else
  let n := (uncorr.filter id).length
  let s1 := addN (O.FEC_UNCORR_CW + c) n s
  let y := { x with
    fecRx := if x.runMode = modeZ4 then [] else fecDecode inner
    fecCorr := x.fecCorr + corr, fecBits := x.fecBits + bits,
    ledger := { x.ledger with
      fecCorrBits := x.ledger.fecCorrBits + corr, uncorr := x.ledger.uncorr + (if x.runMode = modeZ4 then n else 0) } }
  if n = 0 then
    let good := x.fecGood + 1
    if !x.fecLock && 3 ≤ good then
      let t := setCar c { y with fecGood := 0, fecBad := 0, fecLock := true } s1
      lineSettle (acquired c (logEvent 0x2202 (c * 2 ^ 56 + x.runMode) (setN (O.FEC_STATE + c) (if x.runMode = modeZ4 then 3 else 2) t)))
    else setCar c { y with fecGood := if x.fecLock then 0 else good, fecBad := 0 } s1
  else
    let bad := x.fecBad + 1
    if x.fecLock && 16 ≤ bad then
      let t := setCar c { y with fecGood := 0, fecBad := 0, fecLock := false } s1
      defectFollow c (opticalDefect c dLock (logEvent 0x2201 (c * 2 ^ 56) (setN (O.FEC_STATE + c) 1 t)))
    else setCar c { y with fecGood := 0, fecBad := if x.fecLock then bad else 0 } s1

/-- The value of a positive F32 code in units of 2⁻⁹⁶. -/
def f32Units (code : Nat) : Nat :=
  let e := code / 2 ^ 23
  if e = 0 then 0 else if 54 ≤ e then (2 ^ 23 + code % 2 ^ 23) * 2 ^ (e - 54) else (2 ^ 23 + code % 2 ^ 23) / 2 ^ (54 - e)

/-- The end of a 1 ms interval: the pre-FEC BER estimate and the DEG filter (R319, R329). Without a decoded codeword there is no
estimate. -/
def degInterval (c : Nat) (s : State) : State :=
  let x := getCar c s
  if x.fecBits = 0 then s
  else
    let ber := (encodeElem 0 .tiesToEven (FVal.div (.fin false x.fecCorr 0) (.fin false x.fecBits 0)).1).1
    let lower := x.raw % 2 ^ dDeg != 0
    let set := if !lower && getN O.DEG_BER_SET s < ber then x.degSet + 1 else 0
    let clr := if !lower && ber < getN O.DEG_BER_CLR s then x.degClr + 1 else 0
    let s1 := setN (O.FEC_PRE_BER + c) ber (setCar c { x with
      fecCorr := 0, fecBits := 0, degSet := set, degClr := clr, berSum := x.berSum + f32Units ber, berN := x.berN + 1 } s)
    if getN O.DEG_SET_N s ≤ set then defectFollow c (setRaw c dDeg true s1)
    else if getN O.DEG_CLR_N s ≤ clr then defectFollow c (setRaw c dDeg false s1)
    else s1

/-! ### Loss reports -/

/-- LR_SPACING_US after a report, the next one of the first entry still due (R339). -/
def lossAgain (n : Nat) (s : State) : State :=
  match (getPort n s).lrDue with | d :: _ => reportDue n d s | [] => s

/-- The open-range report repeats while its defect lasts (R340). -/
def openAgain (c : Nat) (s : State) : State :=
  let x := getCar c s
  match x.openRange, portOfCar c s with
  | some base, some n => if x.reported % 16 ≠ 0 then queueReport n ⟨x.rxCar, true, base, 0⟩ s else s
  | _, _ => s

/-- The most frames a port's held reports may name while a line-control processor is down (Table 12.4). -/
def lrHeldMax : Nat := 4096

/-- A report is served, or held while the line-control processor of its carrier's die is down (R341, Table 12.4). -/
def serveReport (n : Nat) (r : LossReport) (s : State) : State :=
  if lncUp r.carrier s then takeLossReport n r s
  else
    let p := getPort n s
    let k := (p.lrHeld ++ [r]).foldl (fun a q => a + reportCount q (getCar q.carrier s).fseq) 0
    if k ≤ lrHeldMax then setPort n { p with lrHeld := p.lrHeld ++ [r] } s else s

/-- A line-control processor runs again: the reports held for its carriers are served (Table 12.4). -/
def serveHeld (n : Nat) (s : State) : State :=
  let rs := (getPort n s).lrHeld
  rs.foldl (fun u r => serveReport n r u) (modPort n (fun p => { p with lrHeld := [] }) s)

/-- A LOSS_REPORT taken on carrier `c` (R341, R342); a report that does not fit is ignored and counted. -/
def takeReport (c : Nat) (r : LossReport) (ok : Bool) (s : State) : State :=
  match portOfCar c s with
  | some n =>
    if ok && bitOf (lpCarriers n s) r.carrier && carSends r.carrier s && (r.range || r.map % 2 == 1) then serveReport n r (laneCount c s)
    else modLedger c (fun l => { l with clUnknown := l.clUnknown + 1 }) s
  | none => modLedger c (fun l => { l with clUnknown := l.clUnknown + 1 }) s

end Sys2Proof.Machine
end

