-- ==== Sys2Proof/Machine/FirmwareOps.lean ====
section
/-! DEFINITION. Firmware images (R482, R483), the download (R484, R564), activation (R491 to R493), the stage-1 flash (R494) and the
processors (R486, R487, R505). -/

namespace Sys2Proof.Machine

/-! ### Images (Tables 18.5 to 18.7) -/

/-- `n` bytes of an image as a little-endian number. -/
def imgN (img : List Byte) (o n : Nat) : Nat := natOfLE ((img.drop o).take n)

/-- Bytes of an image. -/
def imgB (img : List Byte) (o n : Nat) : List Byte := (img.drop o).take n

/-- The kinds the image store holds, in per-kind order (R496). -/
def storeKinds : List Nat := [0x10, 0x11, 0x12, 0x13, 0x14, 0x15, 0x20]

/-- The per-kind index of a kind. -/
def kindIdx (k : Nat) : Option Nat := storeKinds.findIdx? fun x => x == k

/-- The place of a kind in SVN_MIN (Table 19.2). -/
def svnIdx (k : Nat) : Option Nat := [0x01, 0x02, 0x10, 0x11, 0x12, 0x13, 0x14, 0x15, 0x20].findIdx? fun x => x == k

/-- The largest body of a kind, 0 for a kind that Table 18.6 does not list. -/
def bodyLimit (k : Nat) : Nat :=
  match k with
  | 0x01 | 0x02 => 7 * 2 ^ 20
  | 0x10 | 0x13 => 512 * 2 ^ 10
  | 0x11 => 8 * 2 ^ 20
  | 0x12 | 0x14 => 2 ^ 20
  | 0x15 => 4 * 2 ^ 20
  | 0x20 => 16 * 2 ^ 20
  | _ => 0

/-- SVN of an image. -/
def imgSvn (img : List Byte) : Nat := imgN img 12 4

/-- VERSION of an image. -/
def imgVersion (img : List Byte) : Nat := imgN img 8 4

/-- The minimum SVN of a kind. -/
def svnMin (k : Nat) (s : State) : Nat := match svnIdx k with | some i => ((getB O.SVN_MIN s).getD i 0).toNat | none => 0

/-- Whether reserved bytes and bits are zero. -/
def imgReserved (img : List Byte) : Bool :=
  imgN img 28 4 / 2 == 0 && imgN img 86 10 == 0 && imgN img 193 7 == 0 && imgN img 296 24 == 0

/-- Whether the key of an image is that of a fuse slot which is not revoked (check 5). -/
def keyFused (img : List Byte) (s : State) : Bool :=
  let k := (img.getD 7 0).toNat
  k < 4 && sha384 (imgB img 96 97) == ((getB O.FW_KEY_HASH s).drop (48 * k)).take 48 && !bitOf (getN O.FW_KEY_REVOKED s) k

/-- The number of the first check of Table 18.7 that an image fails, 0 when it passes all; `allow` are the kinds the command takes. -/
def fwCheck (allow : List Nat) (img : List Byte) (s : State) : Nat :=
  if imgN img 0 4 ≠ 0x4E4C4957 || imgN img 4 2 ≠ 1 || !imgReserved img then 1
  else if !allow.contains (imageKind img) then 2
  else if imgN img 16 4 = 0 || bodyLimit (imageKind img) < imgN img 16 4 || img.length ≠ 320 + imgN img 16 4 then 3
  else if !bitOf (imgN img 80 2) 0 then 4
  else if !keyFused img s then 5
  else if imgSvn img < svnMin (imageKind img) s then 6
  else if !ecdsaOk (imgB img 96 97) (sha384 (img.take 200)) (imgB img 200 96) then 7
  else if sha384 (img.drop 320) ≠ imgB img 32 48 then 8
  else 0

/-- A refused image is logged (R483). -/
def imageRefused (img : List Byte) (e : Nat) (s : State) : State := logEvent 0x1003 (imageKind img * 2 ^ 56 + e) s

/-- The image store holds an image: its version, its SVN and its kind are shown (R496). -/
def storeImage (img : List Byte) (s : State) : State :=
  match kindIdx (imageKind img) with
  | some i =>
    let s1 := { s with dev := { s.dev with store := smPut (fun _ => ([] : List Byte)) i img s.dev.store } }
    setObjBit O.DL_KINDS i true (setN (O.FW_SVN + i) (imgSvn img % 256) (setN (O.FW_VERSION + i) (imgVersion img) s1))
  | none => s

/-- The image store's image of a kind. -/
def storedImage (k : Nat) (s : State) : List Byte :=
  match kindIdx k with | some i => smGet (fun _ => ([] : List Byte)) i s.dev.store | none => []

/-! ### Download (R484, R564) -/

/-- STATE of DL_STATUS. -/
def dlState (s : State) : Nat := getN O.DL_STATUS s / 2 ^ 28

/-- KIND of DL_STATUS. -/
def dlKind (s : State) : Nat := field (getN O.DL_STATUS s) 27 20

/-- READY, SERVICE or LINE_HOLD: an image is staged instead of loaded (R491). -/
def stages (s : State) : Bool := inService s

/-- DL_CMD FETCH is accepted. -/
def fetchCheck (sess : Nat) (s : State) : Nat :=
  if sess ≠ 8 then 0x19
  else if !(s.devState == .load || stages s) then 0x30
  else if dlState s = 1 ∨ dlState s = 2 then 0x30
  else 0

/-- A fetch begins: the gateway reads DL_LEN bytes at DL_ADDR. -/
def fetchStart (s : State) : State := setDl 1 (dlKind s) 0 (emit (.imageRead (getN O.DL_ADDR s) (getN O.DL_LEN s)) s)

/-- Crates of class H1M for `n` MiB, at priority CONTROL; none when the pool cannot give them. -/
def stageCrates : Nat → State → Option (List Nat) × State
  | 0, s => (some [], s)
  | n + 1, s =>
    let q : CrateReq := { size := 2 ^ 20, loc := 2, prio := 0, spill := false, nowait := true, die := 0, owner := ownMgt, tenant := 0 }
    match allocNow q s with
    | (some h, t) =>
      (match stageCrates n t with
      | (some hs, u) => (some (h :: hs), u)
      | (none, u) => (none, letGo h ownMgt u))
    | (none, t) => (none, t)

/-- A verified image is staged in crates, in place of one staged before (R491). The spec gives no ERROR for a pool that cannot hold
it: the code is left open (free value 78). -/
def stageImage (img : List Byte) (s : State) : State :=
  let s0 := freeMgt s.dev.stagedCrates { s with dev := { s.dev with staged := none, stagedCrates := [] } }
  match stageCrates ((img.length + 2 ^ 20 - 1) / 2 ^ 20) s0 with
  | (some hs, t) =>
    setDl 3 (imageKind img) 0 (setN O.FW_STAGED (imageKind img * 2 ^ 56 + imgVersion img)
      { t with dev := { t.dev with staged := some img, stagedCrates := hs } })
  | (none, t) => setDl 5 (imageKind img) (freeAt 78 s % 256) (freeNext (setN O.FW_STAGED 0 t))

/-- The image of a fetch has been read and is being verified (R484). The spec fixes no time for it: it passes at a clock or not before the
fetch ends (free value 305, log entry 171). -/
def fetchReads (s : State) : State :=
  if dlState s = 1 then freeNext (if freeAt 305 s % 2 = 1 then setDl 2 (dlKind s) 0 s else s) else s

/-- A fetch ends (R484): STAGED when every check passes, FAILED otherwise. -/
def fetchEnds (image : Option (List Byte)) (s : State) : State :=
  if !(dlState s == 1 || dlState s == 2) then s
  else match image with
  | none => fetchBroken s
  | some img =>
    let e := fwCheck storeKinds img s
    if e ≠ 0 then setDl 5 (imageKind img) e (imageRefused img e s)
    else if s.devState == .load then setDl 3 (imageKind img) 0 (storeImage img s)
    else stageImage img s

/-- DL_CMD ABORT is accepted (R564). -/
def abortCheck (sess : Nat) (s : State) : Nat :=
  if s.devState == .load && sess != 8 then 0x19
  else if !(s.devState == .load || stages s) || dlState s == 4 || dlState s == 6 then 0x30
  else 0

/-- DL_CMD ABORT: the fetch in progress and the staged image go; the image store stays. -/
def abortEffect (s : State) : State := setDl 0 (dlKind s) 0 (if stages s then discardStaged s else s)

/-! ### The processors (R445, R486, R487, R505) -/

/-- What is held or refused while a processor is down (Table 16.10). -/
def procStops (p : Nat) (s : State) : State :=
  match p with
  | 1 => cgMgtCrash s
  | 4 => timDown s
  | 5 =>
    let t := abandonSlices (fun _ => true) s
    modBist (fun b => { b with
      replanDue := b.replanDue || b.replanning, replanning := false, short := [], raised := [], lowered := 0, upshift := [] }) t
  | _ => s

/-- What a processor's memory held is lost: SEC's challenges and unlocks (Table 19.11). -/
def procLoses (p : Nat) (s : State) : State :=
  if p = 0 then
    { s with
      dict := { s.dict with sessions := s.dict.sessions.map fun q => (q.1, { q.2 with unlocked := false }) }
      dev := { s.dev with challenges := [], passed := [], failures := [], locked := [] } }
  else s

/-- A processor is restarted (R486): its code in PROC_STATE, and what goes down with it; an image store whose copy fails its hash
check is a cause of SAFE. -/
def procRestarts (p code : Nat) (copyOk : Bool) (s : State) : State :=
  let t := procLoses p (procStops p (setN (O.PROC_STATE + p) code s))
  if copyOk then t else causeOfSafe 0x07 t

/-- The sessions close, and OPEN commit groups with them: MGT starts clean (R492). -/
def closeSessions (s : State) : State :=
  let t := cgMgtCrash s
  { t with dict := { t.dict with sessions := [] }, host := { t.host with boxes := [] } }

/-- Restarts a processor's watchdog has made within 600 s, the present one among them. -/
def wdogTimes (p : Nat) (s : State) : List Nat :=
  (smGet (fun _ => ([] : List Nat)) p s.dev.wdogs ++ [s.time.clocks]).filter fun c => decide (s.time.clocks < c + 600 * clkSec)

/-- A restart is counted and logged with its cause (R486). -/
def countRestart (p cause : Nat) (s : State) : State :=
  logEvent 0x1007 (p * 256 + cause) (addN (O.PROC_RESTARTS + p) 1 s)

/-- A third restart by the watchdog within 600 s is a cause of SAFE (R445). -/
def wdogCounted (p : Nat) (s : State) : State :=
  let ts := wdogTimes p s
  let t := { s with dev := { s.dev with wdogs := smPut (fun _ => ([] : List Nat)) p ts s.dev.wdogs } }
  if 3 ≤ ts.length then causeOfSafe 0x03 t else t

/-- The runtime kind of a processor (Table 18.9). -/
def procKind : Nat → Nat
  | 0 => 0x10 | 1 => 0x11 | 2 => 0x12 | 3 => 0x12 | 4 => 0x13 | 5 => 0x14 | _ => 0x15

/-- A watchdog expires on a new image: the old one is put back (R491, Table 18.12). -/
def restoreOld (p : Nat) (s : State) : State :=
  match s.dev.actKind, s.dev.oldImage with
  | some k, some old =>
    if procKind p ≠ k then s
    else
      let failed := imgVersion (storedImage k s)
      let s1 := storeImage old (freeMgt s.dev.oldCrates
        { s with dev := { s.dev with actKind := none, actLeft := [], oldImage := none, oldCrates := [] } })
      let s2 := logEvent 0x1008 (k * 2 ^ 56 + failed) (setDl 5 k 0 s1)
      if k = 0x11 then closeSessions s2 else s2
  | _, _ => s

/-- Whether a processor runs a runtime image that its watchdog watches: a debugger's halt suspends it (R505). -/
def runtimeRuns (p : Nat) (s : State) : Bool :=
  procUp p s && !(s.devState == .off || s.devState == .aux || s.devState == .boot || s.devState == .load || s.devState == .halt)

/-- A watchdog expires, or a trap is not handled (R486): cause 1 or 2. -/
def procFails (p cause : Nat) (copyOk : Bool) (s : State) : State :=
  let activating := getN (O.PROC_STATE + p) s == 3
  if !runtimeRuns p s && !(activating && !bitOf s.dev.halted p) then s
  else
    let s1 := if cause = 1 then restoreOld p s else s
    wdogCounted p (procRestarts p 2 copyOk (countRestart p cause s1))

/-- A PROC_CMD is accepted. -/
def procCmdCheck (v : Nat) (s : State) : Nat :=
  if v / 256 ≠ 1 then 0x14 else if getN (O.PROC_STATE + v % 8) s = 0 then 0x30 else 0

/-- PROC_CMD RESTART (R487). -/
def procCmdEffect (v : Nat) (copyOk : Bool) (s : State) : State := procRestarts (v % 8) 2 copyOk (countRestart (v % 8) 3 s)

/-- An activation restarts a processor on its new image. -/
def procActivates (p : Nat) (s : State) : State := procRestarts p 3 true s

/-- The next processor of an activation (Table 18.11). -/
def nextActivates (s : State) : State :=
  match s.dev.actLeft with
  | p :: ps => procActivates p { s with dev := { s.dev with actLeft := ps } }
  | [] => s

/-- A processor starts at ENTRY (R486): it rebuilds its state from the hardware. -/
def procStarts (p : Nat) (s : State) : State :=
  let c := getN (O.PROC_STATE + p) s
  if c ≠ 2 ∧ c ≠ 3 then s
  else
    let s1 := setN (O.PROC_STATE + p) 1 s
    let s2 := match p with
      | 0 => { s1 with dev := { s1.dev with keyOpen := getN O.DBG_STATE s1 == 2 } }
      | 2 | 3 => (List.range 4).foldl (fun u n => serveHeld n u) s1
      | 6 | 7 => rotateRows s1
      | _ => s1
    if c = 3 then nextActivates s2 else s2

/-- Whether a debugger may halt a processor (Table 19.6). -/
def mayHalt (p : Nat) (s : State) : Bool :=
  getN (O.PROC_STATE + p) s == 1 && (getN O.DBG_STATE s == 2 || (getN O.DBG_STATE s == 1 && p != 0))

/-- A debugger halts a processor (R505). -/
def procHalts (p : Nat) (s : State) : State :=
  if !mayHalt p s || bitOf s.dev.halted p then s
  else procStops p { s with dev := { s.dev with halted := setBit s.dev.halted p } }

/-- A debugger lets a processor run (R505). -/
def procResumes (p : Nat) (s : State) : State :=
  if !bitOf s.dev.halted p then s
  else
    let s1 := { s with dev := { s.dev with halted := clrBit s.dev.halted p } }
    match p with
    | 2 | 3 => (List.range 4).foldl (fun u n => serveHeld n u) s1
    | 6 | 7 => rotateRows s1
    | _ => s1

/-! ### Activation (R491 to R493) -/

/-- DL_CMD ACTIVATE is accepted. -/
def activateCheck (s : State) : Nat :=
  if !stages s || s.dev.actKind.isSome || s.dev.deferred || s.dev.flashing.isSome then 0x30
  else if s.dev.staged.isNone then 0x14
  else 0

/-- Whether MGT can hand over (R492). -/
def handsOver (old new : List Byte) : Bool :=
  bitOf (imgN old 28 4) 0 && bitOf (imgN new 28 4) 0 && decide (imgN new 84 2 ≤ imgN old 82 2) && decide (imgN old 82 2 ≤ imgN new 82 2)

/-- What an activation does with the processors (Table 18.11); the sequencers of compute dies that are off start on the image as they return
(R476). -/
def activateKind (k : Nat) (old new : List Byte) (s : State) : State :=
  match k with
  | 0x10 => procActivates 0 s
  | 0x11 =>
    if handsOver old new then setN (O.PROC_STATE + 1) 3 s
    else setN (O.PROC_STATE + 1) 3 (logEvent 0x1009 (imgN old 82 2 * 2 ^ 16 + imgN new 84 2) (closeSessions s))
  | 0x12 => procActivates 2 { s with dev := { s.dev with actLeft := [3] } }
  | 0x13 => procActivates 4 s
  | 0x14 => procActivates 5 s
  | 0x15 => nextActivates { s with dev := { s.dev with actLeft := [6, 7].filter fun p => getN (O.PROC_STATE + p) s != 0 } }
  | _ => s

/-- The staged image and the image store's of its kind change places, and the processors start on it. -/
def activateStart (s : State) : State :=
  match s.dev.staged with
  | none => { s with dev := { s.dev with deferred := false } }
  | some img =>
    let k := imageKind img
    let old := storedImage k s
    let s1 := storeImage img { s with dev := { s.dev with
      staged := none, stagedCrates := [], oldCrates := s.dev.stagedCrates, actKind := some k, actLeft := [], oldImage := some old,
      deferred := false } }
    activateKind k old img (setDl 4 k 0 (setN O.FW_STAGED 0 s1))

/-- DL_CMD ACTIVATE: at once, or deferred while an emergency flag is set (R493). -/
def activateEffect (s : State) : State :=
  let f := getN O.EMERG_FLAGS s
  if f = 0 then activateStart s
  else
    let k := match s.dev.staged with | some i => imageKind i | none => 0
    logEvent 0x1005 (k * 2 ^ 56 + f) (setDl 7 k 0 { s with dev := { s.dev with deferred := true } })

/-- The flags have stayed clear for FW_ACT_HOLD_MS (R493). -/
def deferredStarts (s : State) : State :=
  if s.dev.deferred && getN O.EMERG_FLAGS s == 0 && stages s then activateStart s else s

/-- FW_ACT_WAIT_S has passed (R493). -/
def deferredEnds (s : State) : State := if s.dev.deferred then dropActivation s else s

/-- The new image has run for 10 s (R491): the old one goes. -/
def activationDone (s : State) : State :=
  match s.dev.actKind with
  | some k =>
    if !s.dev.actLeft.isEmpty || (List.range 8).any (fun p => procKind p == k && getN (O.PROC_STATE + p) s == 3) then s
    else
      let s1 := freeMgt s.dev.oldCrates { s with dev := { s.dev with actKind := none, oldImage := none, oldCrates := [] } }
      logEvent 0x1004 (k * 2 ^ 56 + imgVersion (storedImage k s)) (if dlState s1 = 4 then setDl 0 k 0 s1 else s1)
  | none => s

/-! ### The stage-1 flash (R494) -/

/-- The image in a stage-1 slot. -/
def slotImage (k : Nat) (s : State) : List Byte := if k = 0 then s.dev.slotA else s.dev.slotB

/-- Which copy of the directory is in force: the one written last if its check holds, else the other (R480). -/
def dirCopy (s : State) : Nat :=
  if (if s.dev.dirNew = 0 then s.dev.dirA else s.dev.dirB).valid then s.dev.dirNew else 1 - s.dev.dirNew

/-- The directory in force. -/
def flashDir (s : State) : FlashDir := if dirCopy s = 0 then s.dev.dirA else s.dev.dirB

/-- The active stage-1 slot. -/
def dirSlot (s : State) : Nat := (flashDir s).active % 2

/-- The copy of the directory that is not current is written: it names a slot as active, with the SVN of what the slot holds (R494). -/
def dirWrite (slot svn : Nat) (s : State) : State :=
  let d := flashDir s
  let x : FlashDir := {
    valid := true, active := slot, svnA := if slot = 0 then svn else d.svnA, svnB := if slot = 0 then d.svnB else svn }
  if dirCopy s = 0 then { s with dev := { s.dev with dirB := x, dirNew := 1 } }
  else { s with dev := { s.dev with dirA := x, dirNew := 0 } }

/-- The kinds DL_CMD FLASH takes: the recovery image only in lifecycle BLANK (Table 18.7). -/
def flashKinds (s : State) : List Nat := if getN O.LC_STATE s = 0 then [1, 2] else [1]

/-- DL_CMD FLASH is accepted. -/
def flashCheck (s : State) : Nat :=
  if !stages s || s.dev.flashing.isSome || s.dev.actKind.isSome || dlState s == 1 || dlState s == 2 then 0x30 else 0

/-- DL_CMD FLASH: an image that passes is written. -/
def flashStart (image : Option (List Byte)) (s : State) : State :=
  let s0 := emit (.imageRead (getN O.DL_ADDR s) (getN O.DL_LEN s)) s
  match image with
  | none => setDl 5 (dlKind s) 0xF0 s0
  | some img =>
    let e := fwCheck (flashKinds s) img s0
    if e ≠ 0 then setDl 5 (imageKind img) e (imageRefused img e s0)
    else setDl 6 (imageKind img) 0 { s0 with dev := { s0.dev with flashing := some img } }

/-- The write is read back and verified; the directory then names the slot (R494). The recovery image has no slot of its own. -/
def flashEnds (back : List Byte) (s : State) : State :=
  match s.dev.flashing with
  | none => s
  | some img =>
    let k := imageKind img
    let s0 := { s with dev := { s.dev with flashing := none } }
    let slot := 1 - dirSlot s
    let s1 := if k = 2 then { s0 with dev := { s0.dev with recovery := back } }
      else if slot = 0 then { s0 with dev := { s0.dev with slotA := back } }
      else { s0 with dev := { s0.dev with slotB := back } }
    let e := fwCheck [k] back s1
    if e ≠ 0 then setDl 5 k e (imageRefused back e s1)
    else if k = 2 then setDl 0 k 0 (logEvent 0x100D (2 * 2 ^ 56 + imgVersion back) s1)
    else
      setDl 0 k 0 (logEvent 0x100D (slot * 2 ^ 56 + imgVersion back) (dirWrite slot (imgSvn back) s1))

end Sys2Proof.Machine
end

