-- ==== Sys2Proof/Machine/Firmware.lean ====
section
/-! DEFINITION. The commands of the download, of activation, of the flash, of the processors and of feature negotiation (chapter 18,
R505). -/

namespace Sys2Proof.Machine

/-- DL_CMD FETCH (R484). -/
def execDlCmdFetch (sess : Fin 73) (s : State) : Host.Outcome State Fault Refusal :=
  .next (numRow O.DL_CMD sess.val 1 (fetchCheck sess.val) fetchStart s)

/-- FETCH_COMPLETE (R484). -/
def execFetchComplete (image : Option (List Byte)) (s : State) : Host.Outcome State Fault Refusal := .next (fetchEnds image s)

/-- DL_CMD ABORT (R564). -/
def execDlCmdAbort (sess : Fin 73) (s : State) : Host.Outcome State Fault Refusal :=
  .next (numRow O.DL_CMD sess.val 3 (abortCheck sess.val) abortEffect s)

/-- DL_CMD ACTIVATE (R491, R493). -/
def execDlCmdActivate (sess : Fin 73) (s : State) : Host.Outcome State Fault Refusal :=
  .next (numRow O.DL_CMD sess.val 4 activateCheck activateEffect s)

/-- ACTIVATION_START (R493). -/
def execActivationStart (s : State) : Host.Outcome State Fault Refusal := .next (deferredStarts s)

/-- ACTIVATION_WAIT_EXPIRY (R493). -/
def execActivationWaitExpiry (s : State) : Host.Outcome State Fault Refusal := .next (deferredEnds s)

/-- ACTIVATION_SOAK_EXPIRY (R491). -/
def execActivationSoakExpiry (s : State) : Host.Outcome State Fault Refusal := .next (activationDone s)

/-- DL_CMD FLASH (R494). -/
def execDlCmdFlash (sess : Fin 73) (image : Option (List Byte)) (s : State) : Host.Outcome State Fault Refusal :=
  .next (numRow O.DL_CMD sess.val 5 flashCheck (flashStart image) s)

/-- FLASH_DONE (R494). -/
def execFlashDone (readBack : List Byte) (s : State) : Host.Outcome State Fault Refusal := .next (flashEnds readBack s)

/-- PROC_WATCHDOG (R486). -/
def execProcWatchdog (p : Fin 8) (copyOk : Bool) (s : State) : Host.Outcome State Fault Refusal :=
  .next (settle (procFails p.val 1 copyOk s))

/-- PROC_TRAP (R486). -/
def execProcTrap (p : Fin 8) (copyOk : Bool) (s : State) : Host.Outcome State Fault Refusal :=
  .next (settle (procFails p.val 2 copyOk s))

/-- PROC_CMD RESTART (R487). -/
def execProcCmdRestart (sess : Fin 73) (p : Fin 8) (copyOk : Bool) (s : State) : Host.Outcome State Fault Refusal :=
  .next (numRow O.PROC_CMD sess.val (256 + p.val) (procCmdCheck (256 + p.val)) (procCmdEffect (256 + p.val) copyOk) s)

/-- PROC_RESTART_COMPLETE (R486). -/
def execProcRestartComplete (p : Fin 8) (s : State) : Host.Outcome State Fault Refusal := .next (settle (restartsResume (procStarts p.val s)))

/-- DEBUGGER_HALT (R505). -/
def execDebuggerHalt (p : Fin 8) (s : State) : Host.Outcome State Fault Refusal := .next (procHalts p.val s)

/-- DEBUGGER_RESUME (R505); restarts of placements that waited for the processor start (R178). -/
def execDebuggerResume (p : Fin 8) (s : State) : Host.Outcome State Fault Refusal := .next (settle (restartsResume (procResumes p.val s)))

/-- A FEAT_DRIVER value: OUTER needs EARLY_USE (Table 18.10). -/
def featCheck (half v : Nat) : Nat := if half = 0 && bitOf v 1 && !bitOf v 16 then 0x14 else 0

/-- FEAT_ACTIVE is the AND of what the driver asks for and the device offers (R489). -/
def featEffect (half v : Nat) (s : State) : State :=
  settleSpares (setN (O.FEAT_ACTIVE + half) (v &&& getN (O.FEAT_DEVICE + half) s) (setN (O.FEAT_DRIVER + half) v s))

/-- FEAT_DRIVER (R489). -/
def execFeatDriver (half : Fin 2) (w : ObjWrite) (s : State) : Host.Outcome State Fault Refusal :=
  .next (numRow (O.FEAT_DRIVER + half.val) w.sess w.value (fun _ => featCheck half.val w.value) (featEffect half.val w.value) s)

end Sys2Proof.Machine
end

