-- ==== Sys2Proof/Machine/CreditOps.lean ====
section
/-! DEFINITION. Waiting enqueues (R276), grants and CREDIT messages (R288 to R293), and tenant Ethernet from the local fabric
(R286, R456). -/

namespace Sys2Proof.Machine

/-- The waiting enqueue at place `k` proceeds when its queue has room and none of the same queue waits before it (R276); the
MOVE it ends is complete (R258). -/
def enqueueRoom (k : Nat) (s : State) : State :=
  match s.sched.waiting[k]? with
  | none => s
  | some w =>
    if ((s.sched.waiting.take k).any fun v => v.q == w.q) || !queueRoom w.q w.seg.seg s then s
    else
      let t := pushSeg w.q w.seg { s with sched := { s.sched with waiting := s.sched.waiting.eraseIdx k } }
      match w.chan with
      | some c => queueRoomFound c t
      | none => t

/-- Latch every queue (R295). -/
def sampleAll (s : State) : State := (busyQueues s).foldl (fun u q => sampleQueue q u) s

/-! ### Credit -/

/-- The blind grants outstanding to the senders of a group. -/
def groupGrants (g : Nat) (s : State) : Nat :=
  (s.sched.creditRx.filter fun p => p.1 / 32 == g).foldl (fun a p => a + p.2.grant) 0

/-- Every blind grant outstanding. -/
def allGrants (s : State) : Nat := s.sched.creditRx.foldl (fun a p => a + p.2.grant) 0

/-- The space of the store that no grant covers, and of the group's quota (R291). -/
def grantSpace (g : Nat) (s : State) : Nat :=
  min (4 * gib - heldTotal s - allGrants s) ((getGroup g s).quotaMib * mib - heldBytes g s - groupGrants g s)

/-- The grant a sender is raised toward (R291). -/
def grantTarget (g : Nat) (s : State) : Nat :=
  let x := getGroup g s
  min (getN O.CR_WINDOW_MIB s * mib) (x.quotaMib * mib / (x.n - 1))

/-- The outstanding blind grant of a sender grows. -/
def addGrant (g site n : Nat) (s : State) : State :=
  setCreditRx g site { getCreditRx g site s with grant := (getCreditRx g site s).grant + n } s

/-- What the grant of a sender lacks of the target. -/
def grantLack (g site : Nat) (s : State) : Nat := grantTarget g s - (getCreditRx g site s).grant

/-- Steps of 1 MiB to the senders of a group in turn while the space lasts; a step it does not allow raises COLL_ORDER_STALL (R291, R292). -/
def grantSteps (g : Nat) : Nat → State → State
  | 0, s => s
  | fuel + 1, s =>
    let x := getGroup g s
    match nextInTurn (smGet (fun _ => 31) g s.sched.grantRr) ((x.others (selfSite s)).filter fun d => grantLack g d s != 0) with
    | none => s
    | some d =>
      let step := min mib (grantLack g d s)
      if step ≤ grantSpace g s then
        grantSteps g fuel (addGrant g d step { s with sched := { s.sched with grantRr := smPut (fun _ => 31) g d s.sched.grantRr } })
      else
        let seq := match s.coll.held.find? fun h => h.group == g with
          | some h => h.seq
          | none => (match x.maxSeq with | some m => m + 1 | none => 0)
        orderStall g seq x.epoch s

/-- Raise the blind grants of a group: each to its target when the space covers what all its senders lack, else by steps (R291). -/
def raiseGrants (g : Nat) (s : State) : State :=
  let ds := (getGroup g s).others (selfSite s)
  let space := grantSpace g s
  if (ds.map fun d => grantLack g d s).sum ≤ space then ds.foldl (fun u d => addGrant g d (grantLack g d u) u) s
  else grantSteps g (space / mib + 64) s

/-- The CREDIT message to one sender (R289, Table 10.5). -/
def creditMsg (g site : Nat) (s : State) : CtlMsg :=
  let x := getGroup g s
  let r := getCreditRx g site s
  .credit (ctlTo g site 0 s) (x.maxSeq.getD 0) ((r.rxPosted + getN O.CR_WINDOW_MIB s * mib) % w48) ((r.rxBlind + r.grant) % w48)

/-- The receiver sends CREDIT (R289); only while the group is OPEN, to another member. -/
def sendCredit (g site : Nat) (s : State) : State :=
  let x := getGroup g s
  if x.gstate ≠ 2 ∨ relayOnly g s ∨ !bitOf x.members site ∨ site = selfSite s then s
  else
    let t := raiseGrants g s
    sendCtl (creditMsg g site t) t

/-- A CREDIT is received (R289, R290): one of another epoch is ignored. -/
def takeCredit (h : CtlHdr) (seq posted blind : Nat) (s : State) : State :=
  let x := getGroup h.group s
  if !x.isOpen || relayOnly h.group s || h.epoch != x.epoch || !bitOf x.members h.src then s
  else
    let c := getCreditTx h.group h.src s
    setCreditTx h.group h.src { c with heard := true, postedSeq := seq, postedLimit := posted % w48, blindLimit := blind % w48 } s

/-- A control message for this site arrives in a frame: MTYPE says what it is (R115). -/
def ctlArrive (m : CtlMsg) (s : State) : State :=
  match m with
  | .hello h b => takeHello h b s
  | .epochAdv h c => takeEpochAdv h c s
  | .epochAck h n es => takeEpochAck h n es s
  | .credit h seq p b => takeCredit h seq p b s
  | .confirm _ _ | .chunkReq _ _ _ | .cancel _ | .endStatus _ _ _ => collCtlArrive m s

/-! ### Tenant Ethernet (R456) -/

/-- The entries of LF_ETH_CLASS (Table 17.3). -/
def ethEntries (s : State) : List Nat :=
  let bs := getB O.LF_ETH_CLASS s
  (List.range (bs.length / 4)).map fun i => natOfLE ((bs.drop (4 * i)).take 4)

/-- The VLAN ID of a tagged frame. -/
def frameVlan (f : List Byte) : Option Nat :=
  if natOfBE ((f.drop 12).take 2) = 0x8100 then some (natOfBE ((f.drop 14).take 2) % 4096) else none

/-- The entry that matches a frame. -/
def ethMatch (f : List Byte) (s : State) : Option Nat :=
  match frameVlan f with
  | some v => (ethEntries s).find? fun e => field e 31 20 == v
  | none => none

/-- The ETH segment of a tenant frame. -/
def ethSegment (tenant port cls : Nat) (f : List Byte) (s : State) : Segment :=
  { segZero with
    kind := kEth, sc := cls, job := tenant, src := selfSite s,
    dst := (match (getPort port s).farSite with | some x => x.1 | none => freeAt 46 s % 256), group := 0xFFFF, data := f }

/-- A tenant frame from the local fabric: classified, policed, and queued in SC5 or SC7, or dropped (R286, R456). -/
def tenantFrame (f : List Byte) (s : State) : State :=
  match ethMatch f s with
  | none => addN O.LF_ETH_DROPS 1 s
  | some e =>
    if 8048 < f.length then addN O.LF_ETH_DROPS 1 s
    else
      let tenant := field e 19 14
      let port := field e 12 11
      let cls := if bitOf e 13 then 7 else 5
      match police tenant port f.length s with
      | (false, t) => t
      | (true, t) => (enqueueSeg cls port tenant { seg := ethSegment tenant port cls f t } none t).2

end Sys2Proof.Machine
end

