-- ==== Sys2Proof/Machine/FrameTx.lean ====
section
/-! DEFINITION. A carrier begins a frame (R279, R298 to R310, R348), and the commit groups whose boundary it is (Table 2.8). -/

namespace Sys2Proof.Machine

/-- The commit groups of a carrier's configuration are 0x21 to 0x28; 0x2D and 0x88 wait for every carrier that sends. -/
def frameGroups (s : State) : List Nat := (cgIds.filter fun id => cgBoundary id == 1 && (getCg id s).cgState == 2)

/-- A carrier has begun its first frame since the group was armed: the group applies to it, and when no carrier is left
waiting the group is CLEAN (R64, Table 2.8). -/
def frameBoundary (c : Nat) (s : State) : State :=
  (frameGroups s).foldl (fun u id =>
    let g := getCg id u
    if g.waitCarriers.contains c then
      let w := g.waitCarriers.filter fun d => d != c && carSends d u
      if w.isEmpty then cgDone id u else setCg id { g with waitCarriers := w } u
    else u) s

/-- Whether a carrier sends PROBE frames now (R302, R352, R366). -/
def sendsProbe (c : Nat) (key : Option Nat) (s : State) : Bool :=
  let x := getCar c s
  inMarginTest x || key.isNone || x.probeOnly

/-- The segments that fit the next frame of a carrier, taken from those its port's scheduler picks (R279). Only a carrier in
LP_ACTIVE of a port whose far end is a peer carries segments (R17, R271). -/
def frameSegs (c : Nat) (port : Option Nat) (data : Bool) (s : State) : List TxSeg × State :=
  match port with
  | some n =>
    if data && carInActive c s && portPeer n s then
      let t := fillPicked n 128 s
      let (now, rest) := fitSegs 0 (getPicked n t)
      (now, setPicked n rest t)
    else ([], s)
  | none => ([], s)

/-- The carrier has sent under the new slot of a change (R362 t4). -/
def sentUnder (n c : Nat) (slot : Nat) (s : State) : State :=
  let p := getPort n s
  if switching p && slot == p.changeTo then
    checkSwitched n (setPort n { p with toSwitch := p.toSwitch.filter (· != c) } s)
  else s

/-- A body leaves the framer: what fills FEC blocks leaves the encoder (R326). A transmitter's first frame begins its first block. -/
def encodeBody (c : Nat) (first : Bool) (body : List Byte) (s : State) : State :=
  let r := fecFill 2 ((if first then [] else (getCar c s).fecTx) ++ body)
  r.1.foldl (fun u b => emit (.fecBlock c (fecEncode b)) u) (modCar c (fun y => { y with fecTx := r.2 }) (emit (.frame c body) s))

/-- A Z4 carrier in service sends the next segment its port's scheduler picks as a plain Ethernet frame (R274, R374, log entry 166). -/
def z4Start (c : Nat) (s : State) : State :=
  match portOfCar c s with
  | none => s
  | some n =>
    if !carInActive c s then s
    else
      let t := if (getPicked n s).isEmpty then schedSelect n s else s
      match getPicked n t with
      | [] => t
      | x :: rest =>
        let u := releaseSeg x (setPicked n rest t)
        if x.seg.kind = kEth then emit (.z4Frame c x.seg.data) u else addN (O.LP_CLASS_DROPS + n) 1 u

/-- A frame begins on a carrier that sends frames. -/
def frameStart (c : Nat) (s0 : State) : State :=
  if (getCar c s0).runMode = modeZ4 then z4Start c s0
  else if !carSends c s0 then s0
  else
    let s := frameBoundary c s0
    let port := portOfCar c s
    let dep := timeBase s + 220 * 65536
    let key := match port with | some n => txKeyNow (getPort n s) dep | none => none
    let data := !sendsProbe c key s
    let slot := if data then key.getD 0 else 0
    let (segs, s1) := frameSegs c port data s
    let due := (getCar c s1).test.msgDue
    let msg := (getCar c s1).test.msg
    let (ctrl, s2) := takeCtrl c port data s1
    let x := getCar c s2
    let n := port.getD 0
    let sw := match port with | some k => swTx k s2 | none => 0
    let header := headerBytes x.fseq c (if data then 1 else 2) slot
    let stamp := (dep + stampLate c s2) % w48
    let overh := overheadBytes sw stamp (x.refl.getD 0) x.lastBip (defind x s2) ctrl
    let ks := if data then some ((getPort n s2).txSlot slot) else none
    let body := frameBody header overh (payloadBytes segs) ks n c x.fseq x.lastDep
    let s3 := if data && !segs.isEmpty then segs.foldl (fun u y => releaseSeg y u) (keepFrame n c x.fseq segs s2) else s2
    let s4 := modCar c (fun y => { y with
      fseq := (y.fseq + 1) % w48, lastDep := stamp, firstFrame := false, lastBip := bip32 body, txSlot := slot,
      ledger := { y.ledger with framesTx := y.ledger.framesTx + 1 } }) s3
    let s5 := encodeBody c x.firstFrame body (if x.firstFrame then freeNext s4 else s4)
    let s6 := if data then sentUnder n c slot (countKeyFrame n s5) else s5
    let sent := due && !(getCar c s2).test.msgDue
    let s7 := match msg with | some m => if sent then marginLeft c m s6 else s6 | none => s6
    settle s7

/-- FRAME_START (R279). -/
def execFrameStart (c : Fin 8) (s : State) : Host.Outcome State Fault Refusal := .next (frameStart c.val s)

/-- IDENT_SEND (R310): the carrier's IDENT is due in one of its next frames. -/
def execIdentSend (c : Fin 8) (s : State) : Host.Outcome State Fault Refusal :=
  .next (if carSends c.val s then modCar c.val (fun x => { x with identDue := true }) s else s)

end Sys2Proof.Machine
end

