-- ==== Sys2Proof/Machine/FrameRx.lean ====
section
/-! DEFINITION. What a carrier receives: the outcome of each frame position and what follows from it (R302 to R321, R349, R355,
R363, R392, R410), and the commands of alignment, defects, FEC and loss reports. -/

namespace Sys2Proof.Machine

/-! ### The parts of a frame -/

/-- A received frame after descrambling: header, overhead, payload and tag (Table 11.2). -/
structure RxFrame where
  header : List Byte
  overh : List Byte
  payload : List Byte
  tag : List Byte
  deriving DecidableEq, Repr

/-- The parts of a body. -/
def rxFrame (body : List Byte) : RxFrame :=
  let w := body.take 16
  let tail := scramble (hdrCar w) (hdrFseq w) (body.drop 64)
  ⟨w, (body.drop 16).take 48, tail.take 8112, tail.drop 8112⟩

/-- The fields of the overhead (Table 11.5). -/
def RxFrame.switchV (f : RxFrame) : Nat := natOfBE (f.overh.take 2)
def RxFrame.stamp (f : RxFrame) : Nat := natOfBE ((f.overh.drop 2).take 6)
def RxFrame.refl (f : RxFrame) : Nat := natOfBE ((f.overh.drop 8).take 6)
def RxFrame.bip (f : RxFrame) : Nat := natOfBE ((f.overh.drop 14).take 4)
def RxFrame.defind (f : RxFrame) : Nat := natOfBE ((f.overh.drop 18).take 2)
def RxFrame.ctrl (f : RxFrame) : List Byte := (f.overh.drop 20).take 16

/-- Whether a frame is a DATA frame. -/
def RxFrame.isData (f : RxFrame) : Bool := hdrType f.header == 1

/-- A header is good in SYNC (R312). -/
def headerGood (x : Carrier) (f : RxFrame) : Bool :=
  headerFits f.header && hdrFseq f.header == x.expFseq && hdrCar f.header == x.rxCar

/-- The receive constant of a mode in units of 2⁻¹⁶ ns (Table 15.4). -/
def rxConst (mode : Nat) : Nat := (match mode with | 4 => 1056 | 3 => 1256 | 2 => 1656 | _ => 2976) * 65536

/-- The arrival stamp of a frame received now (R409). -/
def arrivalStamp (x : Carrier) (s : State) : Nat := (timeBase s + w48 - rxConst x.runMode % w48) % w48

/-- The payload in clear and whether the tag fits (R348, R349): nothing without a key, without the sender's line port, or without
the stamp of the frame before. -/
def decryptFrame (n : Nat) (x : Carrier) (f : RxFrame) (s : State) : Option (List Byte × Bool) :=
  let k := (getPort n s).rxSlot (hdrKey f.header)
  match x.prevStamp, x.ident with
  | some st, some i =>
    if k.kstate = 0 then none
    else
      let iv := frameIv k.salt i.port (hdrCar f.header) (hdrFseq f.header)
      let tag := gcmTag k.key iv (frameAad f.header f.overh st) f.payload
      some (gcmCrypt k.key iv f.payload, tag == f.tag)
  | _, _ => none

/-- The outcomes of R314. -/
inductive RxOutcome where
  | uncorr | badHdr | prevMissing | authFail | good
  deriving DecidableEq, Repr

/-- The first outcome that applies. -/
def rxOutcome (uncorr : Bool) (x : Carrier) (f : RxFrame) (clear : Option (List Byte × Bool)) : RxOutcome :=
  if uncorr then .uncorr
  else if !headerGood x f then .badHdr
  else if !f.isData then .good
  else if x.prevStamp.isNone then .prevMissing
  else match clear with
    | some (_, true) => .good
    | _ => .authFail

/-! ### Segments (R18, R316, R456) -/

/-- An ETH segment for this site: out on the tenant's egress port, if that is UP (R456). -/
def ethArrive (g : Segment) (s : State) : State :=
  let k := getN (O.LF_TENANT_EGRESS + g.job) s
  if (getFab k s).lst = 2 then fabSend ⟨k, false, clsData, .ethOut k g.data⟩ s else addN O.LF_ETH_DROPS 1 s

/-- A segment of a received frame. What is for another site is relayed, from a good frame only. In-band management ends at
the site: the spec gives no way from it to a session (log entry 68). -/
def segArrive (n : Nat) (dnt : Bool) (g : Segment) (s : State) : State :=
  if g.dst ≠ selfSite s then (if dnt then s else relaySegment n g s)
  else if g.kind = kColl then collArrive n g dnt s
  else if g.kind = kXfer then (if refillTransfer g s then s else xferArrive n g dnt s)
  else if dnt then s
  else if g.kind = kCtrl then (match ctlOfBytes g.data with | some m => ctlArrive m s | none => s)
  else if g.kind = kEth then ethArrive g s
  else s

/-- Whether a port's segments are discarded: the protecting port of a pair under LOCKOUT (R444). -/
def lockedOut (n : Nat) (s : State) : Bool :=
  match pairOf n s with
  | some (k, m) => n == m && [k, m].any fun j => (getPort j s).lockoutCmd || (getPort j s).lockoutFar
  | none => false

/-- Byte `o` of a segment's data came poisoned out of an island FIFO: the word of the crate it landed in is poisoned (R236). -/
def poisonLanded (g : Segment) (o : Nat) (s : State) : State :=
  match findColl g.group g.seq g.epoch s with
  | none => s
  | some c =>
    if c.landsInList then match readList c.posting.outList s with
      | some l =>
        let b := (c.range g.chunk).1 + g.offset + o
        writeListBytes l.entries b ((readListBytes s l.entries b 1).map fun x => (x.1, true)) s
      | none => s
    else match c.sourceOf (getGroup c.group s) (selfSite s) g with
      | none => s
      | some src =>
        match (c.item g.chunk src).pieces.find? fun p => decide (p.offset ≤ g.offset + o) && decide (g.offset + o < p.offset + p.data.length) with
        | some p => match p.handles with
          | [h] => writeCrate h (g.offset + o - p.offset) ((readCrate h (g.offset + o - p.offset) 1 s).map fun x => (x.1, true)) s
          | _ => s
        | none => s

/-- The places of a payload's segments, as `parsePayload` takes them. -/
def segPlaces : Nat → Nat → List Byte → List Nat
  | 0, _, _ => []
  | fuel + 1, o, bs =>
    let h := bs.take 64
    let kind := natOfBE (h.take 1)
    let len := natOfBE ((h.drop 6).take 2)
    if bs.length < 64 ∨ kind = 0 ∨ natOfBE (h.drop 60) ≠ crc32c (h.take 60) ∨ len < 64 ∨ bs.length < len then []
    else
      let n := (len + 7) / 8 * 8
      let r := segPlaces fuel (o + n) (bs.drop n)
      if 5 < kind then r else o :: r

/-- The segments of a payload, of which some 64-byte words came poisoned out of an island FIFO, arrive: one whose header is poisoned cannot
be delivered, and the rest of it is dropped (R244); poison of its data goes with it (R236). -/
def takeSegments (n : Nat) (dnt : Bool) (poisoned : List Nat) (payload : List Byte) (segs : List Segment) (s : State) : State :=
  if poisoned.isEmpty then segs.foldl (fun u g => segArrive n dnt g u) s
  else ((segPlaces 127 0 payload).zip segs).foldl (fun u p =>
    if poisoned.any fun w => decide (64 * w < p.1 + 64) && decide (p.1 < 64 * w + 64) then addN O.FIFO_DROPS 1 u
    else
      let hit := poisoned.filter fun w => decide (p.1 + 64 < 64 * w + 64) && decide (64 * w < p.1 + segLen p.2)
      hit.foldl (fun v w => (List.range 8).foldl (fun x i =>
        let b := 64 * w + 8 * i
        if p.1 + 64 ≤ b ∧ b < p.1 + segLen p.2 then poisonLanded p.2 (b - p.1 - 64) x else x) v) (segArrive n dnt p.2 u)) s

/-- The segments of a payload (R316): a malformed one of an authenticated frame is logged. -/
def takePayload (c n : Nat) (dnt : Bool) (fseq : Nat) (payload : List Byte) (poisoned : List Nat) (s : State) : State :=
  if !portPeer n s || lockedOut n s then s
  else
    let p := parsePayload 127 payload
    let s1 := modLedger c (fun l => { l with
      segsRx := l.segsRx + (if dnt then 0 else p.segs.length), segsBad := l.segsBad + p.bad }) s
    let s2 := if p.malformed && !dnt then logEvent 0x2105 (c * 2 ^ 56 + fseq) s1 else s1
    takeSegments n dnt poisoned payload p.segs s2

/-! ### The control lane (R310) -/

/-- The message of a frame; only IDENT and MARGIN are taken from PROBE (R302). -/
def takeLane (c : Nat) (data : Bool) (bs : List Byte) (s : State) : State :=
  let f (i n : Nat) : Nat := natOfBE ((bs.drop i).take n)
  let onPort (h : Nat → State → State) (t : State) : State := match portOfCar c t with | some n => h n t | none => t
  let ty := f 0 1
  if ty = 0 then s
  else if ty = 1 then takeIdent c ⟨f 1 1, f 2 2, f 4 1, f 5 1, f 6 1⟩ (laneCount c s)
  else if ty = 4 then
    let m : MarginMsg := ⟨f 1 1, f 2 1, f 3 1, f 4 1, toSigned 16 (f 5 2), toSigned 16 (f 7 2), f 9 2, bitOf (f 11 1) 0, bitOf (f 11 1) 1⟩
    takeMargin c m (laneCount c s)
  else if !data then s
  else if ty = 2 then takeReport c ⟨f 1 1 / 32, bitOf (f 1 1) 4, f 2 6, f 8 8⟩ (f 1 1 % 16 == 0) s
  else if ty = 3 then onPort (fun n u => takeKey n ⟨f 1 1, f 2 1, f 3 4, f 7 6, f 13 1⟩ u) (laneCount c s)
  else if ty = 5 then
    let m : CrierMsg := ⟨f 1 1, f 2 1, f 3 2, f 5 1, f 6 2⟩
    let t := laneCount c s
    if m.clType = 1 then takePromoted c m t else if m.clType = 2 then takePromotedAck c t else t
  else logLimited 1 (markKey 0x2104 c) 0x2104 (c * 2 ^ 56 + ty) (modLedger c (fun l => { l with clUnknown := l.clUnknown + 1 }) s)

/-! ### Filters (R318) -/

/-- One more good frame with a value. -/
def Persist.step (p : Persist) (v : Nat) : Persist := if p.count ≠ 0 ∧ p.val = v then { p with count := p.count + 1 } else ⟨v, 1⟩

/-- SWITCH of a good DATA frame. -/
def filterSwitch (c n v : Nat) (s : State) : State :=
  let x := getCar c s
  let p := x.swRun.step v
  let k := getN O.SW_PERSIST s
  if p.count = k ∨ (k < p.count ∧ x.swAcc ≠ v) then
    let t := setN (O.SW_RX + c) v (setCar c { x with swRun := p, swAcc := v } s)
    if x.reported % 32 = 0 then switchAccepted n c v t else t
  else setCar c { x with swRun := p } s

/-- RDI and RDEG of a good DATA frame; RDI is not counted while a lower defect is raw (R320). -/
def filterRdi (c d : Nat) (s : State) : State :=
  let x := getCar c s
  let k := getN O.RDI_PERSIST s
  let rdi := ofBool (bitOf d 15)
  let p := if x.raw % 2 ^ dRdi = 0 then x.rdiRun.step rdi else {}
  let q := x.rdegRun.step (ofBool (bitOf d 11))
  let t := setCar c { x with rdiRun := p, rdegRun := q, rdeg := if k ≤ q.count then bitOf d 11 else x.rdeg } s
  if k ≤ p.count then setRaw c dRdi (rdi == 1) t else t

/-- DRAINING of a good DATA frame (R392 t1). -/
def filterDraining (c d : Nat) (s : State) : State :=
  let x := getCar c s
  let k := if bitOf d 8 then x.farDrainRun + 1 else 0
  let t := setCar c { x with farDrainRun := k } s
  if x.drainReason != 0 && decide (getN O.RDI_PERSIST s ≤ k) then drainComplete c t else t

/-- A frame that is lost, or a PROBE, restarts the filters (R318). -/
def restartFilters (c : Nat) (s : State) : State :=
  modCar c (fun x => { x with swRun := {}, rdiRun := {}, rdegRun := {}, farDrainRun := 0 }) s

/-! ### Defects of frames (R319) -/

/-- One frame position for FECF; when it clears while the aligner is in SYNC, the open range ends (R340, log entry 69). -/
def fecfPosition (c : Nat) (uncorr : Bool) (s : State) : State :=
  let x := getCar c s
  if x.raw % 2 ^ dFecf ≠ 0 then s
  else
    let w := (uncorr :: x.fecfWin).take 8
    let run := if uncorr then 0 else x.fecfRun + 1
    let t := setCar c { x with fecfWin := w, fecfRun := run } s
    if getN O.FECF_SET_N s ≤ (w.filter id).length then setRaw c dFecf true t
    else if bitOf x.raw dFecf && decide (64 ≤ run) then closeRange c x.expFseq (setRaw c dFecf false t)
    else t

/-- One DATA frame for AUTH. -/
def authFrame (c : Nat) (fail : Bool) (s : State) : State :=
  let x := getCar c s
  if x.raw % 2 ^ dAuth ≠ 0 then s
  else
    let w := (fail :: x.authWin).take 8
    let run := if fail then 0 else x.authRun + 1
    let t := setCar c { x with authWin := w, authRun := run } s
    if getN O.AUTH_SET_N s ≤ (w.filter id).length then setRaw c dAuth true t
    else if bitOf x.raw dAuth && decide (64 ≤ run) then setRaw c dAuth false t
    else t

/-! ### The frame position -/

/-- The BIP of two frames in a row with good headers (R308). -/
def compareBip (c : Nat) (x : Carrier) (f : RxFrame) (s : State) : State :=
  match x.prevBip with
  | some b =>
    let d := b ^^^ f.bip
    if d = 0 then s
    else modLedger c (fun l => { l with bipBlocks := l.bipBlocks + 1, bipBits := l.bipBits + (bitsSet 32 d).length }) s
  | none => s

/-- The stamp of the frame before is verified: its reflection, and a sample of two-way transfer if it carried one (R306,
R307, R410). -/
def verifyPrev (c : Nat) (x : Carrier) (s : State) : State :=
  match x.prevStamp with
  | some t1 =>
    let d := (x.prevArrival + w48 - t1 % w48) % w48
    let s1 := modCar c (fun y => { y with refl := some d }) s
    (match x.prevRefl with
    | some f => ttSample c (toSigned 48 f) (toSigned 48 d) (toSigned 48 ((f + d) % w48)) x.prevStampValid s1
    | none => s1)
  | none => s

/-- What the receiver keeps of a frame position for the next one. -/
def keepPosition (c : Nat) (f : RxFrame) (body : List Byte) (good : Bool) (s : State) : State :=
  let x := getCar c s
  if headerGood x f then
    let refl := if good && f.isData && bitOf f.defind 10 then some f.refl else none
    setCar c { x with
      expFseq := (x.expFseq + 1) % w48, badCount := 0, prevStamp := some f.stamp, prevArrival := arrivalStamp x s,
      prevBip := some (bip32 body), prevRefl := refl, prevStampValid := bitOf f.defind 9 } s
  else
    setCar c { x with
      expFseq := (x.expFseq + 1) % w48, badCount := x.badCount + 1, prevStamp := none, prevBip := none, prevRefl := none } s

/-- FA_LOSS_N bad headers in a row: the aligner hunts, and LOF is raw (Table 11.10). -/
def settleAligner (c : Nat) (s : State) : State :=
  if getN O.FA_LOSS_N s ≤ (getCar c s).badCount then defectFollow c (setRaw c dLof true (alignerHunt c s)) else s

/-- A good DATA frame of a port. -/
def goodData (c n : Nat) (f : RxFrame) (payload : List Byte) (poisoned : List Nat) (x : Carrier) (s : State) : State :=
  let s1 := verifyPrev c x (rxSlotUsed n (hdrKey f.header) s)
  let s2 := filterDraining c f.defind (filterRdi c f.defind (filterSwitch c n f.switchV s1))
  takePayload c n false (hdrFseq f.header) payload poisoned (takeLane c true f.ctrl s2)

/-- A PROBE frame: counted, and outside LP_ACTIVE its IDENT and MARGIN are taken (R302). -/
def goodProbe (c : Nat) (f : RxFrame) (s : State) : State :=
  let s1 := restartFilters c (modLedger c (fun l => { l with probeRx := l.probeRx + 1 }) s)
  if carInActive c s1 then s1 else takeLane c false f.ctrl s1

/-- A lost frame: counted by its outcome, reported, and what it held of segments marked (R314, R339). -/
def lostFrame (c : Nat) (o : RxOutcome) (x : Carrier) (f : RxFrame) (clear : Option (List Byte × Bool)) (poisoned : List Nat) (s : State) : State :=
  let s1 := modLedger c (fun l => match o with
    | .uncorr => { l with uncorr := l.uncorr + 1 }
    | .badHdr => { l with badHdr := l.badHdr + 1 }
    | .prevMissing => { l with prevMissing := l.prevMissing + 1 }
    | _ => { l with authFail := l.authFail + 1 }) (restartFilters c s)
  match portOfCar c s1 with
  | none => s1
  | some n =>
    let s2 := match clear with
      | some (bs, _) => if headerGood x f && f.isData then takePayload c n true (hdrFseq f.header) bs poisoned s1 else s1
      | none => s1
    lossDetermined n x.rxCar x.expFseq 0 s2

/-- A DATA frame that names an EMPTY receive slot is counted (Table 13.9). -/
def noteNoSlot (n : Nat) (x : Carrier) (f : RxFrame) (s : State) : State :=
  if headerGood x f && f.isData && ((getPort n s).rxSlot (hdrKey f.header)).kstate == 0 then addN (O.KEY_NO_SLOT + n) 1 s else s

/-- A frame position of a carrier in SYNC ends (R314). -/
def frameReceived (c : Nat) (body : List Byte) (uncorr : Bool) (poisoned : List Nat) (s : State) : State :=
  let x := getCar c s
  if x.fa ≠ 2 then s
  else
    let f := rxFrame body
    let port := portOfCar c s
    let clear := match port with
      | some n => if headerGood x f && f.isData then decryptFrame n x f s else none
      | none => none
    let o := rxOutcome uncorr x f clear
    let s1 := keepPosition c f body (o == .good) (if headerGood x f then compareBip c x f s else s)
    let s2 := fecfPosition c uncorr (match port with | some n => noteNoSlot n x f s1 | none => s1)
    let s3 := if o == .authFail || (o == .good && f.isData) then authFrame c (o == .authFail) s2 else s2
    let s4 := if o == .good then
        let t := modCar c (fun y => { y with lastGood := some x.expFseq }) s3
        if !f.isData then goodProbe c f t
        else
          let u := modLedger c (fun l => { l with rxGood := l.rxGood + 1 }) t
          match port, clear with
          | some n, some (bs, _) => goodData c n f bs poisoned x u
          | _, _ => u
      else lostFrame c o x f clear poisoned s3
    settle (settleAligner c (lineSettle s4))

/-! ### Commands -/

/-- ALIGNER_WINDOW (R312). -/
def execAlignerWindow (c : Fin 8) (offset : Nat) (window : List Byte) (s : State) : Host.Outcome State Fault Refusal :=
  .next (settle (alignWindow c.val offset window s))

/-- FRAME_RECEIVED (R314). -/
def execFrameReceived (c : Fin 8) (body : FifoBytes) (uncorr : Bool) (s : State) : Host.Outcome State Fault Refusal :=
  .next (frameReceived c.val body.bytes uncorr body.poisoned s)

/-- IDENT (R17). -/
def execIdent (c : Fin 8) (i : IdentInfo) (s : State) : Host.Outcome State Fault Refusal :=
  .next (settle (takeIdent c.val i (laneCount c.val s)))

/-- LOS_DECLARE (R319). -/
def execLosDeclare (c : Fin 8) (s : State) : Host.Outcome State Fault Refusal := .next (settle (losDeclared c.val s))

/-- LOS_CLEAR (R319). -/
def execLosClear (c : Fin 8) (s : State) : Host.Outcome State Fault Refusal := .next (settle (losCleared c.val s))

/-- LOCK_LOST (R319). -/
def execLockLost (c : Fin 8) (s : State) : Host.Outcome State Fault Refusal := .next (settle (lockLost c.val s))

/-- LOCK_CLEAR (R319). -/
def execLockClear (c : Fin 8) (s : State) : Host.Outcome State Fault Refusal := .next (settle (lockCleared c.val s))

/-- DEG_INTERVAL (R329). -/
def execDegInterval (c : Fin 8) (s : State) : Host.Outcome State Fault Refusal := .next (settle (degInterval c.val s))

/-- FEC_BLOCK (R326, R329): the decoded information symbols of the inner codewords, and what the decoder reports. -/
def execFecBlock (c : Fin 8) (b : FecDecoded) (corr bits : Nat) (s : State) : Host.Outcome State Fault Refusal :=
  .next (settle (fecBlock c.val b.inner b.uncorr corr bits s))

/-- LOSS_REPORT_REPEAT (R339). -/
def execLossReportRepeat (port : Fin 4) (s : State) : Host.Outcome State Fault Refusal := .next (lossAgain port.val s)

/-- OPEN_RANGE_REPEAT (R340). -/
def execOpenRangeRepeat (c : Fin 8) (s : State) : Host.Outcome State Fault Refusal := .next (openAgain c.val s)

/-- LOSS_REPORT (R341). -/
def execLossReport (c : Fin 8) (r : LossReport) (s : State) : Host.Outcome State Fault Refusal := .next (takeReport c.val r true s)

/-- RESEND_HOLD_EXPIRY (R335). -/
def execResendHoldExpiry (port : Fin 4) (s : State) : Host.Outcome State Fault Refusal := .next (releaseAged port.val s)

end Sys2Proof.Machine
end

