-- ==== Sys2Proof/Machine/HostSide.lean ====
section
/-! DEFINITION. The commands of the host interface (R464 to R469, R472). -/

namespace Sys2Proof.Machine

/-- MB_DOORBELL (R466). -/
def execMbDoorbell (fn : Fin 256) (length : Nat) (s : State) : Host.Outcome State Fault Refusal := .next (doorbell fn.val length s)

/-- RESP_ACK (R466). -/
def execRespAck (fn : Fin 256) (value : Nat) (s : State) : Host.Outcome State Fault Refusal := .next (ackResp fn.val value s)

/-- NOTE_ACK (R466). -/
def execNoteAck (fn : Fin 256) (value : Nat) (s : State) : Host.Outcome State Fault Refusal := .next (ackNote fn.val value s)

/-- SUB_TAIL (R467). -/
def execSubTail (fn : Fin 256) (ring : Fin 32) (value : Nat) (s : State) : Host.Outcome State Fault Refusal :=
  .next (putSubTail fn.val ring.val value s)

/-- COMP_HEAD (R467). -/
def execCompHead (fn : Fin 256) (ring : Fin 32) (value : Nat) (s : State) : Host.Outcome State Fault Refusal :=
  .next (putCompHead fn.val ring.val value s)

/-- RING_CTRL (R467). -/
def execRingCtrl (fn : Fin 256) (ring : Fin 32) (value : Nat) (s : State) : Host.Outcome State Fault Refusal :=
  .next (putRingCtrl fn.val ring.val value s)

/-- REGISTER_WRITE (R467). -/
def execRegisterWrite (fn : Fin 256) (offset : Nat) (value : Nat) (s : State) : Host.Outcome State Fault Refusal :=
  .next (barWrite fn.val offset value s)

/-- JOB_COMPLETION (R469). -/
def execJobCompletion (fn : Fin 256) (ring : Fin 32) (xend : Option XferEnd) (s : State) : Host.Outcome State Fault Refusal :=
  .next (jobCompletes fn.val ring.val xend s)

/-- PORTER_JOB_START (R468). -/
def execPorterJobStart (src : JobSrc) (host : Bool) (addr : Nat) (reservedZero : Bool) (s : State) : Host.Outcome State Fault Refusal :=
  .next (settle (porterStart src host addr reservedZero s))

/-- TALLY_JOB_ALLOC (R163). -/
def execTallyJobAlloc (src : JobSrc) (j : Nat) (reservedZero : Bool) (s : State) : Host.Outcome State Fault Refusal :=
  .next (tallyAllocJob src j reservedZero s)

/-- TALLY_JOB_FREE (R164). -/
def execTallyJobFree (src : JobSrc) (base : Nat) (reservedZero : Bool) (s : State) : Host.Outcome State Fault Refusal :=
  .next (settle (tallyFreeJob src base reservedZero s))

/-- TALLY_JOB_ADD (R468). -/
def execTallyJobAdd (src : JobSrc) (tally value : Nat) (reservedZero : Bool) (s : State) : Host.Outcome State Fault Refusal :=
  .next (settle (tallyOpJob src tally reservedZero (getTally tally s).count (engineAdd tally value) s))

/-- TALLY_JOB_RESET (R468). -/
def execTallyJobReset (src : JobSrc) (tally : Nat) (reservedZero : Bool) (s : State) : Host.Outcome State Fault Refusal :=
  .next (settle (freeNext (tallyOpJob src tally reservedZero (openResult s) (tallyReset tally) s)))

/-- PLACE_JOB_START (R468). -/
def execPlaceJobStart (src : JobSrc) (e : PlaceEntry) (d : HostRead) (s : State) : Host.Outcome State Fault Refusal :=
  .next (settle (placeStart src e d s))

/-- XFER_SEND (R469). -/
def execXferSend (src : JobSrc) (e : XferEntry) (d : HostRead) (s : State) : Host.Outcome State Fault Refusal :=
  .next (xferSend src e d s)

/-- XFER_RECEIVE (R469). -/
def execXferReceive (src : JobSrc) (e : XferEntry) (d : HostRead) (s : State) : Host.Outcome State Fault Refusal :=
  .next (xferReceive src e d s)

/-- FUNCTION_LEVEL_RESET (R472). -/
def execFunctionLevelReset (fn : Fin 256) (s : State) : Host.Outcome State Fault Refusal := .next (functionReset fn.val s)

/-- PCIE_LINK_LOSS (R472). -/
def execPcieLinkLoss (s : State) : Host.Outcome State Fault Refusal := .next (linkLost s)

/-- SRIOV_VF_ENABLE (R464). -/
def execSriovVfEnable (count : Fin 65) (s : State) : Host.Outcome State Fault Refusal := .next (enableVfs count.val s)

/-- PCIE_LINK_UP (R464). -/
def execPcieLinkUp (gen width : Fin 256) (s : State) : Host.Outcome State Fault Refusal := .next (linkTrains gen.val width.val s)

end Sys2Proof.Machine
end

