-- ==== Sys2Proof/Machine/Matrix.lean ====
section
/-! DEFINITION. The meanings of the matrix instructions of a stall (Table 5.6, R150 to R153, R192 to R197, R211 to R217). -/

namespace Sys2Proof.Machine

/-- MOPA (R150 to R153, R192). -/
def execMopa (st : Fin 128) (o : WithErrs MatrixOp) (s : State) : Host.Outcome State Fault Refusal :=
  .next (eccStep st.val o.errs (mopaSpan st.val o.op s) (mopaStep st.val o.op) s)

/-- MST (R196). -/
def execMst (st : Fin 128) (o : MatrixOp) (s : State) : Host.Outcome State Fault Refusal :=
  .next (stallStep st.val (matrixMst st.val o) s)

/-- MLD. -/
def execMld (st : Fin 128) (o : WithErrs MatrixOp) (s : State) : Host.Outcome State Fault Refusal :=
  .next (eccStep st.val o.errs [(((getStall st.val s).rdS o.op.sa.val).v.toNat, 8192)] (stallStep st.val (matrixMld st.val o.op)) s)

/-- MZERO. -/
def execMzero (st : Fin 128) (o : MatrixOp) (s : State) : Host.Outcome State Fault Refusal :=
  .next (stallStep st.val (matrixMzero st.val o) s)

/-- XCFG (R152, R211). -/
def execXcfg (st : Fin 128) (o : WithErrs MatrixOp) (s : State) : Host.Outcome State Fault Refusal :=
  .next (eccStep st.val o.errs [(((getStall st.val s).rdS o.op.sa.val).v.toNat, 64)] (stallStep st.val (matrixXcfg st.val o.op)) s)

end Sys2Proof.Machine
end

