-- ==== Sys2Proof/Machine/MgmtOps.lean ====
section
/-! DEFINITION. PMBus (R471), the management port below ROP (R470), sensor readings (R532) and the pins that follow the state (R522,
R524, R529). -/

namespace Sys2Proof.Machine

/-! ### Sensors and pins -/

/-- Keep a junction reading (Table 20.15). -/
def setTj (k : Nat) (cc : Int) (s : State) : State := setI (O.TJ_CC + k) cc s

/-- Keep the readings of the sensors from `k` on. -/
def setTjs (k : Nat) (cs : List Int) (s : State) : State := (cs.zipIdx).foldl (fun u p => setTj (k + p.2) p.1 u) s

/-- The hottest of some readings. -/
def hottest : List Int → Int
  | [] => 0
  | c :: cs => cs.foldl max c

/-- ALERT_N is low while any flag is set (R522). -/
def alertLow (s : State) : Bool := getN O.EMERG_FLAGS s != 0

/-- FAULT_N is low in SAFE and HALT (Table 20.13). -/
def faultLow (s : State) : Bool := s.devState == .safe || s.devState == .halt

/-- THERM_N is low once a trip has been taken (R524). -/
def thermLow (s : State) : Bool := s.dev.trip.isSome

/-! ### PMBus (R471) -/

/-- An answer of the I²C target: it serves every state from AUX on. -/
def pmbus (o : Sent) (s : State) : State := if s.devState == .off then s else emit o s

/-- A LINEAR11 answer: a reading in thousandths, or 0x0000 where the value is not measured. -/
def pmbusLinear (cmd : Nat) (v : Option Int) (s : State) : State :=
  pmbus (.pmbusWord cmd (match v with | some x => Config.linear11 cmd x % 65536 | none => 0)) s

/-- STATUS_WORD for the 40 V input: INPUT (bit 13) and VIN_UV (bit 3) from the emergency flags; PMBus has further bits the spec
does not connect to a flag (log entry 73). -/
def statusWord (s : State) : Nat :=
  let uv := emergFlag 4 s || emergFlag 5 s
  let inp := uv || emergFlag 6 s || emergFlag 7 s
  let other := freeAt 73 s % 65536
  putBit (putBit other 13 inp) 3 uv

/-- READ_VIN. -/
def readVin (mv : Option Nat) (s : State) : State :=
  let t := match mv with | some v => setN O.VIN_MV v s | none => s
  if s.devState == .off then s else pmbusLinear 0x88 (mv.map Int.ofNat) t

/-- READ_IIN. -/
def readIin (ma : Option Nat) (s : State) : State :=
  let t := match ma with | some v => setN O.IIN_MA v s | none => s
  if s.devState == .off then s else pmbusLinear 0x89 (ma.map Int.ofNat) t

/-- READ_PIN. -/
def readPin (dw : Option Nat) (s : State) : State :=
  let t := match dw with | some v => setN O.PIN_DW v s | none => s
  if s.devState == .off then s else pmbusLinear 0x97 (dw.map fun v => (v * 100 : Nat)) t

/-- A temperature command: the hottest of the sensors from `k` on. -/
def readTemps (cmd k : Nat) (cs : List Int) (s : State) : State :=
  if s.devState == .off then s
  else pmbusLinear cmd (if cs.isEmpty then none else some (hottest cs * 10)) (setTjs k cs s)

/-! ### The management port below ROP (R470) -/

/-- Whether the management port is served (Table 2.4). -/
def mgmtServed (s : State) : Bool := sourceServed 0 s

/-- The port's IPv4 address, 0 for none. -/
def mgmtIpv4 (s : State) : Nat :=
  if bitOf (getN O.MGMT_IP_FLAGS s) 0 then (match s.host.dhcp4 with | some a => a / 2 ^ 32 | none => 0)
  else getN O.MGMT_IPV4 s / 2 ^ 32

/-- The port's IPv6 address, 0 for none. -/
def mgmtIpv6 (s : State) : Nat :=
  if bitOf (getN O.MGMT_IP_FLAGS s) 1 then (match s.host.slaac6 with | some a => a | none => 0)
  else natOfBE ((getB O.MGMT_IPV6 s).take 16)

/-- Whether an address is the port's. -/
def mgmtHas (v6 : Bool) (a : Nat) (s : State) : Bool := a != 0 && a == (if v6 then mgmtIpv6 s else mgmtIpv4 s)

/-- ARP or neighbour discovery: the port's own address is answered, everything else is discarded. -/
def mgmtResolve (v6 : Bool) (a : Nat) (s : State) : State :=
  if mgmtServed s && mgmtHas v6 a s then emit (.mgmtAddress v6 a (getN O.MGMT_MAC s % 2 ^ 48)) s else s

/-- ICMP echo. -/
def mgmtPing (v6 : Bool) (a : Nat) (data : List Byte) (s : State) : State :=
  if mgmtServed s && mgmtHas v6 a s then emit (.mgmtEcho v6 a data) s else s

/-- A DHCPv4 message: ACK (5) gives the address, NAK (6) takes it away. -/
def dhcpTaken (kind addr plen : Nat) (s : State) : State :=
  if !mgmtServed s || !bitOf (getN O.MGMT_IP_FLAGS s) 0 then s
  else
    let v : Option (Option Nat) := match kind with
      | 5 => some (some (addr % 2 ^ 32 * 2 ^ 32 + plen % 256))
      | 6 => some none
      | _ => none
    match v with
    | some d => { s with host := { s.host with dhcp4 := d } }
    | none => s

/-- A router advertisement: an autonomous prefix of 64 bits and the interface identifier form the address. -/
def routerTaken (prefix6 plen : Nat) (autonomous : Bool) (s : State) : State :=
  if !mgmtServed s || !bitOf (getN O.MGMT_IP_FLAGS s) 1 || !autonomous || plen != 64 then s
  else
    let a := prefix6 / 2 ^ 64 % 2 ^ 64 * 2 ^ 64 + Config.interfaceId (getN O.MGMT_MAC s) % 2 ^ 64
    { s with host := { s.host with slaac6 := some a } }

end Sys2Proof.Machine
end

