-- ==== Sys2Proof/Machine/Mgmt.lean ====
section
/-! DEFINITION. The commands of PMBus and of the management port below ROP (R470, R471), and the acknowledgements of the gateway's
RDMA WRITEs (R135). -/

namespace Sys2Proof.Machine

/-- RC_ACKNOWLEDGEMENT (R135): all that was written on a queue pair has landed; on a window data queue pair, its part of the return
stream (R459). -/
def execRcAcknowledgement (qp : Nat) (last : Bool) (s : State) : Host.Outcome State Fault Refusal :=
  .next (match findQp qp s with
    | some q => if q.service == 1 && last then returnAcked qp s else s
    | none => s)

/-- STATUS_WORD (R471). -/
def execStatusWord (s : State) : Host.Outcome State Fault Refusal :=
  .next (if s.devState == .off then s else freeNext (emit (.pmbusWord 0x79 (statusWord s)) s))

/-- READ_VIN (R471). -/
def execReadVin (mv : Option Nat) (s : State) : Host.Outcome State Fault Refusal := .next (readVin mv s)

/-- READ_IIN (R471). -/
def execReadIin (ma : Option Nat) (s : State) : Host.Outcome State Fault Refusal := .next (readIin ma s)

/-- READ_TEMPERATURE_1 (R471). -/
def execReadTemperature1 (cc : List Int) (s : State) : Host.Outcome State Fault Refusal := .next (readTemps 0x8D 0 (cc.take 4) s)

/-- READ_TEMPERATURE_2 (R471). -/
def execReadTemperature2 (cc : List Int) (s : State) : Host.Outcome State Fault Refusal := .next (readTemps 0x8E 12 (cc.take 6) s)

/-- READ_TEMPERATURE_3 (R471). -/
def execReadTemperature3 (cc : List Int) (s : State) : Host.Outcome State Fault Refusal := .next (readTemps 0x8F 4 (cc.take 8) s)

/-- READ_PIN (R471). -/
def execReadPin (dw : Option Nat) (s : State) : Host.Outcome State Fault Refusal := .next (readPin dw s)

/-- PMBUS_REVISION (R471). -/
def execPmbusRevision (s : State) : Host.Outcome State Fault Refusal := .next (pmbus (.pmbusByte 0x98 0x33) s)

/-- The bytes of an ASCII name. -/
def asciiBytes (cs : List Nat) : List Byte := cs.map fun c => BitVec.ofNat 8 c

/-- MFR_ID (R471): "NELYASIL". -/
def execMfrId (s : State) : Host.Outcome State Fault Refusal :=
  .next (pmbus (.pmbusBlock 0x99 (asciiBytes [0x4E, 0x45, 0x4C, 0x59, 0x41, 0x53, 0x49, 0x4C])) s)

/-- MFR_MODEL (R471): "JXG-7400". -/
def execMfrModel (s : State) : Host.Outcome State Fault Refusal :=
  .next (pmbus (.pmbusBlock 0x9A (asciiBytes [0x4A, 0x58, 0x47, 0x2D, 0x37, 0x34, 0x30, 0x30])) s)

/-- MFR_DEV_STATE (R471). -/
def execMfrDevState (s : State) : Host.Outcome State Fault Refusal := .next (pmbus (.pmbusByte 0xD0 s.devState.code) s)

/-- PMBUS_WRITE (R471). -/
def execPmbusWrite (cmd : Fin 256) (s : State) : Host.Outcome State Fault Refusal := .next (pmbus (.pmbusNack cmd.val) s)

/-- MGMT_ARP (R470). -/
def execMgmtArp (target : Nat) (s : State) : Host.Outcome State Fault Refusal := .next (mgmtResolve false target s)

/-- MGMT_NEIGHBOUR_DISCOVERY (R470). -/
def execMgmtNeighbourDiscovery (target : Nat) (s : State) : Host.Outcome State Fault Refusal := .next (mgmtResolve true target s)

/-- MGMT_ICMP_ECHO (R470). -/
def execMgmtIcmpEcho (v6 : Bool) (dst : Nat) (data : List Byte) (s : State) : Host.Outcome State Fault Refusal :=
  .next (mgmtPing v6 dst data s)

/-- DHCPV4_MESSAGE (R470). -/
def execDhcpv4Message (kind addr plen : Nat) (s : State) : Host.Outcome State Fault Refusal := .next (dhcpTaken kind addr plen s)

/-- ROUTER_ADVERTISEMENT (R470). -/
def execRouterAdvertisement (prefix6 plen : Nat) (autonomous : Bool) (s : State) : Host.Outcome State Fault Refusal :=
  .next (routerTaken prefix6 plen autonomous s)

end Sys2Proof.Machine
end

