-- ==== Sys2Proof/Machine/Movement.lean ====
section
/-! DEFINITION. The meanings of the movement and synchronisation instructions, of tallies and RTREEs completing, of units,
placements and migrations, and of the writes of ROW_FREQ_MHZ, PROG_IMAGE, PROG_UNLOAD and XC_TABLE. -/

namespace Sys2Proof.Machine

/-- TALLY.ADD (R156, R159). -/
def execTallyAdd (st : Fin 128) (o : MoveTOp) (s : State) : Host.Outcome State Fault Refusal :=
  .next (settle (moveStep st.val (.add o) s))

/-- TALLY.WAIT_GE (R159). -/
def execTallyWaitGe (st : Fin 128) (o : MoveTOp) (s : State) : Host.Outcome State Fault Refusal :=
  .next (moveStep st.val (.wait o) s)

/-- The wake-up of a waiting stall (R159, R161); nothing while the wait is neither met nor failed. -/
def execTallyWaitSatisfied (st : Fin 128) (s : State) : Host.Outcome State Fault Refusal :=
  .next (settle (wakeStall st.val s))

/-- TALLY.RESET (R159). -/
def execTallyReset (st : Fin 128) (o : MoveTOp) (s : State) : Host.Outcome State Fault Refusal :=
  .next (moveStep st.val (.reset o) s)

/-- XLD (R147). -/
def execXld (st : Fin 128) (o : MoveXOp) (s : State) : Host.Outcome State Fault Refusal :=
  .next (moveStep st.val (.xld o) s)

/-- XST (R147). -/
def execXst (st : Fin 128) (o : WithErrs MoveXOp) (s : State) : Host.Outcome State Fault Refusal :=
  .next (moveStep st.val (.xst o.op o.errs) s)

/-- RTREE (R148, R149). -/
def execRtree (st : Fin 128) (o : WithErrs MoveXOp) (s : State) : Host.Outcome State Fault Refusal :=
  .next (moveStep st.val (.rtree o.op o.errs) s)

/-- RTREE_COMPLETE (R148). -/
def execRtreeComplete (placement : Nat) (row : Fin 16) (tag : Fin 4) (s : State) : Host.Outcome State Fault Refusal :=
  .next (settle (completeRtree placement row.val tag.val s))

/-- PKICK (R155, R249). -/
def execPkick (st : Fin 128) (o : MoveTOp) (s : State) : Host.Outcome State Fault Refusal :=
  .next (moveStep st.val (.pkick o) s)

/-- SYNC (R157): the unit looks again while work is outstanding. -/
def execSync (st : Fin 128) (o : MoveTOp) (s : State) : Host.Outcome State Fault Refusal :=
  .next (stallStep st.val (stallSync st.val o) s)

/-- STOP (R172). -/
def execStallStop (st : Fin 128) (o : MoveTOp) (s : State) : Host.Outcome State Fault Refusal :=
  .next (moveStep st.val (.stop o) s)

/-- TRAP (R172). -/
def execTrap (st : Fin 128) (o : MoveTOp) (s : State) : Host.Outcome State Fault Refusal :=
  .next (moveStep st.val (.trap o) s)

/-- STALL_WATCHDOG (R172): a running unit that has retired nothing for the interval ends with WATCHDOG and its stall is
fenced. -/
def execStallWatchdog (st : Fin 128) (s : State) : Host.Outcome State Fault Refusal :=
  .next (if (getStall st.val s).sstate == .running then settle (unitEnds st.val cWatchdog s) else s)

/-- PLACEMENT_START (R169, R170). -/
def execPlacementStart (s : State) : Host.Outcome State Fault Refusal := .next (settle (placeHead s))

/-- Whether the wait that a migration has withdrawn has failed. -/
def migWaitFailed (m : Migration) (s : State) : Bool :=
  match (getStall m.a s).waiting with
  | some (t, _, _) => waitFailed t s
  | none => false

/-- MIGRATION_DRAINED (R175): a withdrawn wait whose tally has entered ERROR abandons it and ends the unit on `a` (Table 5.12); nothing until
the unit has drained and while the row's sequencer is down (R178). -/
def execMigrationDrained (row : Fin 16) (s : State) : Host.Outcome State Fault Refusal :=
  .next (match s.comp.migrations.find? fun m => stallRow m.a == row.val with
    | some m => if migWaitFailed m s then settle (wakeStall m.a s)
        else if migDrained m s && colRuns (row.val / 8) s then finishMigration m s else s
    | none => s)

/-- MIG_DRAIN_EXPIRY (R176). -/
def execMigDrainExpiry (row : Fin 16) (s : State) : Host.Outcome State Fault Refusal :=
  .next (match s.comp.migrations.find? fun m => stallRow m.a == row.val with
    | some m => abandonMigration m s
    | none => s)

/-- The check of a write of ROW_FREQ_MHZ: 800 to 1,600 in steps of 100 (R143). -/
def rowFreqCheck (v : Nat) : Nat := if 800 ≤ v && v ≤ 1600 && v % 100 == 0 then 0 else 0x14

/-- The effect of a write of ROW_FREQ_MHZ (R143, R539, R547). -/
def rowFreqEffect (row v : Nat) (s : State) : State :=
  settleRow row (setN (O.ROW_FREQ_MHZ + row) v (abandonSlices (fun z => z.island == row) s))

/-- ROW_FREQ_MHZ (R143). -/
def execRowFreqMhz (row : Fin 16) (w : ObjWrite) (s : State) : Host.Outcome State Fault Refusal :=
  .next (numRow (O.ROW_FREQ_MHZ + row.val) w.sess w.value (fun _ => rowFreqCheck w.value) (rowFreqEffect row.val w.value) s)

/-- PROG_IMAGE (R168). -/
def execProgImage (w : BlobWrite) (s : State) : Host.Outcome State Fault Refusal :=
  .next (match ownCheck w.sess O.PROG_IMAGE (.bytes w.bytes) s with
    | 0 =>
      let r := writeProgImage w.sess w.bytes s
      emit (.writeAnswer w.sess O.PROG_IMAGE r.1) r.2
    | e => emit (.writeAnswer w.sess O.PROG_IMAGE e) s)

/-- PROG_UNLOAD (R179). -/
def execProgUnload (w : ObjWrite) (s : State) : Host.Outcome State Fault Refusal :=
  .next (numRow O.PROG_UNLOAD w.sess w.value (progUnloadCheck w.value) (progUnloadEffect w.value) s)

/-- XC_TABLE (R205): tables 0 and 1 are read-only. -/
def execXcTable (table : Fin 16) (w : BlobWrite) (s : State) : Host.Outcome State Fault Refusal :=
  .next (blobRow (0x505001 + table.val) w (fun _ => xcTableCheck w.bytes) (xcTableEffect table.val w.bytes) s)

end Sys2Proof.Machine
end

