-- ==== Sys2Proof/Machine/Outer.lean ====
section
/-! DEFINITION. The meanings of the outer step's commands: doors, OS_CMD, the sweep, the return stream, refills and HBM
errors. -/

namespace Sys2Proof.Machine

/-- WEIGHTS_DONE (R126, R130). -/
def execWeightsDone (d : Door) (s : State) : Host.Outcome State Fault Refusal :=
  .next (doorRun 1 d (doorEntryOk d s) (weightsDone d) s)

/-- LOAD_ANCHOR (R137). -/
def execLoadAnchor (d : Door) (s : State) : Host.Outcome State Fault Refusal := .next (loadDoor 2 false d s)

/-- LOAD_MOMENTUM (R137). -/
def execLoadMomentum (d : Door) (s : State) : Host.Outcome State Fault Refusal := .next (loadDoor 3 true d s)

/-- OUTCOME_QUERY (R135). Before any step has been decided there is no record to write: the door is taken and writes nothing (DESIGN CHOICE,
log entry 147). -/
def execOutcomeQuery (d : Door) (s : State) : Host.Outcome State Fault Refusal :=
  .next (doorRun 4 d (d.imm == 0) (fun u => match u.os.decided with | some o => emitOutcome o u | none => u) s)

/-- ANCHOR_READ (R138). -/
def execAnchorRead (d : Door) (s : State) : Host.Outcome State Fault Refusal := .next (readDoor 5 false d s)

/-- MOMENTUM_READ (R138). -/
def execMomentumRead (d : Door) (s : State) : Host.Outcome State Fault Refusal := .next (readDoor 6 true d s)

/-- DOOR_KIND_REJECTED (R126): a kind that is not listed is refused; a listed kind here spells a door that breaks its
layout, which is refused too. -/
def execDoorKindRejected (kind : Fin 16) (d : Door) (s : State) : Host.Outcome State Fault Refusal :=
  .next (doorRun kind.val d false id s)

/-- OS_CMD ABANDON (R136). -/
def execAbandon (sess : Fin 73) (s : State) : Host.Outcome State Fault Refusal :=
  .next (numRow O.OS_CMD sess.val 1 (osCmdCheck 1) (osCmdEffect 1) s)

/-- OS_CMD LOAD_COMMIT (R137). -/
def execLoadCommit (sess : Fin 73) (s : State) : Host.Outcome State Fault Refusal :=
  .next (numRow O.OS_CMD sess.val 2 (osCmdCheck 2) (osCmdEffect 2) s)

/-- SWEEP_PAGE (R133). -/
def execSweepPage (s : State) : Host.Outcome State Fault Refusal := .next (sweepOne s)

/-- NEXT_ANCHOR_RETURN (R134). -/
def execNextAnchorReturn (t : Fin 4096) (s : State) : Host.Outcome State Fault Refusal := .next (nextAnchorReturn t.val s)

/-- OUTCOME_RECORD (R135). -/
def execOutcomeRecord (s : State) : Host.Outcome State Fault Refusal := .next (outcomeDue s)

/-- REFILL_SERVE (R140). -/
def execRefillServe (site : Fin 32) (k i : Nat) (s : State) : Host.Outcome State Fault Refusal :=
  .next (refillShare site.val k i s)

/-- REFILL_RETRY (R140). -/
def execRefillRetry (answers : List SourceAnswer) (expired : Bool) (s : State) : Host.Outcome State Fault Refusal :=
  .next (refillAnswers answers expired s)

/-- REFILL_COMPLETE (R140). -/
def execRefillComplete (pages : List RefillPage) (record : List Byte) (src0 : SourceAnswer) (s : State) :
    Host.Outcome State Fault Refusal := .next (settle (refillEnd pages record src0 s))

/-- HBM_UNCORRECTABLE (R141). -/
def execHbmUncorrectable (h : HbmHit) (s : State) : Host.Outcome State Fault Refusal := .next (hbmError h s)

end Sys2Proof.Machine
end

