-- ==== Sys2Proof/Machine/Porter.lean ====
section
/-! DEFINITION. The meanings of the porter instructions (Table 9.2) and of what the engines and owners of channels do. -/

namespace Sys2Proof.Machine

/-- COPY (R259). -/
def execCopy (ch : Fin 512) (o : Fetched MoveOp) (s : State) : Host.Outcome State Fault Refusal :=
  .next (runChan ch.val o.hostOk (issueMove ch.val .copy o.op) s)

/-- XC_ENCODE (R260). -/
def execXcEncode (ch : Fin 512) (o : Fetched MoveOp) (s : State) : Host.Outcome State Fault Refusal :=
  .next (runChan ch.val o.hostOk (issueMove ch.val .xcEncode o.op) s)

/-- XC_CHECK (R262). -/
def execXcCheck (ch : Fin 512) (o : Fetched MoveOp) (s : State) : Host.Outcome State Fault Refusal :=
  .next (runChan ch.val o.hostOk (issueMove ch.val .xcCheck o.op) s)

/-- XC_DECODE (R262). -/
def execXcDecode (ch : Fin 512) (o : Fetched MoveOp) (s : State) : Host.Outcome State Fault Refusal :=
  .next (runChan ch.val o.hostOk (issueMove ch.val .xcDecode o.op) s)

/-- ZERO (R259). -/
def execZero (ch : Fin 512) (o : Fetched MoveOp) (s : State) : Host.Outcome State Fault Refusal :=
  .next (runChan ch.val o.hostOk (issueMove ch.val .zero o.op) s)

/-- Whether a LOOP may stand where it stands (R253, R256). -/
def loopOk (o : LoopOp) (x : Channel) : Bool :=
  o.reserved == 0 && o.count < 65536 && 1 ≤ o.body && o.body < 65536 && x.loops.length < 4
    && (match x.loops with | l :: _ => x.pc + 1 + o.body ≤ l.first + l.body | [] => true)

/-- LOOP (R256); on A1 a COUNT of 0 runs the body 65,536 times (R554). -/
def enterLoop (c : Nat) (o : LoopOp) (x : Channel) (s : State) : State :=
  if !loopOk o x then faultChan c pcBadInstr x.pc s
  else
    let n := if o.count = 0 then 65536 else o.count
    let l : LoopFrame := { first := x.pc + 1, body := o.body, count := n, i := 0, sstride := o.sstride, dstride := o.dstride,
                           vstride := o.vstride }
    setChan c { x with loops := l :: x.loops, pc := x.pc + 1 } s

/-- LOOP (R256). -/
def execLoop (ch : Fin 512) (o : Fetched LoopOp) (s : State) : Host.Outcome State Fault Refusal :=
  .next (runChan ch.val o.hostOk (enterLoop ch.val o.op) s)

/-- The tally a WAIT or SIGNAL of a channel names, within what it may operate on (R251). -/
def chanTally (t : Nat) (x : Channel) (s : State) : Option Nat :=
  match x.owner with
  | .unit => (match chanPlacement x s with
    | some p => if t < p.tallyCount then some (p.tallyBase + t) else none
    | none => none)
  | .host => if hostTally t x s then some t else none
  | .engine => some t
  | .none => none

/-- A WAIT or SIGNAL: reserved fields, the tally's range and FREE, then `f` on the tally and the value (R251, R257, R267). -/
def tallyInstr (c : Nat) (o : TallyOp) (f : Nat → Nat → Channel → State → State) (x : Channel) (s : State) : State :=
  if o.reserved ≠ 0 then faultChan c pcBadInstr x.pc s
  else match chanTally o.tally x s with
    | none => faultChan c pcTallyRange x.pc s
    | some t =>
      if (getTally t s).tstate = 0 then faultChan c pcTallyRange x.pc (tallyFreeOp s)
      else f t (strided 32 o.vrel (o.value % 2 ^ 32) (·.vstride) x) x s

/-- WAIT (R258): goes on at once when the count is there; an ERROR wins (R269). -/
def waitTally (c t v : Nat) (x : Channel) (s : State) : State :=
  if waitFailed t s then faultChan c pcTallyError x.pc s
  else if waitMet t v s then setChan c x.advance s
  else setChan c { x with cstate := .wait, waitFor := some (t, v) } s

/-- WAIT (R258). -/
def execWait (ch : Fin 512) (o : Fetched TallyOp) (s : State) : Host.Outcome State Fault Refusal :=
  .next (runChan ch.val o.hostOk (tallyInstr ch.val o.op (waitTally ch.val)) s)

/-- A waiting channel is looked at again (R258, R267, R269). -/
def wakeChan (c : Nat) (s : State) : State :=
  let x := getChan c s
  match x.cstate, x.waitFor with
  | .wait, some (t, v) =>
    if waitFailed t s then faultChan c pcTallyError x.pc s
    else if waitMet t v s then setChan c ({ x with cstate := .run, waitFor := none } : Channel).advance s
    else s
  | _, _ => s

/-- PORTER_WAIT_SATISFIED (R258). -/
def execPorterWaitSatisfied (ch : Fin 512) (s : State) : Host.Outcome State Fault Refusal := .next (wakeChan ch.val s)

/-- PORTER_WAIT_WATCHDOG (R267). -/
def execPorterWaitWatchdog (ch : Fin 512) (s : State) : Host.Outcome State Fault Refusal :=
  .next (if (getChan ch.val s).cstate == .wait then faultChan ch.val pcWatchdog (getChan ch.val s).pc s else s)

/-- SIGNAL (R258): held until every earlier MOVE has completed. -/
def signalTally (c t v : Nat) (x : Channel) (s : State) : State :=
  afterMoves c (setChan c { x with afterMoves := some (some (t, v), 0) } s)

/-- SIGNAL (R258). -/
def execSignal (ch : Fin 512) (o : Fetched TallyOp) (s : State) : Host.Outcome State Fault Refusal :=
  .next (settle (runChan ch.val o.hostOk (tallyInstr ch.val o.op (signalTally ch.val)) s))

/-- STOP (R258). -/
def stopProgram (c code reserved : Nat) (x : Channel) (s : State) : State :=
  if reserved ≠ 0 then faultChan c pcBadInstr x.pc s
  else afterMoves c (setChan c { x with afterMoves := some (none, code) } s)

/-- PORTER_STOP (R258). -/
def execPorterStop (ch : Fin 512) (code : Fetched (Fin 65536)) (reserved : Nat) (s : State) : Host.Outcome State Fault Refusal :=
  .next (settle (runChan ch.val code.hostOk (stopProgram ch.val code.op.val reserved) s))

/-- PORTER_BURST (R263 to R266). -/
def execPorterBurst (die : Fin 2) (hostData : List Byte) (hostOk : Bool) (s : State) : Host.Outcome State Fault Refusal :=
  .next (porterBurst die.val hostData hostOk s)

/-- BURST_DONE (R264); a teardown that waited for the burst goes on (R235). -/
def execBurstDone (ch : Fin 512) (hostOk : Bool) (s : State) : Host.Outcome State Fault Refusal :=
  .next (settle (finishTeardowns (burstDone ch.val hostOk s)))

/-- CHANNEL_FAULT (R267). -/
def execChannelFault (ch : Fin 512) (s : State) : Host.Outcome State Fault Refusal := .next (settle (finishTeardowns (enterFault ch.val s)))

/-- A channel is stopped by its owner (R268); a host job it served ends CANCELLED. -/
def stopByOwner (c : Nat) (s : State) : State :=
  let x := getChan c s
  if x.cstate == .stopping then enterFault c s
  else if x.cstate != .run && x.cstate != .wait then s
  else stopChannel c (endChanJob x 2 pcOwner (setChan c { x with job := none } s))

/-- CHANNEL_STOP (R268). -/
def execChannelStop (ch : Fin 512) (s : State) : Host.Outcome State Fault Refusal := .next (settle (stopByOwner ch.val s))

/-- The check of a write of PORTER_CH_CFG (R270, Table 9.9). -/
def porterCfgCheck (c v : Nat) (s : State) : Nat :=
  if 384 ≤ c then 0x19
  else if !(1 ≤ cfgRate v && cfgRate v ≤ 64 && 1 ≤ cfgStage v && cfgStage v ≤ 64 && cfgPrio v ≤ 2) then 0x14
  else if hostChan c s && cfgPrio v != 0 then 0x14
  else 0

/-- PORTER_CH_CFG (R270). -/
def execPorterChCfg (ch : Fin 512) (w : ObjWrite) (s : State) : Host.Outcome State Fault Refusal :=
  let key := inst128 O.PORTER_CH_CFG ch.val
  .next (numRow key w.sess w.value (porterCfgCheck ch.val w.value) (setN key (w.value &&& 0x7F037F)) s)

end Sys2Proof.Machine
end

