-- ==== Sys2Proof/Machine/CommitRules.lean ====
section
/-! DEFINITION. The validation rules of the commit groups (R64 t1): for each group, the first rule its values break and the field that
rule names first; rule 0 when none. `v` reads the values to be checked. -/

namespace Sys2Proof.Machine

/-- A rule's verdict: nothing, or the rule and its field. -/
abbrev RuleVerdict := Nat × Nat

/-- The first rule broken of a list of checks: each a condition that breaks the rule, the rule and the field. -/
def firstRule : List (Bool × RuleVerdict) → RuleVerdict
  | [] => (0, 0)
  | (bad, r) :: rs => if bad then r else firstRule rs

/-- Whether a list holds a value twice, other than the values to be left out. -/
def twice (skip : Nat → Bool) (xs : List Nat) : Bool := (xs.filter fun x => !skip x).eraseDups.length != (xs.filter fun x => !skip x).length

/-! ### Board-group identity and carriers (Tables 2.11 and 14.11) -/

/-- Table 2.11. -/
def rule01 (v : Nat → ObjVal) (s : State) : RuleVerdict :=
  let m := (v O.BG_MEMBER_MASK).toNat
  firstRule [(!bitOf m (getN O.BG_PLACE s), (0x0102, O.BG_MEMBER_MASK)), (m % 256 == 0, (0x0103, O.BG_MEMBER_MASK))]

/-- The middle of a slot and half its width in MHz (R375). -/
def slotSpan (n : Int) (m : Nat) : Int × Int := (193100000 + n * 6250, (m * 6250 : Nat))

/-- CAR_MODES as Table 14.11 wants them. -/
def modesOk (modes m : Nat) : Bool :=
  modes != 0 && modes % 2 == 0 && modes < 64 && (!bitOf modes 5 || (modes == 0x20 && (m == 6 || m == 8)))
    && (!bitOf modes 1 || m == 12 || m == 20) && (!(bitOf modes 2 || bitOf modes 3 || bitOf modes 4) || m == 20)

/-- Whether a carrier's slot overlaps that of another enabled carrier's live configuration. -/
def slotClash (c : Nat) (n : Int) (m : Nat) (s : State) : Bool :=
  (List.range 8).any fun d => d != c && carEnabled d s && decide ((n - carFreqN d s).natAbs < m + carSlotM d s)

/-- Whether an island of a carrier is fenced (Table 21.2). -/
def carFenced (c : Nat) (s : State) : Bool := (List.range 4).any fun j => s.dev.bist.fenced.contains (22 + 4 * c + j)

/-- Table 14.11, and the rule of Table 21.2. -/
def ruleCar (c : Nat) (v : Nat → ObjVal) (s : State) : RuleVerdict :=
  let k (j : Nat) : Nat := (v (carKey c j)).toNat
  let n := toSigned 32 (k 2)
  let m := k 3
  let tx := toSigned 32 (k 5)
  let sp := slotSpan n m
  let on := k 1 == 1
  firstRule [
    (!(m == 6 || m == 8 || m == 12 || m == 20) || decide (sp.1 - sp.2 < 191300000) || decide (196100000 < sp.1 + sp.2),
      (0x2101 + 0x100 * c, carKey c 3)),
    (!modesOk (k 4) m, (0x2102 + 0x100 * c, carKey c 4)),
    (on && slotClash c n m s, (0x2103 + 0x100 * c, carKey c 1)),
    (decide (tx < -1000) || decide (0 < tx), (0x2104 + 0x100 * c, carKey c 5)),
    (on && carFenced c s, (0x7801, carKey c 1))]

/-! ### Line ports (Tables 10.1 and 16.9) -/

/-- Whether a collective group that is not CLOSED names a port in a primary mask. -/
def portNamed (n : Nat) (s : State) : Bool := s.coll.groups.any fun g => g.2.gstate != 0 && g.2.relay.any fun e => bitOf e.1 n

/-- Table 10.1. -/
def rule2D (v : Nat → ObjVal) (s : State) : RuleVerdict :=
  let mask (n : Nat) : Nat := (v (O.LP_CARRIERS + n)).toNat % 256
  let ns := List.range 4
  let key (p : Nat → Bool) (k : Nat) : Nat := k + (ns.find? p).getD 0
  let shared (n : Nat) : Bool := ns.any fun m => m != n && (mask n &&& mask m) != 0
  let z4 (n : Nat) : Bool := (bitsSet 8 (mask n)).any (fun c => carZ4 c s) && 1 < (bitsSet 8 (mask n)).length
  let fec (n : Nat) : Bool := 64 < (v (O.LP_OVH + n)).toNat / 256
  let bare (n : Nat) : Bool := mask n == 0 && portNamed n s
  firstRule [(ns.any shared, (0x2D01, key shared O.LP_CARRIERS)), (ns.any z4, (0x2D02, key z4 O.LP_CARRIERS)),
    (ns.any fec, (0x2D03, key fec O.LP_OVH)), (ns.any bare, (0x2D04, key bare O.LP_CARRIERS))]

/-- Table 16.9. -/
def rule88 (v : Nat → ObjVal) (s : State) : RuleVerdict :=
  let prot (n : Nat) : Nat := (v (O.PROT_PAIR + n)).toNat
  let ns := List.range 4
  let pairs := ns.filter fun n => prot n != 0xFF
  let far (n : Nat) : Nat := lpFarId n s
  let key (p : Nat → Bool) : Nat := O.PROT_PAIR + (ns.find? p).getD 0
  let bad (n : Nat) : Bool := prot n != 0xFF && (4 ≤ prot n || prot n == n)
  let double (n : Nat) : Bool := pairs.contains n && ((pairs.any fun m => m != n && prot m == prot n) || prot (prot n) != 0xFF)
  let empty (n : Nat) : Bool := pairs.contains n && (lpCarriers n s == 0 || lpCarriers (prot n) s == 0)
  let named (n : Nat) : Bool := pairs.contains n && portNamed (prot n) s
  let apart (n : Nat) : Bool := pairs.contains n && bitOf (far n) 0 && bitOf (far (prot n)) 0 && far n != far (prot n)
  firstRule [(ns.any bad, (0x8801, key bad)), (ns.any double, (0x8802, key double)), (ns.any empty, (0x8803, key empty)),
    (ns.any named, (0x8804, key named)), (ns.any apart, (0x8805, key apart))]

/-! ### Local fabric (Table 17.2) -/

/-- Whether an octet mode forms a port (Table 17.1). -/
def modeForms (mode k : Nat) : Bool :=
  match mode with
  | 1 | 3 => true
  | 2 | 4 => k % 2 == 0
  | _ => false

/-- Table 17.2. -/
def rule30 (v : Nat → ObjVal) (_s : State) : RuleVerdict :=
  let ks := List.range 16
  let mode (k : Nat) : Nat := (v (O.LF_OCTET_MODE + k / 2)).toNat
  let part (k : Nat) : Nat := (v (O.LF_FAILOVER + k)).toNat
  let badPart (k : Nat) : Bool :=
    part k != 0xFF && !(part k < 16 && part k != k && modeForms (mode (part k)) (part k) && part (part k) == k)
  let mac (k : Nat) : Nat := (v (O.LF_PORT_MAC + k)).toNat
  let v4 (k : Nat) : Nat := (v (O.LF_PORT_IPV4 + k)).toNat / 2 ^ 32
  let v6 (k : Nat) : Nat := natOfBE ((v (O.LF_PORT_IPV6 + k)).toBytes.take 16)
  let clash (f : Nat → Nat) (k : Nat) : Bool := f k != 0 && ks.any fun j => j != k && f j == f k
  let qpn := (v O.LF_QPN_BASE).toNat
  let eth := (v O.LF_ETH_CLASS).toBytes
  let es := (List.range (eth.length / 4)).map fun i => natOfLE ((eth.drop (4 * i)).take 4)
  let first (p : Nat → Bool) (k : Nat) : Nat := k + (ks.find? p).getD 0
  firstRule [
    ((List.range 8).any fun j => 4 < (v (O.LF_OCTET_MODE + j)).toNat, (0x3001, O.LF_OCTET_MODE + ((List.range 8).find? fun j =>
      4 < (v (O.LF_OCTET_MODE + j)).toNat).getD 0)),
    (ks.any badPart, (0x3002, first badPart O.LF_FAILOVER)),
    (ks.any (clash mac), (0x3003, first (clash mac) O.LF_PORT_MAC)),
    (ks.any (clash v4), (0x3003, first (clash v4) O.LF_PORT_IPV4)),
    (ks.any (clash v6), (0x3003, first (clash v6) O.LF_PORT_IPV6)),
    (qpn < 2 || 0xFFFFFF < qpn + 4095, (0x3004, O.LF_QPN_BASE)),
    (eth.length % 4 != 0 || 1024 < eth.length || twice (fun _ => false) (es.map fun e => field e 31 20), (0x3005, O.LF_ETH_CLASS))]

/-! ### The outer step (Table 4.2, R125) -/

/-- Whether OFFSET of every entry follows the one before it. -/
def offsetsOk : Nat → List OsEntry → Bool
  | _, [] => true
  | o, e :: es => e.offset == o && offsetsOk (o + e.size) es

/-- Whether an entry's RANK fits its coding. -/
def rankOk (e : OsEntry) : Bool :=
  match e.coding with
  | 1 => e.rank == 0
  | 2 => 8 ≤ e.rank && e.rank ≤ 256 && e.rank ≤ min e.rows e.cols
  | _ => false

/-- Table 4.2. -/
def rule48 (v : Nat → ObjVal) (s : State) : RuleVerdict :=
  let bs := (v O.OS_TABLE).toBytes
  let n := leAt bs 0 4
  let es := if n ≤ 4096 then osEntriesOf bs else []
  firstRule [
    (n == 0 || 4096 < n || bs.length != 16 + 32 * n, (0x4801, O.OS_TABLE)),
    (!offsetsOk 0 es, (0x4802, O.OS_TABLE)),
    (!es.all rankOk, (0x4803, O.OS_TABLE)),
    (optSizeOf (getN O.HBM_RESEND_GIB s) < osNeed es, (0x4804, O.OS_TABLE)),
    (1023 < (v O.OS_GROUP).toNat, (0x4805, O.OS_GROUP)),
    ((v O.OS_ATTEMPT_LIMIT).toNat < 1 || 4 < (v O.OS_ATTEMPT_LIMIT).toNat, (0x4806, O.OS_ATTEMPT_LIMIT))]

/-- R125. -/
def rule49 (v : Nat → ObjVal) (s : State) : RuleVerdict :=
  let eta := (v O.OS_ETA).toNat
  let beta := (v O.OS_BETA).toNat
  let etaBad := eta == 0 || 0x41800000 < eta
  let betaBad := !(beta < 0x3F800000 || beta == 0x80000000)
  firstRule [((v O.OS_HP_FROM_STEP).toNat ≤ getN O.OS_CUR_STEP s, (0x4901, O.OS_HP_FROM_STEP)), (etaBad, (0x4902, O.OS_ETA)),
    (betaBad, (0x4902, O.OS_BETA))]

/-! ### HBM and time (Tables 8.2 and 15.9) -/

/-- Whether an HBM-class crate other than a registered image's is HELD. -/
def hbmHeld (s : State) : Bool :=
  s.pools.crates.any fun c => 4 ≤ handleClass c.1 && c.2.rstate == 1 && !(s.comp.programs.map (·.crate)).contains c.1

/-- Table 8.2. -/
def rule58 (v : Nat → ObjVal) (s : State) : RuleVerdict :=
  let g := (v O.HBM_RESEND_GIB).toNat
  let p (k : Nat) : Nat := (v k).toNat
  let ps := [O.POOL_H16K_MIB, O.POOL_H64K_MIB, O.POOL_H1M_MIB]
  let odd (k : Nat) : Bool := p k % 64 != 0 || p k < 256
  firstRule [
    (g < 4 || 48 < g, (0x5801, O.HBM_RESEND_GIB)),
    (ps.any odd, (0x5802, (ps.find? odd).getD O.POOL_H16K_MIB)),
    ((ps.map p).foldl (· + ·) 0 != 8192, (0x5803, O.POOL_H16K_MIB)),
    (!(getB O.OS_TABLE s).isEmpty && optSizeOf g < osNeed (osEntries s), (0x5804, O.HBM_RESEND_GIB)),
    (hbmHeld s, (0x5805, O.HBM_RESEND_GIB))]

/-- Table 15.9. -/
def rule60 (v : Nat → ObjVal) (s : State) : RuleVerdict :=
  let src (i : Nat) : Nat := (v (O.TS_SRC_PRIO + i)).toNat
  let is := List.range 4
  let listed (x : Nat) : Bool := x == 0 || x == 0x10 || (0x20 ≤ x && x ≤ 0x2F) || (0x30 ≤ x && x ≤ 0x33)
  let badCode (i : Nat) : Bool := !listed (src i)
  let again (i : Nat) : Bool := src i != 0 && is.any fun j => j != i && src j == src i
  let noPps (i : Nat) : Bool := src i == 0x10 && (v O.TS_PPS_EN).toNat != 1
  let noPtp (i : Nat) : Bool := 0x20 ≤ src i && src i ≤ 0x2F && !bitOf (v O.PTP_PORTS).toNat (src i - 0x20)
  let noPort (i : Nat) : Bool := 0x30 ≤ src i && src i ≤ 0x33 && lpCarriers (src i - 0x30) s == 0
  let key (p : Nat → Bool) : Nat := O.TS_SRC_PRIO + (is.find? p).getD 0
  firstRule [(is.any badCode, (0x6001, key badCode)), (is.any again, (0x6002, key again)), (is.any noPps, (0x6003, key noPps)),
    (is.any noPtp, (0x6004, key noPtp)), (is.any noPort, (0x6005, key noPort))]

/-! ### Every group -/

/-- The first rule a group's values break. -/
def cgRule (id : Nat) (v : Nat → ObjVal) (s : State) : RuleVerdict :=
  if 0x21 ≤ id ∧ id ≤ 0x28 then ruleCar (id - 0x21) v s
  else match id with
  | 0x01 => rule01 v s
  | 0x2C =>
    let r := batchRule (v O.SCHED_BATCH).toBytes
    (r, if r = 0 then 0 else O.SCHED_BATCH)
  | 0x2D => rule2D v s
  | 0x30 => rule30 v s
  | 0x40 => groupRule v s
  | 0x48 => rule48 v s
  | 0x49 => rule49 v s
  | 0x58 => rule58 v s
  | 0x60 => rule60 v s
  | 0x88 => rule88 v s
  | _ => (0, 0)

end Sys2Proof.Machine
end

