-- ==== Sys2Proof/Machine/EmergOps.lean ====
section
/-! DEFINITION. The emergency handler (R521, R522, R527), throttling (Table 20.10), the hot-swap switch (R523, R524) and the power
states (R506 to R508). -/

namespace Sys2Proof.Machine

/-! ### Flags (Table 20.6) -/

/-- Whether the emergency handler runs: from the start of AUX on (R488). -/
def handlerRuns (s : State) : Bool := s.devState != .off

/-- A flag is set, latched and logged (R522); slices are abandoned by the flags that suspend self-test (R539), and the rows follow
their caps. -/
def emergSet (k place : Nat) (reading : Int) (s : State) : State :=
  if emergFlag k s then s
  else
    let s1 := setObjBit O.EMERG_LATCH k true (setObjBit O.EMERG_FLAGS k true s)
    let s2 := logEvent 0x7001 (k * 2 ^ 56 + place * 2 ^ 40 + ofSigned 32 reading) s1
    let s3 := if testSuspended s2 then abandonSlices (fun _ => true) s2 else s2
    settleRows s3

/-- A flag whose condition holds in a state where the handler runs. -/
def emergWhen (cond : Bool) (k place : Nat) (reading : Int) (s : State) : State := if cond then emergSet k place reading s else s

/-- A command of the handler: nothing happens without a supply. -/
def handled (f : State → State) (s : State) : State := if handlerRuns s then f s else s

/-- The limit of a junction in units of 0.01 °C (Table 20.3). -/
def tjLimit (sensor : Nat) (s : State) : Int := getI (O.TJ_LIMIT_CC + sensor) s

/-- OT_WARN: a junction at or above its limit − 10 K. -/
def otWarn (sensor : Nat) (cc : Int) (s : State) : State :=
  emergWhen (decide (tjLimit sensor s - 1000 ≤ cc)) 0 sensor cc (setTj sensor cc s)

/-- OT_THROTTLE: a junction at or above its limit − 3 K; its die is hot from then on (Table 20.10). -/
def otThrottle (sensor : Nat) (cc : Int) (s : State) : State :=
  let t := setTj sensor cc s
  if tjLimit sensor s - 300 ≤ cc then emergSet 1 sensor cc { t with dev := { t.dev with hot := setBit t.dev.hot sensor } } else t

/-- OT_CRIT: a junction at or above its limit for 100 ms. -/
def otCrit (sensor : Nat) (cc : Int) (s : State) : State :=
  let t := setTj sensor cc s
  if tjLimit sensor s ≤ cc then causeOfSafe 0x02 (emergSet 2 sensor cc t) else t

/-- POWER_CAP: the 10 ms mean above the cap (R521). -/
def powerCap (dw : Nat) (s : State) : State :=
  emergWhen (decide (getN O.PWR_CAP_W s * 10 < dw)) 3 0 dw (setN O.PIN_DW dw s)

/-- VIN_LOW. -/
def vinLow (mv : Nat) (s : State) : State := emergWhen (decide (mv < 36000)) 4 0 mv (setN O.VIN_MV mv s)

/-- VIN_HIGH. -/
def vinHigh (mv : Nat) (s : State) : State := emergWhen (decide (44000 < mv)) 6 0 mv (setN O.VIN_MV mv s)

/-- OC. -/
def overCurrent (ma : Nat) (s : State) : State := emergWhen (decide (34000 < ma)) 7 0 ma (setN O.IIN_MA ma s)

/-- COOLANT: the inlet above 45 °C, or a rise of more than 20 K; the reading logged is the inlet's. -/
def coolant (inCc outCc : Int) (s : State) : State :=
  emergWhen (decide (4500 < inCc) || decide (2000 < outCc - inCc)) 8 0 inCc (setI O.COOLANT_OUT_CC outCc (setI O.COOLANT_IN_CC inCc s))

/-- RAIL is set, and names the rail (R519, Table 20.6). -/
def railFlag (k mv : Nat) (s : State) : State :=
  logEvent 0x7004 (k * 2 ^ 56 + mv) (emergSet 9 k mv (setN (O.RAIL_MV + k) mv s))

/-- RAIL: a rail outside ±5 % of its set value. -/
def railOut (k mv : Nat) (s : State) : State :=
  let v := getN (O.RAIL_SET_MV + k) s
  if mv * 100 < v * 95 ∨ v * 105 < mv * 100 then causeOfSafe 0x02 (railFlag k mv s) else setN (O.RAIL_MV + k) mv s

/-- REFCLK: the PLLs hold (R527). The counter runs on the 10 MHz input while that is in use; with neither, the servo enters HOLDOVER
(Table 20.14). -/
def refclkLost (s : State) : State :=
  let tenMhz := getN O.TS_10M_EN s == 1 && bitOf (getN O.TIME_FLAGS s) 11
  let t := emergSet 10 0 0 s
  if tenMhz then t else timDown t

/-- The reference has not come back within 10 ms (R527). -/
def refclkGone (s : State) : State := if emergFlag 10 s then causeOfSafe 0x02 s else s

/-- AUX_LOW. -/
def auxLow (mv : Nat) (s : State) : State := emergWhen (decide (mv < 3000)) 11 0 mv (setN O.VAUX_MV mv s)

/-- A flag's clear condition has held (Table 20.6); VIN_HARD and RAIL clear at the next BOOT only. The rows a flag had lowered rise
again step by step. -/
def flagCleared (k : Nat) (s : State) : State :=
  if k = 5 ∨ k = 9 ∨ !emergFlag k s then s
  else
    let s1 := logEvent 0x7002 (k * 2 ^ 56) (setObjBit O.EMERG_FLAGS k false s)
    let s2 := { s1 with dev := { s1.dev with
      hot := if k = 1 then 0 else s1.dev.hot
      capLogged := if emergFlag 3 s1 || emergFlag 7 s1 then s1.dev.capLogged else false } }
    settleRows s2

/-! ### Throttle steps (Tables 20.6 and 20.10) -/

/-- Whether a row is to be lowered: POWER_CAP above the cap, OC above its limit, or the row's die hot. -/
def rowDown (dw ma row : Nat) (s : State) : Bool :=
  (emergFlag 3 s && decide (getN O.PWR_CAP_W s * 10 < dw)) || (emergFlag 7 s && decide (34000 < ma))
    || (emergFlag 1 s && bitOf s.dev.hot (row / 8))

/-- Whether a flag still holds a row down. -/
def rowHeld (row : Nat) (s : State) : Bool := emergFlag 3 s || emergFlag 7 s || (emergFlag 1 s && bitOf s.dev.hot (row / 8))

/-- A row's step of 100 MHz, down to 800 MHz or back up to its limit; it waits for a migration of the row (R531). -/
def rowStep (dw ma row : Nat) (s : State) : State :=
  let act := getN (O.ROW_FREQ_ACT + row) s
  if rowMigrating row s then s
  else if rowDown dw ma row s then
    if 800 < act then
      setN (O.ROW_FREQ_ACT + row) (max 800 (act - 100)) { s with dev := { s.dev with ramping := setBit s.dev.ramping row } }
    else s
  else if rowHeld row s || !bitOf s.dev.ramping row then s
  else
    let goal := min (act + 100) (rowLimit row s)
    let t := setN (O.ROW_FREQ_ACT + row) goal s
    if goal = rowLimit row s then { t with dev := { t.dev with ramping := clrBit t.dev.ramping row } } else t

/-- The lowest row frequency. -/
def lowestRow (s : State) : Nat := (List.range 16).foldl (fun m r => min m (getN (O.ROW_FREQ_ACT + r) s)) 1600

/-- Every row steps; rows lowered by POWER_CAP or OC are logged once while the flag is set. -/
def throttleStep (dw ma : Nat) (s : State) : State :=
  let s1 := setN O.IIN_MA ma (setN O.PIN_DW dw s)
  let s2 := (List.range 16).foldl (fun u r => rowStep dw ma r u) s1
  let lowered := (List.range 16).any fun r => decide (getN (O.ROW_FREQ_ACT + r) s2 < getN (O.ROW_FREQ_ACT + r) s1)
  if lowered && (emergFlag 3 s2 || emergFlag 7 s2) && !s2.dev.capLogged then
    logEvent 0x7006 (lowestRow s2 * 2 ^ 48 + dw) { s2 with dev := { s2.dev with capLogged := true } }
  else s2

/-! ### The hot-swap switch (R523, R524) -/

/-- Whether the switch is closed: from BOOT on. -/
def switchClosed (s : State) : Bool := s.devState != .off && s.devState != .aux && !s.dev.switchOpen

/-- The power controller opens the switch: everything but the hub die and the key store loses power, transmitters go dark, ports
and links drop, heartbeats stop. -/
def openSwitch (s : State) : State :=
  if !switchClosed s then s
  else
    let s1 := fabricDown (allDark { s with dev := { s.dev with switchOpen := true }, crier := { s.crier with active := false } })
    let s2 := (List.range 8).foldl (fun u i => linkGoesDown i u) (linkLost s1)
    loseCompute ([2, 3, 6, 7].foldl (fun u p => setN (O.PROC_STATE + p) 0 u) (abandonSlices (fun _ => true) s2))

/-- VIN_HARD: 40 V below 30.0 V for 2 µs. -/
def vinHard (mv : Nat) (s : State) : State :=
  let t := setN O.VIN_MV mv s
  if mv < 30000 then openSwitch (emergSet 5 0 mv t) else t

/-- The input above 46.0 V. -/
def vinAbove (mv : Nat) (s : State) : State :=
  let t := setN O.VIN_MV mv s
  if 46000 < mv then openSwitch t else t

/-- A junction at its limit + 10 K: the trip is kept in the AUX-powered log and THERM_N goes low (R524). -/
def thermalTrip (sensor : Nat) (cc : Int) (s : State) : State :=
  let t := setTj sensor cc s
  if tjLimit sensor s + 1000 ≤ cc ∧ switchClosed s then openSwitch { t with dev := { t.dev with trip := some (sensor, cc) } } else t

/-! ### P2 (R507, R508) -/

/-- Whether any XFER or other host job runs on a transfer. -/
def xferRuns (s : State) : Bool := !s.host.xferOut.isEmpty || !s.host.xferIn.isEmpty

/-- PWR_CMD IDLE is accepted (R507); in P2 it has no effect. -/
def idleCheck (s : State) : Nat :=
  if getN O.PWR_STATE s = 2 then 0
  else if s.devState == .ready && !(s.coll.colls.any fun c => !c.isFinal) && s.comp.placements.isEmpty
      && !(s.port.chans.any fun p => p.2.cstate == .run || p.2.cstate == .wait || p.2.cstate == .stopping) && !xferRuns s
      && getN O.OS_STEP_STATE s != 1 && getN O.BG_PLACE s != 8 && !s.dev.deferred then 0
  else 0x30

/-- P2 is entered: carriers DARK, compute dies gated; rows and pools cannot be tested. -/
def idleEffect (s : State) : State :=
  if getN O.PWR_STATE s = 2 then s
  else
    let s1 := abandonSlices (fun z => z.island ≤ 53) s
    let s2 := loseCompute (settleShut (setPower 2 (allDark s1)))
    setN (O.PROC_STATE + 6) 0 (setN (O.PROC_STATE + 7) 0 s2)

/-- PWR_CMD ACTIVE: P0 follows (R508); outside P2 it has no effect. -/
def activeEffect (s : State) : State := if getN O.PWR_STATE s = 2 then { s with dev := { s.dev with waking := true } } else s

/-- The islands of the compute dies (Table 20.11). -/
def computeIslands : List Nat := List.range 22

/-- A rail has failed while rails are brought up (R519). -/
def railFails (f : RailFault) (s : State) : State :=
  match f with
  | .inrush mv => logEvent 0x7005 mv (emergSet 9 0 mv (setN O.VIN_MV mv s))
  | .rail k mv => railFlag k mv s

/-- The compute dies have power again and are tested: sequencers, rows and spares return (R476, R508). -/
def computeBack (failed : List BistFail) (s : State) : State :=
  let s1 := startFences (failed.filter fun f => f.island < 22) (testedNow computeIslands s)
  if s1.devState == .safe then s1 else setN (O.PROC_STATE + 6) 1 (setN (O.PROC_STATE + 7) 1 s1)

/-- P0 is reached (R508): the carriers start again. -/
def p0Reached (rails : Option RailFault) (failed : List BistFail) (s : State) : State :=
  if !s.dev.waking || s.devState != .ready then s
  else
    let s1 := { s with dev := { s.dev with waking := false } }
    match rails with
    | some f => causeOfSafe 0x02 (railFails f s1)
    | none =>
      let s2 := computeBack failed s1
      if s2.devState != .ready then s2
      else startCarriers (settleSpares (settleRows (settleShut (setPower 0 s2))))

end Sys2Proof.Machine
end

