-- ==== Sys2Proof/Machine/BootOps.lean ====
section
/-! DEFINITION. From AUX to READY (R474 to R485): supply, BOOT with the persistent configuration (R41 to R44), the stage-1 loader, INIT,
and the commands that change the device state. -/

namespace Sys2Proof.Machine

/-! ### What is kept (R7, Table 19.9) -/

/-- Objects that fuses and flash hold beside the persistent configuration. -/
def inFuses (key : Nat) : Bool :=
  [O.SERIAL, O.LC_STATE, O.FW_KEY_HASH, O.FW_KEY_REVOKED, O.SVN_MIN, O.MGMT_MAC, O.BOOT_COUNT, O.CFG_SAVE_COUNT, O.REPLAN_LAST].contains key
    || (O.AGE_SLACK_T0_PS ≤ key && key < O.AGE_SLACK_T0_PS + 112)

/-- Objects the hub die's AUX domain holds beside those: the place, the power state and the emergency flags. -/
def inAux (key : Nat) : Bool := inFuses key || [O.BG_PLACE, O.PWR_STATE, O.EMERG_FLAGS].contains key

/-- The flash after power has gone while DL_CMD FLASH was writing: what the slot being written holds is left open (free value 304, R494); the
directory stays as it is. -/
def flashCut (s : State) : Device :=
  match s.dev.flashing with
  | none => s.dev
  | some img =>
    let cut := bytesLE (freeAt 304 s % 2 ^ 24) (freeAt 304 s / 2 ^ 24)
    if imageKind img = 2 then { s.dev with recovery := cut }
    else if dirSlot s = 0 then { s.dev with slotB := cut } else { s.dev with slotA := cut }

/-- The device part after power has gone: fuses and flash stay. -/
def keepFlash (s : State) : Device :=
  let d := flashCut s
  { secret := d.secret, secretGen := d.secretGen, vendorDbg := d.vendorDbg, owner := d.owner, slotA := d.slotA, slotB := d.slotB, recovery := d.recovery,
    dirA := d.dirA, dirB := d.dirB, dirNew := d.dirNew, made := d.made, macBase := d.macBase
    bist := { eqSaved := d.bist.eqSaved, eqFine := d.bist.eqSaved * 2 ^ 64 } }

/-- The persistent configuration after a loss of power: a copy being written is lost (R42). -/
def keepCfg (s : State) : Dict :=
  let d := s.dict
  let cut := d.cfgBusy != 0
  { cfgA := if cut && d.cfgNewest == 1 then { d.cfgA with valid := false } else d.cfgA
    cfgB := if cut && d.cfgNewest == 0 then { d.cfgB with valid := false } else d.cfgB
    cfgNewest := d.cfgNewest }

/-- The state with nothing but fuses, flash and what the AUX domain holds: the time base runs on, and the event log stays (R478). -/
def freshAux (s : State) : State :=
  let t := s.time
  let t0 : TimeBase := { clocks := t.clocks, base := t.base, c0 := t.c0, adj := t.adj }
  let k := keepFlash s
  { State.reset with
    devState := s.devState
    dict := { keepCfg s with objs := s.dict.objs.filter (fun p => inAux p.1), log := s.dict.log, evSeq := s.dict.evSeq }
    time := t0
    dev := { k with hot := s.dev.hot, auxPresent := s.dev.auxPresent, keyHold := s.dev.keyHold, trip := s.dev.trip }
    sent := s.sent, freeCtr := s.freeCtr + ofBool s.dev.flashing.isSome, pending := s.pending }

/-- OFF: nothing is powered. -/
def enterOff (s : State) : State :=
  { State.reset with
    dict := { keepCfg s with objs := s.dict.objs.filter fun p => inFuses p.1 }
    dev := keepFlash s
    sent := s.sent, freeCtr := s.freeCtr + ofBool s.dev.flashing.isSome, pending := s.pending }

/-! ### The persistent configuration (R41 to R44) -/

/-- The copy loaded at power-up: the newer one when it is valid, else the other. -/
def cfgCopy (s : State) : Option CfgCopy :=
  let d := s.dict
  let new := if d.cfgNewest = 0 then d.cfgA else d.cfgB
  let old := if d.cfgNewest = 0 then d.cfgB else d.cfgA
  if new.valid then some new else if old.valid then some old else none

/-- Whether an object carries the persist flag. -/
def persistKey (key : Nat) : Bool := match findDesc (key / 256) (key % 256) with | some d => d.persist | none => false

/-- The objects outside commit groups take their saved values, where these are valid. -/
def cfgPlain (saved : List (Nat × ObjVal)) (s : State) : State :=
  saved.foldl (fun u p => match findDesc (p.1 / 256) (p.1 % 256) with
    | some d => if d.persist && d.group == 0 && d.valueOk p.2 then setObj p.1 p.2 u else u
    | none => u) s

/-- One commit group takes its saved members together, if they pass its rules (R44). -/
def cfgGroup (saved : List (Nat × ObjVal)) (id : Nat) (s : State) : State :=
  let mine := saved.filter fun p => persistKey p.1 && groupOfKey p.1 == id
  if mine.isEmpty then s
  else
    let v (key : Nat) : ObjVal := match mine.find? fun p => p.1 == key with | some p => p.2 | none => getObj key s
    if (cgRule id v s).1 = 0 then mine.foldl (fun u p => setObj p.1 p.2 u) s else logEvent 0x0422 id s

/-- The persistent configuration is loaded (R41 to R44). -/
def cfgLoad (s : State) : State :=
  match cfgCopy s with
  | none => logEvent 0x0421 0 { s with dict := { s.dict with cfgBothBad := true } }
  | some c =>
    ([0x01, 0x21, 0x22, 0x23, 0x24, 0x25, 0x26, 0x27, 0x28, 0x30, 0x60] : List Nat).foldl (fun u id => cfgGroup c.saved id u)
      (cfgPlain c.saved s)

/-! ### Supply (Table 18.2) -/

/-- The module leaves the factory (R563). -/
def takeFactory (f : FactoryData) (s : State) : State :=
  if s.dev.made then s
  else
    let s1 := setB O.SVN_MIN (List.replicate 9 0#8) (setB O.FW_KEY_HASH (f.fwKeys.take 192) (setN O.MGMT_MAC (f.mgmtMac % 2 ^ 48)
      (setN O.LC_STATE 1 (setB O.SERIAL (f.serial.take 1024) s))))
    let s2 := ((f.slackT0.take 112).zipIdx).foldl (fun u p => setI (O.AGE_SLACK_T0_PS + p.2) p.1 u) s1
    { s2 with
      dict := { s2.dict with cfgA := { valid := true, saved := [(O.DEV_CERT, .bytes f.devCert)] }, cfgNewest := 0 }
      dev := { s2.dev with
        made := true, macBase := f.portMacs, vendorDbg := f.vendorDbg.take 48, slotA := f.slotA, slotB := f.slotB
        recovery := f.recovery, dirNew := 0
        dirA := { valid := true, active := f.dirSlot % 2, svnA := imgSvn f.slotA, svnB := imgSvn f.slotB }, secret := Config.deviceSecret 1, secretGen := 1 } }

/-- 3.3 V_AUX is applied (R474, R9). -/
def auxOn (place : Nat) (f : FactoryData) (s : State) : State :=
  match s.devState with
  | .off =>
    let s1 := setN O.PWR_STATE 3 (setN O.BG_PLACE place (takeFactory f s))
    enterState .aux (setN (O.PROC_STATE + 5) 1 { s1 with dev := { s1.dev with auxPresent := true } })
  | _ => { s with dev := { s.dev with auxPresent := true } }

/-- 3.3 V_AUX is lost: AUX ends, and every later state goes on under AUX_LOW (Table 18.2). -/
def auxOff (s : State) : State :=
  match s.devState with
  | .off => s
  | .aux => enterOff s
  | _ => emergSet 11 0 0 { s with dev := { s.dev with auxPresent := false } }

/-- AUX is entered from BOOT or a later state (R509, Table 19.9). -/
def enterAux (zeroOk : Bool) (s : State) : State :=
  let s1 := settleShut (freshAux (enterState .aux (zeroiseKeys (cgDropArmed s))))
  logEvent 0x6805 1 (setN (O.PROC_STATE + 5) 1 { s1 with dev := { s1.dev with keyHold := s1.dev.keyHold || !zeroOk } })

/-- 1 ms after the switch has opened (R523). -/
def switchEnds (zeroOk : Bool) (s : State) : State :=
  if !s.dev.switchOpen then s else if s.dev.auxPresent then enterAux zeroOk s else enterOff s

/-! ### BOOT (R475, R481, R519) -/

/-- The local-fabric MAC addresses take their defaults from the fused base (Table 17.12). -/
def portMacs (s : State) : State :=
  (List.range 16).foldl (fun u k => setN (O.LF_PORT_MAC + k) (fusedMac k s) u) s

/-- A thermal trip before this boot is reported (R524). -/
def tripReported (s : State) : State :=
  match s.dev.trip with
  | some (k, cc) => logEvent 0x7003 (k * 2 ^ 56 + ofSigned 32 cc) { s with dev := { s.dev with trip := none } }
  | none => s

/-- The flags that clear at the next BOOT (Table 20.6). -/
def bootFlags (s : State) : State :=
  [5, 9].foldl (fun u k => if emergFlag k u then logEvent 0x7002 (k * 2 ^ 56) (setObjBit O.EMERG_FLAGS k false u) else u) s

/-- BOOT is entered: debug is CLOSED (R504), everything but fuses, flash and the persistent configuration takes its default (R7, R475),
SEC derives its keys (R498). DESIGN CHOICE (log entry 136): at a promoted spare that is restarted without a release, SHUF_SEL and SHUF_STATE go
with the rest (R475), although R31 keeps SHUF_SEL high until the release: nothing that the restart keeps tells of the promotion. -/
def enterBoot (s : State) : State :=
  let was := getN O.DBG_STATE s
  let s1 := if was = 0 then s else logEvent 0x6802 (0xFF * 2 ^ 56 + was * 256) s
  let s2 := portMacs (freshAux (enterState .boot s1))
  let s3 := setN (O.PROC_STATE + 5) 1 (setN O.PROC_STATE 1 (addN O.BOOT_COUNT 1 s2))
  cfgLoad (tripReported (bootFlags (setN O.AGE_EQ_HOURS (s3.dev.bist.eqSaved % 2 ^ 32) s3)))

/-- The board links start training and heartbeats start: at the end of BOOT (R418, R462). -/
def crierStarts (s : State) : State :=
  let t := setN O.CR_STATE (if isSpareGw s then 2 else 1) { s with crier := { s.crier with active := true } }
  (List.range 8).foldl (fun u i => setN (O.BL_STATUS + i) (if u.dev.bist.fenced.contains (62 + i) then 0 else 1) u) t

/-- HALT in BOOT: links and heartbeats start unless the place is unknown (Table 18.2). DESIGN CHOICE (log entry 135): with PLACE_ID above 8
and another cause besides, EV-0x1021 is logged too, the other cause, which arose first, stays, and neither links nor heartbeats start. -/
def bootHalts (cause : Nat) (s : State) : State :=
  if 8 < getN O.BG_PLACE s then enterHalt cause (logEvent 0x1021 (getN O.BG_PLACE s) s)
  else crierStarts (enterHalt cause s)

/-- The 40 V input has been in range for 20 ms (R474, R519, R524). -/
def bootStarts (hot : Bool) (rails : Option RailFault) (s : State) : State :=
  if s.devState != .aux || s.dev.keyHold || (s.dev.trip.isSome && hot) then s
  else
    let t := enterBoot s
    match rails with
    | some f => bootHalts 0x17 (railFails f t)
    | none => t

/-- The stage-1 images in the order they are tried (R481): source, image and kind. -/
def stage1Sources (s : State) : List (Nat × List Byte × Nat) :=
  let a := dirSlot s
  [(a, slotImage a s, 1), (1 - a, slotImage (1 - a) s, 1), (2, s.dev.recovery, 2)]

/-- The first image that verifies; each refusal is logged (R483). -/
def stage1Try : List (Nat × List Byte × Nat) → State → Option (Nat × List Byte) × State
  | [], s => (none, s)
  | (src, img, k) :: rest, s =>
    match fwCheck [k] img s with
    | 0 => (some (src, img), s)
    | e => stage1Try rest (imageRefused img e s)

/-- SEC ROM starts the stage-1 loader (R481), or HALT follows. -/
def stage1Starts (fusesOk : Bool) (s : State) : State :=
  if s.devState != .boot || s.dev.keyHold then s
  else if !fusesOk then bootHalts 0x16 s
  else match stage1Try (stage1Sources s) s with
  | (none, t) => bootHalts 0x12 t
  | (some (src, img), t) =>
    let t1 := setN O.BOOT_SOURCE src { t with dev := { t.dev with stage1 := img } }
    let t2 := if src = dirSlot t1 then t1 else logEvent 0x1002 src t1
    if 8 < getN O.BG_PLACE t2 then bootHalts 0x11 t2
    else crierStarts (enterState .load (setN (O.PROC_STATE + 1) 1 t2))

/-- A fundamental reset of the PCIe endpoint: HALT ends in BOOT (Table 18.2); otherwise the link is lost (R472). -/
def fundamentalReset (s : State) : State := if s.devState == .halt then enterBoot (zeroiseKeys s) else linkLost s

/-- A warm restart (R475, R509). -/
def warmRestart (zeroOk : Bool) (s : State) : State :=
  let s1 := logEvent 0x6805 1 (linkLost (zeroiseKeys (cgDropArmed s)))
  enterBoot { s1 with dev := { s1.dev with keyHold := s1.dev.keyHold || !zeroOk } }

/-! ### INIT (R485, Table 18.8) -/

/-- DL_CMD DONE is accepted when every required kind is loaded. -/
def doneCheck (sess : Nat) (s : State) : Nat :=
  if sess ≠ 8 then 0x19 else if s.devState != .load then 0x30 else if getN O.DL_KINDS s % 128 ≠ 127 then 0x14 else 0

/-- INIT is entered: the runtime images start. -/
def doneEffect (s : State) : State :=
  setN O.CRATE_STRICT 1 ((List.range 6).foldl (fun u p => setN (O.PROC_STATE + p) 1 u) (enterState .init s))

/-- Bit k of INIT_PROGRESS. -/
def initDone (k : Nat) (s : State) : Bool := bitOf (getN O.INIT_PROGRESS s) k

/-- Whether a step of INIT is in progress: 1 to 4 in order, 5 to 7 from the end of 4. -/
def initRuns (k : Nat) (s : State) : Bool :=
  s.devState == .init && !initDone k s && 1 ≤ k && k ≤ 7 && (k == 1 || (if k ≤ 4 then initDone (k - 1) s else initDone 4 s))

/-- READY is entered (Table 18.2): CRATE_STRICT is cleared, and self-test begins its first cycle. -/
def readyEnters (s : State) : State :=
  let s1 := readyRelease (enterState .ready s)
  showProgress (settleSpares (modBist (fun b => { b with cycleClk := s1.time.clocks }) s1))

/-- A step is complete; the last of them leads to READY. -/
def initMarks (k : Nat) (s : State) : State :=
  let t := setObjBit O.INIT_PROGRESS k true s
  if initDone 5 t && initDone 6 t && initDone 7 t then readyEnters t else t

/-- Whether the condition of steps 5 to 7 holds. -/
def initCond (k : Nat) (s : State) : Bool :=
  match k with
  | 5 => (List.range 16).all fun p => !fabExists p s || fabFenced p s || (getFab p s).lst == 2 || (getFab p s).retried
  | 6 => (List.range 8).all fun c => !carEnabled c s || (match (getCar c s).cstate with | .probing | .active | .down => true | _ => false)
  | 7 => stampValid s
  | _ => true

/-- What a step does as it completes, given the failures found in it. -/
def initWork (k : Nat) (failed : List BistFail) (s : State) : State :=
  match k with
  | 1 => startFences failed (testedNow (List.range 112) s)
  | 3 => setN (O.PROC_STATE + 6) 1 (setN (O.PROC_STATE + 7) 1 s)
  | 4 => startCarriers (fabricUp s)
  | _ => s

/-- A step of INIT completes. -/
def initCompletes (k : Nat) (failed : List BistFail) (hbm : List (Fin 6)) (s : State) : State :=
  if !initRuns k s || !initCond k s then s
  else if k = 2 ∧ !hbm.isEmpty then enterHalt 0x14 s
  else
    let t := initWork k failed s
    if t.devState == .init then initMarks k t else t

/-- A step of INIT reaches its limit. -/
def initLimit (k : Nat) (failed : List BistFail) (s : State) : State :=
  if !initRuns k s || k == 4 then s
  else if k = 7 then initMarks 7 (logEvent 0x100C (getN O.TIME_STATE s) s)
  else
    let s1 := logEvent 0x100A k s
    if k = 2 then enterHalt 0x14 s1
    else
      let t := initWork k failed s1
      if t.devState == .init then initMarks k t else t

/-! ### DEV_CMD (R474 to R477) -/

/-- Whether the gateway may enter service at all (R504, R510). -/
def trusted (s : State) : Bool := getN O.DBG_STATE s == 0 && (getN O.LC_STATE s == 1 || getN O.LC_STATE s == 2)

/-- Whether READY may be left for SERVICE or LINE_HOLD (Table 18.2): feature 0, power state P0, enough peers (R425), and no spare that
serves no place (R15). -/
def mayServe (s : State) : Bool := featActive 0 s && getN O.PWR_STATE s == 0 && enoughPeers s && trusted s && !spareIdle s

/-- COL is being activated. -/
def colActivates (s : State) : Bool := s.dev.actKind == some 0x15 && (s.dev.actLeft.length != 0
  || getN (O.PROC_STATE + 6) s == 3 || getN (O.PROC_STATE + 7) s == 3)

/-- A DEV_CMD is accepted (Table 18.2). -/
def devCmdCheck (v : Nat) (s : State) : Nat :=
  let ok (b : Bool) : Nat := if b then 0 else 0x30
  let holding := s.devState == .lineHold && s.dev.returning.isNone
  match v with
  | 1 => ok ((s.devState == .ready && mayServe s) || (holding && trusted s))
  | 2 => ok (((s.devState == .ready && mayServe s) || s.devState == .service) && mayHoldLine s && !colActivates s)
  | 3 => ok ((s.devState == .service || holding) && mayLeave s)
  | 4 => ok ((inService s || s.devState == .safe) && s.dev.flashing.isNone && s.dict.cfgBusy == 0)
  | 5 => ok (inService s || s.devState == .init)
  | _ => 0x14

/-- LINE_HOLD is entered (R476): the compute dies are gated, and what they held is lost. -/
def enterLineHold (s : State) : State :=
  let s1 := abandonSlices (fun z => z.island < 22) (enterState .lineHold s)
  setN (O.PROC_STATE + 6) 0 (setN (O.PROC_STATE + 7) 0 (loseCompute s1))

/-- The effect of a DEV_CMD. -/
def devCmdEffect (v : Nat) (zeroOk : Bool) (s : State) : State :=
  let back (d : DevState) : State := { s with dev := { s.dev with returning := some d } }
  match v with
  | 1 => if s.devState == .lineHold then back .service else enterState .service s
  | 2 => enterLineHold s
  | 3 => if s.devState == .lineHold then back .ready else leaveService s
  | 4 => warmRestart zeroOk s
  | _ => causeOfSafe 0x06 s

/-- The compute dies have returned (R476): LINE_HOLD ends. -/
def computeReturns (rails : Option RailFault) (failed : List BistFail) (s : State) : State :=
  match s.dev.returning with
  | none => s
  | some d =>
    if s.devState != .lineHold then s
    else
      let s1 := { s with dev := { s.dev with returning := none } }
      match rails with
      | some f => causeOfSafe 0x02 (railFails f s1)
      | none =>
        let s2 := computeBack failed s1
        if s2.devState != .lineHold then s2
        else
          let s3 := if d == .ready then leaveService s2 else enterState .service s2
          settleSpares (settleRows s3)

end Sys2Proof.Machine
end

