-- ==== Sys2Proof/Machine/SecurityOps.lean ====
section
/-! DEFINITION. Challenges (R502, R503), lifecycle (R501), debug (R504), fuses (R500), LKEK_PEER (R499) and attestation (R512). -/

namespace Sys2Proof.Machine

/-- SEC runs (Table 16.10). -/
def secUp (s : State) : Bool := procUp 0 s

/-! ### Challenges -/

/-- What a purpose needs in a lifecycle state (Table 19.5). -/
inductive PurposeRule where
  | refused
  | granted
  | signed (hash : List Byte)
  deriving DecidableEq, Repr

/-- The owner's two key hashes. -/
def ownerUnlock (s : State) : List Byte := s.dev.owner.take 48
def ownerDebug (s : State) : List Byte := (s.dev.owner.drop 48).take 48

/-- Table 19.5. -/
def purposeRule (purpose sess : Nat) (s : State) : PurposeRule :=
  let pf : PurposeRule := if sess = 8 then .granted else .refused
  let vendor : PurposeRule := .signed s.dev.vendorDbg
  match purpose, getN O.LC_STATE s with
  | 1, 0 => .granted
  | 1, 1 => pf
  | 1, 2 => .signed (ownerUnlock s)
  | 1, 3 => vendor
  | 2, 1 => vendor
  | 2, 2 => .signed (ownerDebug s)
  | 2, 3 => vendor
  | 3, 0 => pf
  | 3, 3 => vendor
  | 4, 1 => vendor
  | 4, 2 => .signed (ownerUnlock s)
  | _, _ => .refused

/-- A session holds a purpose: an unlock for UNLOCK (R40), a challenge passed for the others. -/
def grantPurpose (purpose sess : Nat) (s : State) : State :=
  if purpose = 1 then setSess sess { getSess sess s with unlocked := true } s
  else { s with dev := { s.dev with passed := s.dev.passed.filter (· != (sess, purpose)) ++ [(sess, purpose)] } }

/-- Whether a session has passed a purpose. -/
def hasPassed (sess purpose : Nat) (s : State) : Bool := s.dev.passed.contains (sess, purpose)

/-- A write of SEC_CHAL_REQ is accepted. -/
def chalCheck (sess v : Nat) (s : State) : Nat :=
  if v < 1 || 4 < v then 0x14
  else if !secUp s || s.dev.locked.contains v then 0x30
  else match purposeRule v sess s with | .refused => 0x19 | _ => 0

/-- Store a session's challenge. -/
def setChallenge (sess : Nat) (c : Option (Nat × List Byte × Nat)) (s : State) : State :=
  { s with dev := { s.dev with challenges := smPut (fun _ => (none : Option (Nat × List Byte × Nat))) sess c s.dev.challenges } }

/-- A session's challenge. -/
def getChallenge (sess : Nat) (s : State) : Option (Nat × List Byte × Nat) :=
  smGet (fun _ => (none : Option (Nat × List Byte × Nat))) sess s.dev.challenges

/-- A purpose is granted at once, or a nonce from SEC's generator is held for the session (free value 79). -/
def chalEffect (sess v : Nat) (s : State) : State :=
  match purposeRule v sess s with
  | .granted => grantPurpose v sess s
  | .signed _ => setChallenge sess (some (v, bytesLE 32 (freeAt 79 s % 2 ^ 256), s.time.clocks)) (freeNext s)
  | .refused => s

/-- The signed message (Table 19.4). -/
def chalMessage (purpose sess : Nat) (nonce : List Byte) (s : State) : List Byte :=
  bytesBE 4 0x4E4C5953 ++ bytesBE 1 purpose ++ bytesBE 1 sess ++ bytesBE 1 (getN O.LC_STATE s) ++ [0#8] ++ nonce
    ++ padTo 24 (getB O.SERIAL s)

/-- Whether a response answers a session's challenge: the fused key, a valid signature, within 60 s. -/
def responseGood (sess : Nat) (bs : List Byte) (s : State) : Bool :=
  match getChallenge sess s with
  | none => false
  | some (purpose, nonce, clk) =>
    match purposeRule purpose sess s with
    | .signed h =>
      decide (s.time.clocks ≤ clk + 60 * clkSec) && sha384 (bs.take 97) == h && !h.isEmpty
        && ecdsaOk (bs.take 97) (sha384 (chalMessage purpose sess nonce s)) ((bs.drop 97).take 96)
    | _ => false

/-- A response failed (R503): three for one purpose within 60 s lock it out. -/
def chalFailed (sess purpose : Nat) (s : State) : State :=
  let s1 := logEvent 0x6803 (sess * 2 ^ 56 + purpose) s
  let ts := (smGet (fun _ => ([] : List Nat)) purpose s.dev.failures ++ [s.time.clocks]).filter fun c =>
    decide (s.time.clocks < c + 60 * clkSec)
  let keep (xs : List Nat) (u : State) : State :=
    { u with dev := { u.dev with failures := smPut (fun _ => ([] : List Nat)) purpose xs u.dev.failures } }
  if 3 ≤ ts.length then
    let s2 := keep [] s1
    logEvent 0x6804 purpose { s2 with dev := { s2.dev with locked := s2.dev.locked.filter (· != purpose) ++ [purpose] } }
  else keep ts s1

/-- A write of SEC_RESPONSE is taken. -/
def respCheck (sess : Nat) (bs : List Byte) (s : State) : Nat :=
  if bs.length ≠ 193 then 0x13
  else if !secUp s then 0x30
  else match getChallenge sess s with
  | some (p, _, _) => if s.dev.locked.contains p then 0x30 else 0
  | none => 0

/-- A response: its challenge is used up, and grants its purpose or counts a failure; the purpose of a response to no challenge is
left open (free value 79). -/
def respEffect (sess : Nat) (bs : List Byte) (s : State) : State :=
  match getChallenge sess s with
  | some (p, _, _) =>
    let t := setChallenge sess none s
    if responseGood sess bs s then grantPurpose p sess t else chalFailed sess p t
  | none => freeNext (logEvent 0x6803 (sess * 2 ^ 56 + freeAt 79 s % 256) s)

/-- 60 s after a lock-out (R503). -/
def lockoutEnds (purpose : Nat) (s : State) : State := { s with dev := { s.dev with locked := s.dev.locked.filter (· != purpose) } }

/-! ### Lifecycle (Table 19.3) -/

/-- The ATTK public key the module will have as PROVISIONED: SEC computes it ahead (R501). -/
def attkAhead (s : State) : List Byte :=
  let secret := (Config.deviceSecret (s.dev.secretGen + 1) ++ List.replicate 32 0#8).take 32
  publicOf (p384Private (kdf384 secret 0x4154544B 1 56))

/-- Whether SEC finds that the chain in DEV_CERT certifies the ATTK key to be, where no command brings its finding. Log entry 75. -/
def chainFound (s : State) : Bool := Config.certifies (getB O.DEV_CERT s) (attkAhead s)

/-- A LC_CMD is accepted. -/
def lcCheck (chainOk : Bool) (v sess : Nat) (s : State) : Nat :=
  let ok (b : Bool) : Nat := if b && secUp s then 0 else 0x30
  let lc := getN O.LC_STATE s
  match v with
  | 1 => ok (lc == 0 && !(getB O.FW_KEY_HASH s).isEmpty && !s.dev.vendorDbg.isEmpty && !(getB O.SERIAL s).isEmpty
      && getN O.DBG_STATE s == 0 && chainOk)
  | 2 => ok (lc == 1 && (getB O.LC_OWNER s).length == 96 && s.devState == .ready)
  | 3 => ok ((lc == 1 || lc == 2) && hasPassed sess 4 s && (s.devState == .ready || s.devState == .safe || s.devState == .halt))
  | _ => 0x14

/-- The new lifecycle state is burnt, and a warm restart follows (R501). -/
def lcBurn (lc : Nat) (zeroOk : Bool) (s : State) : State :=
  warmRestart zeroOk (logEvent 0x6801 (getN O.LC_STATE s * 256 + lc) (setN O.LC_STATE lc s))

/-- The effect of a LC_CMD. -/
def lcEffect (v : Nat) (zeroOk : Bool) (s : State) : State :=
  match v with
  | 1 =>
    let g := s.dev.secretGen + 1
    lcBurn 1 zeroOk { s with dev := { s.dev with secret := Config.deviceSecret g, secretGen := g } }
  | 2 => lcBurn 2 zeroOk { s with dev := { s.dev with owner := getB O.LC_OWNER s } }
  | _ => lcBurn 3 zeroOk { s with dict := { s.dict with cfgA := {}, cfgB := {}, cfgNewest := 0, cfgBusy := 0 } }

/-! ### Debug (R504) -/

/-- A DBG_CMD is accepted. -/
def dbgCheck (v sess : Nat) (s : State) : Nat :=
  let ok (b : Bool) : Nat := if b && secUp s then 0 else 0x30
  let d := getN O.DBG_STATE s
  match v with
  | 1 => ok (d == 0 && hasPassed sess 2 s && (s.devState == .ready || s.devState == .safe || s.devState == .halt))
  | 2 => ok ((d == 0 || d == 1) && hasPassed sess 3 s && !(s.devState == .service || s.devState == .lineHold))
  | 3 => 0
  | _ => 0x14

/-- The debug state changes (R504): entering debug zeroises the line keys first. -/
def dbgTo (d sess : Nat) (s : State) : State :=
  let was := getN O.DBG_STATE s
  if was = d then s
  else
    let s1 := if d = 0 then s else logEvent 0x6805 2 (lineSettle (zeroiseKeys s))
    logEvent 0x6802 (sess * 2 ^ 56 + was * 256 + d) (setN O.DBG_STATE d s1)

/-- The effect of a DBG_CMD: OPEN derives the keys again, CLOSE lets every halted processor run. -/
def dbgEffect (v sess : Nat) (s : State) : State :=
  match v with
  | 1 => dbgTo 1 sess s
  | 2 =>
    let t := dbgTo 2 sess s
    { t with dev := { t.dev with keyOpen := true } }
  | _ => (List.range 8).foldl (fun u p => procResumes p u) (dbgTo 0 sess s)

/-! ### Fuses (R500) -/

/-- The images a fuse command looks at: the image store's, and the one in the active stage-1 slot. -/
def heldImages (s : State) : List (List Byte) :=
  ((storeKinds.map fun k => storedImage k s) ++ [slotImage (dirSlot s) s]).filter fun i => !i.isEmpty

/-- A FUSE_CMD is accepted. -/
def fuseCheck (v : Nat) (s : State) : Nat :=
  let kind := field v 23 16
  let low := v % 256
  let lc := getN O.LC_STATE s
  let gate (e : Nat) : Nat := if e = 0x14 then e else if !secUp s || !(lc == 1 || lc == 2) then 0x30 else e
  match v / 2 ^ 24 with
  | 1 =>
    let left := (List.range 4).filter fun k => !bitOf (getN O.FW_KEY_REVOKED s) k
    gate (if 3 < low then 0x14
      else if (heldImages s).any (fun i => (i.getD 7 0).toNat == low) || left == [low] then 0x30 else 0)
  | 2 =>
    gate (if (svnIdx kind).isNone || 63 < low || low < svnMin kind s then 0x14
      else if (heldImages s).any fun i => imageKind i == kind && decide (imgSvn i < low) then 0x30 else 0)
  | _ => 0x14

/-- The effect of a FUSE_CMD. -/
def fuseEffect (v : Nat) (s : State) : State :=
  let low := v % 256
  let t := match v / 2 ^ 24 with
    | 1 => setN O.FW_KEY_REVOKED (setBit (getN O.FW_KEY_REVOKED s) low) s
    | _ => (match svnIdx (field v 23 16) with
      | some i => setB O.SVN_MIN ((getB O.SVN_MIN s).set i (BitVec.ofNat 8 low)) s
      | none => s)
  logEvent 0x6806 v t

/-! ### LKEK_PEER (R499) -/

/-- A write of LKEK_PEER: empty, or a public key of 97 bytes that is a point of the curve. -/
def peerCheck (bs : List Byte) : Nat :=
  if bs.isEmpty then 0 else if bs.length ≠ 97 then 0x13 else if (p384Point bs).isNone then 0x14 else 0

/-! ### Attestation (R512) -/

/-- An ECDSA signature over a digest with private key `d` and per-message number `k` (FIPS 186-5). -/
def ecdsaSign (d k : Nat) (digest : List Byte) : List Byte :=
  let r := match p384Mul k p384g with | some (x, _) => x % p384n | none => 0
  let e := natOfBE (digest.take 48)
  bytesBE 48 r ++ bytesBE 48 (invMod p384n k * (e + r * d) % p384n)

/-- The entry of an image in the report. -/
def reportImage (img : List Byte) : List Byte := bytesLE 4 (imgVersion img) ++ bytesLE 1 (imgSvn img) ++ List.replicate 3 0#8 ++ padTo 48 (imgB img 32 48)

/-- The report without its signature (Table 19.10). -/
def reportHead (nonce : List Byte) (s : State) : List Byte :=
  bytesLE 4 0x4E4C4154 ++ bytesLE 2 1 ++ bytesLE 1 (getN O.LC_STATE s) ++ bytesLE 1 (getN O.DBG_STATE s) ++ bytesLE 1 (getN O.PWR_STATE s)
    ++ bytesLE 1 s.devState.code ++ bytesLE 1 (getN O.BG_PLACE s) ++ bytesLE 1 (getN O.FW_KEY_REVOKED s % 16)
    ++ bytesLE 4 (getN O.BOOT_COUNT s) ++ padTo 32 nonce ++ padTo 32 (getB O.SERIAL s)
    ++ bytesLE 8 (getN O.FEAT_ACTIVE s) ++ bytesLE 8 (getN (O.FEAT_ACTIVE + 1) s)
    ++ (storeKinds.flatMap fun k => reportImage (storedImage k s)) ++ padTo 48 (imgB s.dev.stage1 32 48)

/-- A write of ATT_NONCE is taken. -/
def nonceCheck (bs : List Byte) (s : State) : Nat := if bs.length ≠ 32 then 0x13 else if secUp s then 0 else 0x30

/-- The report is built and signed under ATTK; the signature's per-message number is SEC's own (free value 80). -/
def nonceEffect (sess : Nat) (bs : List Byte) (s : State) : State :=
  let head := reportHead bs s
  let sig := ecdsaSign (derivedPrivate 0x4154544B s) (freeAt 80 s % (p384n - 1) + 1) (sha384 head)
  freeNext { s with dev := { s.dev with reports := smPut (fun _ => ([] : List Byte)) sess (head ++ sig) s.dev.reports } }

end Sys2Proof.Machine
end

