-- ==== Sys2Proof/Machine/RopView.lean ====
section
/-! DEFINITION. What a READ finds: the objects that are views of other parts of the state, in the byte order of the reading
source (R35, R73, R74 and the object tables of every chapter). -/

namespace Sys2Proof.Machine

/-- The bytes of a number in a source's byte order (R4, R5). -/
def bytesOrd (be : Bool) (n v : Nat) : List Byte := if be then bytesBE n v else bytesLE n v

/-- The number bytes stand for in a source's byte order. -/
def natOfOrd (be : Bool) (bs : List Byte) : Nat := if be then natOfBE bs else natOfLE bs

/-- The bytes of an object's value (Table 2.2). -/
def ObjDesc.encode (d : ObjDesc) (be : Bool) (v : ObjVal) : List Byte :=
  match d.ty.size with
  | some n => bytesOrd be n v.toNat
  | none => v.toBytes

/-! ### The directory (R73) -/

/-- The keys of one row's objects. -/
def ObjDesc.keys (d : ObjDesc) : List Nat :=
  (List.range (d.idxHi + 1 - d.idxLo)).flatMap fun i => (List.range (d.subHi + 1 - d.subLo)).map fun j => objKey (d.idxLo + i) (d.subLo + j)

/-- The keys of the objects at subindex 0x00 of a row's indices (R33); none for an index whose only object is there. -/
def ObjDesc.countKeys (d : ObjDesc) : List Nat :=
  if d.subLo = 1 then (List.range (d.idxHi + 1 - d.idxLo)).map fun i => objKey (d.idxLo + i) 0 else []

/-- Every object, by index and subindex. -/
def allKeys : List Nat := (objTable.flatMap fun d => d.keys ++ d.countKeys).mergeSort

/-- A directory entry (Table 2.15). -/
def dirEntry (be : Bool) (key : Nat) : List Byte :=
  match lookupObj (key / 256) (key % 256) with
  | .error _ => []
  | .ok d =>
    let dflt := match d.ty with
      | .str | .blob => 0
      | _ => if key / 256 = 0x1051 then cgDetailDefault (key % 256) else (d.default (key / 256) (key % 256)).toNat
    bytesOrd be 2 (key / 256) ++ bytesLE 1 (key % 256) ++ bytesLE 1 d.ty.code ++ bytesLE 1 d.acc.code ++ bytesLE 1 (d.groupAt (key / 256))
      ++ bytesLE 1 (ofBool d.persist + 2 * ofBool d.tvis + 16 * ofBool d.feature.isSome) ++ bytesLE 1 (d.feature.getD 0)
      ++ bytesOrd be 8 dflt

/-- The event-log objects of R71, wherever they lie (log entry 13). -/
def eventLogKeys : List Nat :=
  ((List.range 0x800).flatMap fun i => (List.range 256).map fun j => objKey (0x8000 + i) j).filter fun k =>
    Config.isEventLogObj (k / 256) (k % 256)

/-- The directory entry of an event-log object: read only, and a BLOB in this model (log entry 13). -/
def eventLogEntry (be : Bool) (key : Nat) : List Byte :=
  bytesOrd be 2 (key / 256) ++ bytesLE 1 (key % 256) ++ bytesLE 1 ObjType.blob.code ++ bytesLE 1 Access.ro.code ++ List.replicate 11 0#8

/-- DIRECTORY (R73): every object some source may read or write in the present device state (Table 2.4), in order. -/
def directory (be : Bool) (s : State) : List Byte :=
  let logs := eventLogKeys
  let keys := (allKeys.filter fun k => !logs.contains k) ++ logs
  (keys.mergeSort.filter fun k => readServed (k / 256) s || writeServed (k / 256) (k % 256) s).flatMap fun k =>
    if logs.contains k then eventLogEntry be k else dirEntry be k

/-! ### Compute, crates and porters -/

/-- The codes of Table 5.14. -/
def StallState.code : StallState → Nat
  | .idle => 0 | .running => 1 | .spare => 2 | .testing => 3 | .moving => 4 | .fenced => 5 | .clearing => 6

/-- STALL_STATUS (Table 5.14). -/
def stallStatus (k : Nat) (s : State) : Nat :=
  let x := getStall k s
  let gen := if x.tag = 0xFF || x.sstate == .idle then 0 else (getUnit x.tag s).gen
  let tag := if x.sstate == .idle then 0xFF else x.tag
  x.sstate.code * 2 ^ 60 + x.placement % 65536 * 2 ^ 40 + x.unit % 256 * 2 ^ 32 + tag % 256 * 2 ^ 24 + gen % 256 * 2 ^ 16
    + x.tenant % 64 * 2 ^ 10 + x.lastCause % 64 * 2 ^ 4

/-- STALLS_AVAILABLE. -/
def stallsAvailable (s : State) : Nat :=
  ((List.range 128).filter fun k => (getStall k s).sstate == .idle || (getStall k s).sstate == .running).length

/-- TALLY_FREE_COUNT: the 31,744 allocatable tallies but those in blocks (R163). -/
def tallyFreeCount (s : State) : Nat := 31744 - s.comp.blocks.foldl (fun n b => n + b.size) 0

/-- PROG_LIST. -/
def progList (be : Bool) (s : State) : List Byte := s.comp.programs.flatMap fun p => bytesOrd be 4 p.progId ++ bytesOrd be 4 p.codeCrc

/-- The codes of Table 9.10. -/
def ChanState.code : ChanState → Nat
  | .idle => 0 | .run => 1 | .wait => 2 | .stop => 3 | .fault => 4 | .stopping => 5

def ChanOwner.code : ChanOwner → Nat
  | .none => 0 | .unit => 1 | .host => 2 | .engine => 3

/-- PORTER_CH_STATUS (Table 9.10). -/
def chanStatus (c : Nat) (s : State) : Nat :=
  let x := getChan c s
  x.cstate.code * 2 ^ 60 + x.owner.code * 2 ^ 56 + x.cause % 256 * 2 ^ 48 + x.tenant % 64 * 2 ^ 42 + x.tag % 256 * 2 ^ 32
    + x.gen % 256 * 2 ^ 24 + x.pc % 2 ^ 24

/-- HBM_MAP: base and size of the regions of Table 8.1. -/
def hbmMap (be : Bool) (s : State) : List Byte :=
  let g := getN O.HBM_RESEND_GIB s
  ([0, 8 * gib, 8 * gib, 4 * gib, resendBase, g * gib, optBaseOf g, optSizeOf g] : List Nat).flatMap fun v => bytesOrd be 8 v

/-- CRATE_POOL_STAT (Table 8.7). -/
def poolStat (cls : Nat) (s : State) : Nat :=
  let waiting := (s.pools.waiting.filter fun w => w.cls == cls).length
  classCount cls s % 2 ^ 20 * 2 ^ 44 + classFree cls s % 2 ^ 20 * 2 ^ 24 + min 0xFFF waiting * 2 ^ 12

/-- CRATE_META (Table 8.8). -/
def crateMeta (h : Nat) (s : State) : Nat :=
  if !handleValid h s then 3 * 2 ^ 54
  else
    let c := getCrate h s
    c.refs % 256 * 2 ^ 56 + c.rstate % 4 * 2 ^ 54 + ofBool c.dnt * 2 ^ 53 + ofBool c.poison * 2 ^ 52 + c.owner % 65536 * 2 ^ 32
      + c.tenant % 64 * 2 ^ 26

/-- The FIFOs of the device: those of the eight board links and others, whose number the spec does not give (free value 81). -/
def fifoCount : Nat := 8 + Config.freeValue 81 0 % 65272

/-- The number of record `k` of FIFO_TABLE; 0x100 to 0x107 are the board links' (log entry 45). -/
def fifoNumber (k : Nat) : Nat := if k < 8 then 0x100 + k else if k < 264 then k - 8 else k

/-- A record of FIFO_TABLE (Table 8.9): the islands of a FIFO are hardware's own (free value 81). -/
def fifoRecord (be : Bool) (k : Nat) (s : State) : List Byte :=
  let n := fifoNumber k
  let f := getFifo n s
  let m := fifoMarks n s
  bytesOrd be 2 n ++ bytesLE 1 (Config.freeValue 81 (8 * n + 2) % 112) ++ bytesLE 1 (Config.freeValue 81 (8 * n + 3) % 112)
    ++ bytesLE 1 (fifoDepth n) ++ bytesLE 1 (fifoLanes n) ++ bytesLE 1 m.1 ++ bytesLE 1 m.2 ++ bytesLE 1 f.peak
    ++ bytesLE 1 (ofBool f.hold + 2 * ofBool f.dropping) ++ [0#8, 0#8] ++ bytesOrd be 4 f.parityErrs

/-! ### Groups -/

/-- GRP_DESC: the applied descriptor (Table 3.9). -/
def groupDesc (be : Bool) (g : Nat) (s : State) : List Byte :=
  let x := getGroup g s
  if x.gstate = 0 then []
  else
    bytesLE 1 x.tenant ++ bytesOrd be 4 x.members ++ x.ring.map (BitVec.ofNat 8) ++ List.replicate (32 - x.ring.length) 0xFF#8
      ++ padTo 64 (x.relay.flatMap fun p => [BitVec.ofNat 8 p.1, BitVec.ofNat 8 p.2]) ++ bytesOrd be 4 x.crossover ++ bytesOrd be 4 x.chunk
      ++ bytesLE 1 x.dirs ++ bytesOrd be 2 x.quotaMib ++ bytesOrd be 2 x.waitMs ++ bytesOrd be 4 x.timeoutMs ++ bytesOrd be 2 x.chunkWaitMs

/-! ### Islands (Table 20.11) -/

/-- The die code of an island. -/
def islandDie (i : Nat) : Nat :=
  if i < 8 ∨ (16 ≤ i ∧ i ≤ 18) then 0
  else if i ≤ 21 then 1
  else if i ≤ 37 ∨ (54 ≤ i ∧ i ≤ 57) ∨ (62 ≤ i ∧ i ≤ 65) ∨ (70 ≤ i ∧ i ≤ 77) ∨ i = 86 then 2
  else if i ≤ 53 ∨ (58 ≤ i ∧ i ≤ 61) ∨ (66 ≤ i ∧ i ≤ 69) ∨ (78 ≤ i ∧ i ≤ 85) then 3
  else if 87 ≤ i ∧ i ≤ 94 then 5 + (i - 87)
  else 4

/-- The clock of an island in MHz; free where the spec names it without a frequency in whole MHz (free value 83). -/
def islandMhz (i : Nat) (s : State) : Nat :=
  if i < 16 then getN (O.ROW_FREQ_ACT + i) s
  else if i = 17 ∨ i = 20 ∨ i = 74 ∨ i = 82 ∨ (107 ≤ i ∧ i ≤ 110) then 2000
  else if i ≤ 21 then 1400
  else if i ≤ 53 then
    (match (i - 22) % 4 with
      | 2 => 1600
      | 3 => 1400
      | r => Config.freeValue 83 (i * 16 + (getCar ((i - 22 - r) / 4) s).runMode) % 65536)
  else if i ≤ 69 ∨ i = 102 then Config.freeValue 83 (i * 16) % 65536
  else if i = 73 ∨ i = 81 ∨ i = 86 then 1000
  else if (75 ≤ i ∧ i ≤ 77) ∨ (83 ≤ i ∧ i ≤ 85) then 1600
  else if i ≤ 85 then 1400
  else if i ≤ 94 then 200
  else if i ≤ 98 then 800
  else if i = 99 then 1250
  else if i ≤ 101 then 500
  else if i = 103 then 125
  else if i = 105 ∨ i = 106 then 400
  else 100

/-- ISLAND_TABLE (Table 20.13). -/
def islandTable (be : Bool) (s : State) : List Byte :=
  (List.range 112).flatMap fun i =>
    bytesLE 1 i ++ bytesLE 1 (islandDie i) ++ bytesOrd be 2 (islandMhz i s)
      ++ bytesLE 1 (ofBool (islandCritical i) + 2 * ofBool (decide (i < 16))) ++ [0#8, 0#8, 0#8]

/-! ### Every view -/

/-- The session bits of SESSIONS. -/
def sessionMask (s : State) : Nat := (List.range 8).foldl (fun v n => if (getSess n s).isOpen then v + 2 ^ n else v) 0

/-- Views of the dictionary and of identity (Tables 2.16 and 18.14). -/
def viewDict (be : Bool) (sess key : Nat) (s : State) : Option ObjVal :=
  match key / 256, key % 256 with
  | 0x1030, 1 => some (.num s.devState.code)
  | 0x1040, 4 => some (.num (sessionMask s))
  | 0x1040, 5 => some (.num (getSess sess s).lost)
  | 0x1050, id => some (.num (cgStatus id s))
  | 0x1051, id => some (.num (cgDetail id s))
  | 0x1060, 2 => some (.num (ofBool s.dict.cfgBothBad + 2 * ofBool (s.dict.cfgBusy != 0)))
  | 0x1070, 1 => some (.bytes (directory be s))
  | _, _ => none

/-- Views of the line, its keys, the fabric and the collective groups. -/
def viewLine (be : Bool) (key : Nat) (s : State) : Option ObjVal :=
  let sub := key % 256
  match key / 256 with
  | 0x2020 => some (.num (lpFarId (sub - 1) s))
  | 0x2030 => some (.num (carStatus (sub - 1) s))
  | 0x2040 => if sub = 2 then some (.num (laserSpareState s)) else none
  | 0x2041 => some (.num (laserStatus (sub - 1) s))
  | 0x2113 => some (.num (rxCarrierId (sub - 1) s))
  | 0x2114 => some (.num ((getCar (sub - 1) s).fseq % 2 ^ 48))
  | 0x2120 => some (.bytes ((getCar (sub - 1) s).records.getLastD []))
  | 0x2121 => some (.bytes (getCar (sub - 1) s).records.flatten)
  | 0x2820 =>
    some (.num (if sub ≤ 4 then keyTxState (sub - 1) s else keyRxState (sub - 5) s))
  | 0x2821 =>
    if sub ≤ 4 then none else some (.num (if sub ≤ 8 then keyTxNextId (sub - 5) s else keyRxNextId (sub - 9) s))
  | 0x2824 => some (.num (spareKeyMap (sub - 1) s))
  | 0x3010 => some (.num (lfPortStatus (sub - 1) s))
  | 0x3011 => some (.num (getFab (sub - 1) s).uncorr)
  | 0x3050 => if sub = 10 then some (.bytes (blMsgRx be s)) else none
  | 0x3820 => some (.num (0x40 + getN O.BG_PLACE s))
  | 0x4000 =>
    if sub = 1 then some (.num (heldTotal s))
    else if sub = 2 then some (.num (max (getN O.COLL_UNEXP_PEAK s) (heldTotal s)))
    else if sub = 3 then some (.num (s.coll.colls.filter fun c => !c.isFinal).length) else none
  | 0x4800 => if sub = 7 then some (.num (rangeDigest s)) else none
  | 0x4820 =>
    if sub = 11 then some (.num (optSizeOf (getN O.HBM_RESEND_GIB s)))
    else if sub = 12 then some (.num (if (getB O.OS_TABLE s).isEmpty then 0 else osNeed (osEntries s))) else none
  | idx =>
    if idx < 0x4400 ∨ 0x47FF < idx then none
    else
      let g := idx - 0x4400
      let x := getGroup g s
      match sub with
      | 1 => some (.num x.gstate)
      | 2 => some (.num x.epoch)
      | 3 => some (.num (x.maxSeq.getD 0))
      | 4 => some (.num x.present)
      | 9 => some (.num (heldBytes g s))
      | 10 => some (.bytes (groupDesc be g s))
      | _ => none

/-- Views of stalls, tallies, porters and crates. -/
def viewCompute (be : Bool) (key : Nat) (s : State) : Option ObjVal :=
  let sub := key % 256
  match key / 256 with
  | 0x5000 => if sub = 4 then some (.num (stallsAvailable s)) else if sub = 10 then some (.num (tallyFreeCount s)) else none
  | 0x5020 => some (.num (stallStatus (sub - 1) s))
  | 0x5030 => if sub ≤ 128 then some (.bytes ((List.range 4).flatMap fun k => histBytes (sub - 1) k s)) else none
  | 0x5040 => if sub = 3 then some (.num s.comp.programs.length) else if sub = 4 then some (.bytes (progList be s)) else none
  | 0x5050 => if sub ≤ 16 then some (.bytes (xcTable (sub - 1) s)) else some (.num (xcDigest s))
  | 0x5800 => if sub = 7 then some (.bytes (hbmMap be s)) else none
  | 0x5810 => some (.num (poolStat sub s))
  | 0x5820 => if sub = 2 then some (.num (crateMeta (getN O.CRATE_QUERY s) s)) else none
  | 0x5880 =>
    (match sub with
      | 1 => some (.num fifoCount)
      | 2 => some (.bytes ((List.range fifoCount).flatMap fun k => fifoRecord be k s))
      | _ => none)
  | idx =>
    if 0x5100 ≤ idx ∧ idx ≤ 0x51FF then some (.num (tallyStatus ((idx - 0x5100) * 128 + sub - 1) s))
    else if 0x5210 ≤ idx ∧ idx ≤ 0x5213 then some (.num (chanStatus ((idx - 0x5210) * 128 + sub - 1) s))
    else none

/-- Views of time, security, self-test and protection. -/
def viewSystem (be : Bool) (sess key : Nat) (s : State) : Option ObjVal :=
  let sub := key % 256
  match key / 256 with
  | 0x6000 => if sub = 1 then some (.num (timeSec s % 2 ^ 48 * 2 ^ 32 + timeNs s)) else none
  | 0x6004 => if sub = 1 then some (.num (rawCounter s)) else none
  | 0x6810 =>
    if sub = 2 then some (.bytes (match getChallenge sess s with | some c => c.2.1 | none => []))
    else if sub = 4 then some (.num (ofBool (getSess sess s).unlocked)) else none
  | 0x6830 =>
    if sub = 3 then some (.bytes (smGet (fun _ => ([] : List Byte)) sess s.dev.reports))
    else if sub = 4 then some (.bytes (publicOf (derivedPrivate 0x444B414B s))) else none
  | 0x7005 => some (.bytes (islandTable be s))
  | 0x7800 => if sub = 3 then some (.num (bistState s)) else none
  | 0x7801 => some (.num (islandBist (sub - 1) s))
  | 0x8832 => some (.num (protState (sub - 1) s))
  | _ => none

/-- What an object of a port that does not exist reads as (R450): its default; a MAC address has that of the fused base. -/
def portDefault (key : Nat) (s : State) : ObjVal :=
  if key / 256 = 0x3001 then .num (fusedMac (key % 256 - 1) s) else objDefault key

/-- The live value of an object as a session reads it. -/
def viewVal (be : Bool) (sess key : Nat) (s : State) : ObjVal :=
  if (findDesc (key / 256) (key % 256)).isNone then .num (maxSub (key / 256))
  else if portAbsent (fun k => fabMode k s) (key / 256) (key % 256) then portDefault key s
  else
    let idx := key / 256
    let v := if idx < 0x2000 then viewDict be sess key s
      else if idx < 0x5000 then viewLine be key s
      else if idx < 0x6000 then viewCompute be key s
      else viewSystem be sess key s
    v.getD (getObj key s)

end Sys2Proof.Machine
end

