-- ==== Sys2Proof/Machine/Security.lean ====
section
/-! DEFINITION. The commands of security and debug (chapter 19). -/

namespace Sys2Proof.Machine

/-- SEC_CHAL_REQ (R502). -/
def execSecChalReq (w : ObjWrite) (s : State) : Host.Outcome State Fault Refusal :=
  .next (numRow O.SEC_CHAL_REQ w.sess w.value (chalCheck w.sess w.value) (chalEffect w.sess w.value) s)

/-- SEC_RESPONSE (R502, R503). -/
def execSecResponse (w : BlobWrite) (s : State) : Host.Outcome State Fault Refusal :=
  .next (blobRow O.SEC_RESPONSE w (respCheck w.sess w.bytes) (respEffect w.sess w.bytes) s)

/-- CHALLENGE_LOCKOUT_EXPIRY (R503). -/
def execChallengeLockoutExpiry (purpose : Fin 5) (s : State) : Host.Outcome State Fault Refusal := .next (lockoutEnds purpose.val s)

/-- The write of a LC_CMD. -/
def lcCmd (sess v : Nat) (chainOk zeroOk : Bool) (s : State) : State :=
  numRow O.LC_CMD sess v (lcCheck chainOk v sess) (lcEffect v zeroOk) s

/-- LC_CMD PROVISION (R501). -/
def execLcCmdProvision (sess : Fin 73) (chainOk zeroOk : Bool) (s : State) : Host.Outcome State Fault Refusal :=
  .next (lcCmd sess.val 1 chainOk zeroOk s)

/-- LC_CMD FIELD (R501). -/
def execLcCmdField (sess : Fin 73) (zeroOk : Bool) (s : State) : Host.Outcome State Fault Refusal := .next (lcCmd sess.val 2 true zeroOk s)

/-- LC_CMD RETURN (R501). -/
def execLcCmdReturn (sess : Fin 73) (zeroOk : Bool) (s : State) : Host.Outcome State Fault Refusal := .next (lcCmd sess.val 3 true zeroOk s)

/-- The write of a DBG_CMD. -/
def dbgCmd (sess v : Nat) (s : State) : State := settle (numRow O.DBG_CMD sess v (dbgCheck v sess) (dbgEffect v sess) s)

/-- DBG_CMD AUTHENTICATE (R504). -/
def execAuthenticate (sess : Fin 73) (s : State) : Host.Outcome State Fault Refusal := .next (dbgCmd sess.val 1 s)

/-- DBG_CMD OPEN (R504). -/
def execDbgOpen (sess : Fin 73) (s : State) : Host.Outcome State Fault Refusal := .next (dbgCmd sess.val 2 s)

/-- DBG_CMD CLOSE (R504). -/
def execDbgClose (sess : Fin 73) (s : State) : Host.Outcome State Fault Refusal := .next (dbgCmd sess.val 3 s)

/-- The write of a FUSE_CMD. -/
def fuseCmd (sess v : Nat) (s : State) : State := numRow O.FUSE_CMD sess v (fuseCheck v) (fuseEffect v) s

/-- FUSE_CMD REVOKE (R500). -/
def execFuseRevoke (sess : Fin 73) (slot : Fin 4) (s : State) : Host.Outcome State Fault Refusal :=
  .next (fuseCmd sess.val (2 ^ 24 + slot.val) s)

/-- FUSE_CMD SVN (R500). -/
def execFuseSvn (sess : Fin 73) (kind svn : Fin 256) (s : State) : Host.Outcome State Fault Refusal :=
  .next (fuseCmd sess.val (2 * 2 ^ 24 + kind.val * 2 ^ 16 + svn.val) s)

/-- LKEK_PEER (R499). -/
def execLkekPeer (w : BlobWrite) (s : State) : Host.Outcome State Fault Refusal :=
  .next (blobRow O.LKEK_PEER w (fun _ => peerCheck w.bytes) (setB O.LKEK_PEER w.bytes) s)

/-- ATT_NONCE (R512). -/
def execAttNonce (w : BlobWrite) (s : State) : Host.Outcome State Fault Refusal :=
  .next (blobRow O.ATT_NONCE w (nonceCheck w.bytes) (nonceEffect w.sess w.bytes) s)

end Sys2Proof.Machine
end

