-- ==== Sys2Proof/Machine/Startup.lean ====
section
/-! DEFINITION. The commands of the device states (chapter 18): supply, BOOT, INIT and DEV_CMD. -/

namespace Sys2Proof.Machine

/-- AUX_APPLIED (R474, R9, R563). -/
def execAuxApplied (place : Fin 16) (factory : FactoryData) (s : State) : Host.Outcome State Fault Refusal :=
  .next (auxOn place.val factory s)

/-- AUX_LOST (R474). -/
def execAuxLost (s : State) : Host.Outcome State Fault Refusal := .next (auxOff s)

/-- BOOT_START (R474). -/
def execBootStart (hot : Bool) (rails : Option RailFault) (s : State) : Host.Outcome State Fault Refusal := .next (bootStarts hot rails s)

/-- STAGE1_START (R481). -/
def execStage1Start (fusesOk : Bool) (s : State) : Host.Outcome State Fault Refusal := .next (stage1Starts fusesOk s)

/-- PCIE_FUNDAMENTAL_RESET (R474, R472). -/
def execPcieFundamentalReset (s : State) : Host.Outcome State Fault Refusal := .next (settle (fundamentalReset s))

/-- The write of a DEV_CMD. -/
def devCmd (sess v : Nat) (zeroOk : Bool) (s : State) : State :=
  settle (numRow O.DEV_CMD sess v (devCmdCheck v) (devCmdEffect v zeroOk) s)

/-- DEV_CMD SERVICE (R474). -/
def execDevCmdService (sess : Fin 73) (s : State) : Host.Outcome State Fault Refusal := .next (devCmd sess.val 1 true s)

/-- DEV_CMD LINE_HOLD (R476). -/
def execDevCmdLineHold (sess : Fin 73) (s : State) : Host.Outcome State Fault Refusal := .next (devCmd sess.val 2 true s)

/-- DEV_CMD READY (R474). -/
def execDevCmdReady (sess : Fin 73) (s : State) : Host.Outcome State Fault Refusal := .next (devCmd sess.val 3 true s)

/-- DEV_CMD RESTART (R475). -/
def execDevCmdRestart (sess : Fin 73) (zeroOk : Bool) (s : State) : Host.Outcome State Fault Refusal := .next (devCmd sess.val 4 zeroOk s)

/-- DEV_CMD SAFE (R477). -/
def execDevCmdSafe (sess : Fin 73) (s : State) : Host.Outcome State Fault Refusal := .next (devCmd sess.val 5 true s)

/-- COMPUTE_DIES_READY (R476). -/
def execComputeDiesReady (rails : Option RailFault) (failed : List BistFail) (s : State) : Host.Outcome State Fault Refusal :=
  .next (computeReturns rails failed s)

/-- INIT_STEP_COMPLETE (R485). -/
def execInitStepComplete (step : Fin 8) (failed : List BistFail) (hbm : List (Fin 6)) (s : State) :
    Host.Outcome State Fault Refusal := .next (initCompletes step.val failed hbm s)

/-- INIT_STEP_LIMIT (R485). -/
def execInitStepLimit (step : Fin 8) (failed : List BistFail) (s : State) : Host.Outcome State Fault Refusal :=
  .next (initLimit step.val failed s)


/-- DL_CMD DONE (R484). -/
def execDlCmdDone (sess : Fin 73) (s : State) : Host.Outcome State Fault Refusal :=
  .next (numRow O.DL_CMD sess.val 2 (doneCheck sess.val) doneEffect s)

end Sys2Proof.Machine
end

