-- ==== Sys2Proof/Machine/Supply.lean ====
section
/-! DEFINITION. The commands of supply, thermal and clock events and of the power states (chapter 20, R507, R508). -/

namespace Sys2Proof.Machine

/-- PWR_CMD IDLE (R507). -/
def execPwrCmdIdle (sess : Fin 73) (s : State) : Host.Outcome State Fault Refusal :=
  .next (numRow O.PWR_CMD sess.val 1 idleCheck idleEffect s)

/-- PWR_CMD ACTIVE (R508). -/
def execPwrCmdActive (sess : Fin 73) (s : State) : Host.Outcome State Fault Refusal :=
  .next (numRow O.PWR_CMD sess.val 2 (fun _ => 0) activeEffect s)

/-- OT_WARN (R522). -/
def execOtWarn (sensor : Fin 19) (cc : Int) (s : State) : Host.Outcome State Fault Refusal := .next (handled (otWarn sensor.val cc) s)

/-- OT_THROTTLE (R522). -/
def execOtThrottle (sensor : Fin 19) (cc : Int) (s : State) : Host.Outcome State Fault Refusal :=
  .next (handled (otThrottle sensor.val cc) s)

/-- OT_CRIT (R522). -/
def execOtCrit (sensor : Fin 19) (cc : Int) (s : State) : Host.Outcome State Fault Refusal := .next (handled (otCrit sensor.val cc) s)

/-- POWER_CAP (R521). -/
def execPowerCap (pinDw : Nat) (s : State) : Host.Outcome State Fault Refusal := .next (handled (powerCap pinDw) s)

/-- VIN_LOW (R522). -/
def execVinLow (mv : Nat) (s : State) : Host.Outcome State Fault Refusal := .next (handled (vinLow mv) s)

/-- VIN_HARD (R523). -/
def execVinHard (mv : Nat) (s : State) : Host.Outcome State Fault Refusal := .next (handled (vinHard mv) s)

/-- VIN_HIGH (R522). -/
def execVinHigh (mv : Nat) (s : State) : Host.Outcome State Fault Refusal := .next (handled (vinHigh mv) s)

/-- VIN_ABOVE_46V (R523). -/
def execVinAbove46v (mv : Nat) (s : State) : Host.Outcome State Fault Refusal := .next (handled (vinAbove mv) s)

/-- OC (R522). -/
def execOc (ma : Nat) (s : State) : Host.Outcome State Fault Refusal := .next (handled (overCurrent ma) s)

/-- COOLANT (R522). -/
def execCoolant (inCc outCc : Int) (s : State) : Host.Outcome State Fault Refusal := .next (handled (coolant inCc outCc) s)

/-- RAIL (R522). -/
def execRail (k : Fin 29) (mv : Nat) (s : State) : Host.Outcome State Fault Refusal := .next (handled (railOut k.val mv) s)

/-- REFCLK (R527). -/
def execRefclk (s : State) : Host.Outcome State Fault Refusal := .next (handled refclkLost s)

/-- REFCLK_HOLD_EXPIRY (R527). -/
def execRefclkHoldExpiry (s : State) : Host.Outcome State Fault Refusal := .next (handled refclkGone s)

/-- AUX_LOW (R522). -/
def execAuxLow (mv : Nat) (s : State) : Host.Outcome State Fault Refusal := .next (handled (auxLow mv) s)

/-- EMERG_FLAG_CLEAR (R522). -/
def execEmergFlagClear (flag : Fin 12) (s : State) : Host.Outcome State Fault Refusal := .next (handled (flagCleared flag.val) s)

/-- THROTTLE_STEP (R522). -/
def execThrottleStep (pinDw iinMa : Nat) (s : State) : Host.Outcome State Fault Refusal := .next (handled (throttleStep pinDw iinMa) s)

/-- THERMAL_TRIP (R524). -/
def execThermalTrip (sensor : Fin 19) (cc : Int) (s : State) : Host.Outcome State Fault Refusal :=
  .next (handled (thermalTrip sensor.val cc) s)

/-- HOTSWAP_AUX_ENTRY (R523). -/
def execHotswapAuxEntry (zeroOk : Bool) (s : State) : Host.Outcome State Fault Refusal := .next (switchEnds zeroOk s)

/-- P0_REACHED (R508). -/
def execP0Reached (rails : Option RailFault) (failed : List BistFail) (s : State) : Host.Outcome State Fault Refusal :=
  .next (p0Reached rails failed s)

end Sys2Proof.Machine
end

