-- ==== Sys2Proof/Machine/Timing.lean ====
section
/-! DEFINITION. The commands of the time base and of time transfer (R401 to R417). -/

namespace Sys2Proof.Machine

/-- The servo updates (R407). -/
def execServoUpdate (s : State) : Host.Outcome State Fault Refusal := .next (servoUpdate s)

/-- A one-second tick (R402): a pulse marks it on PPS_OUT (Table 20.9). -/
def execSecondTick (s : State) : Host.Outcome State Fault Refusal := .next (emit .ppsOut ((List.range 4).foldl (fun u n => keyWarning n u) (secondTick s)))

/-- TS_SET (R407). -/
def execTsSet (w : ObjWrite) (s : State) : Host.Outcome State Fault Refusal :=
  .next (numRow O.TS_SET w.sess w.value tsSetCheck (tsSetEffect w.value) s)

/-- The 10 MHz input is present (R405). -/
def execRef10mPresent (s : State) : Host.Outcome State Fault Refusal := .next (ref10m true s)

/-- The 10 MHz input is lost (R405). -/
def execRef10mLost (s : State) : Host.Outcome State Fault Refusal := .next (ref10m false s)

/-- A 1PPS edge (R405). -/
def execPpsPulse (s : State) : Host.Outcome State Fault Refusal := .next (ppsPulse s)

/-- A time-transfer window closes (R410). -/
def execTtWindow (s : State) : Host.Outcome State Fault Refusal := .next (ttWindow s)

/-- TS_STEP_SETTLE_S has passed without a further step (R414). -/
def execDelaySettleExpiry (c : Fin 8) (s : State) : Host.Outcome State Fault Refusal := .next (delaySettled c s)

/-- A refused CALIBRATE is logged for the carrier it names, or for each of the port's (R412). -/
def calRefused (portWide : Bool) (target : Nat) (s : State) : State :=
  (calTargets portWide target s).foldl (fun u c => logEvent 0x6021 (c * 2 ^ 56 + 1) u) s

/-- TT_CAL_CMD CALIBRATE (R412). -/
def execCalibrate (sess : Fin 73) (portWide : Bool) (target : Fin 8) (s : State) : Host.Outcome State Fault Refusal :=
  let code := calCode 1 portWide target
  if ownCheck sess O.TT_CAL_CMD (.num code) s = 0 ∧ !calAllowed portWide target s then
    .next (emit (.writeAnswer sess O.TT_CAL_CMD 0x30) (calRefused portWide target s))
  else .next (numRow O.TT_CAL_CMD sess code (fun _ => 0) (calStart portWide target) s)

/-- The calibration interval ends (R412). -/
def execCalibrationEnd (c : Fin 8) (s : State) : Host.Outcome State Fault Refusal := .next (calEnd c s)

/-- TT_CAL_CMD CLEAR (R412). -/
def execAsymClear (sess : Fin 73) (portWide : Bool) (target : Fin 8) (s : State) : Host.Outcome State Fault Refusal :=
  .next (numRow O.TT_CAL_CMD sess (calCode 2 portWide target) (fun _ => 0) (asymClear portWide target) s)

/-- TT_CAL_CMD ACCEPT (R414). -/
def execAccept (sess : Fin 73) (portWide : Bool) (target : Fin 8) (s : State) : Host.Outcome State Fault Refusal :=
  .next (numRow O.TT_CAL_CMD sess (calCode 3 portWide target) (fun _ => 0) (asymAccept portWide target) s)

/-- TT_ASYM_PS is written (R412). -/
def execTtAsymPs (c : Fin 8) (w : ObjWrite) (s : State) : Host.Outcome State Fault Refusal :=
  .next (numRow (O.TT_ASYM_PS + c.val) w.sess w.value (fun _ => 0) (asymWrite c w.value) s)

/-- A PTP message (R415). -/
def execPtpMessage (port : Fin 16) (domain : Nat) (m : PtpBody) (s : State) : Host.Outcome State Fault Refusal :=
  .next (ptpTake port domain m s)

end Sys2Proof.Machine
end

