-- ==== Sys2Proof/Machine/RopWrites.lean ====
section
/-! DEFINITION. What the write of each object checks beyond its directory entry, and does (R57): the same checks and effects as
the commands that are the write of one object; and the persistent configuration (R41 to R43). -/

namespace Sys2Proof.Machine

/-! ### The persistent configuration (R41 to R43) -/

def cfgSaveCode : Nat := 0x53415645
def cfgEraseCode : Nat := 0x45524153

/-- A write of CFG_SAVE is accepted. -/
def cfgSaveCheck (v : Nat) (s : State) : Nat :=
  if v ≠ cfgSaveCode ∧ v ≠ cfgEraseCode then 0x14
  else if s.devState != .ready || s.dict.cfgBusy != 0 then 0x30
  else if v = cfgSaveCode ∧ 100000 ≤ getN O.CFG_SAVE_COUNT s then 0x31
  else 0

/-- The live values of every persist-flagged object. -/
def cfgSnapshot (s : State) : List (Nat × ObjVal) :=
  (objTable.filter fun d => d.persist).flatMap fun d => d.keys.map fun k => (k, getObj k s)

/-- The copy that is not the newest is being written: invalid until it is whole. -/
def cfgStart (busy : Nat) (saved : List (Nat × ObjVal)) (s : State) : State :=
  let d := s.dict
  let c : CfgCopy := { valid := false, saved := saved }
  { s with dict := { d with cfgBusy := busy, cfgA := if d.cfgNewest = 0 then d.cfgA else c, cfgB := if d.cfgNewest = 0 then c else d.cfgB } }

/-- The effect of a write of CFG_SAVE. -/
def cfgSaveEffect (v : Nat) (s : State) : State := if v = cfgSaveCode then cfgStart 1 (cfgSnapshot s) s else cfgStart 2 [] s

/-- The copy is whole: it is the newest. An erase leaves both copies without a value. -/
def cfgDone (s : State) : State :=
  let d := s.dict
  if d.cfgBusy = 0 then s
  else if d.cfgBusy = 2 then { s with dict := { d with cfgBusy := 0, cfgA := {}, cfgB := {}, cfgNewest := 1 - d.cfgNewest } }
  else
    let t : State := { s with dict := { d with
      cfgBusy := 0, cfgNewest := 1 - d.cfgNewest
      cfgA := { d.cfgA with valid := d.cfgA.valid || d.cfgNewest == 1 }
      cfgB := { d.cfgB with valid := d.cfgB.valid || d.cfgNewest == 0 } } }
    let u := addN O.CFG_SAVE_COUNT 1 t
    logEvent 0x0420 (getN O.CFG_SAVE_COUNT u) u

/-! ### Commands coded in a value -/

/-- A DL_CMD (Table 18.14). -/
def dlCheck (sess v : Nat) (s : State) : Nat :=
  match v with
  | 1 => fetchCheck sess s
  | 2 => doneCheck sess s
  | 3 => abortCheck sess s
  | 4 => activateCheck s
  | 5 => flashCheck s
  | _ => 0x14

/-- Its effect; what the read of host memory brings for FLASH is not the gateway's (log entry 82). -/
def dlEffect (v : Nat) (s : State) : State :=
  match v with
  | 1 => fetchStart s
  | 2 => doneEffect s
  | 3 => abortEffect s
  | 4 => activateEffect s
  | _ => freeNext (flashStart (Config.hostImage s.freeCtr (getN O.DL_ADDR s) (getN O.DL_LEN s)) s)

/-- A TT_CAL_CMD (Table 15.8): port-wide, and its target. -/
def calWide (v : Nat) : Bool := bitOf v 3
def calTarget (v : Nat) : Nat := v % 8

/-- A TT_CAL_CMD is accepted. -/
def calCheck (v : Nat) (s : State) : Nat :=
  match v / 256 with
  | 1 => if calAllowed (calWide v) (calTarget v) s then 0 else 0x30
  | 2 | 3 => 0
  | _ => 0x14

/-- Its effect. -/
def calEffect (v : Nat) (s : State) : State :=
  match v / 256 with
  | 1 => calStart (calWide v) (calTarget v) s
  | 2 => asymClear (calWide v) (calTarget v) s
  | _ => asymAccept (calWide v) (calTarget v) s

/-- A PWR_CMD. -/
def pwrCheck (v : Nat) (s : State) : Nat :=
  match v with
  | 1 => idleCheck s
  | 2 => 0
  | _ => 0x14

/-- REPLAN_CMD written among other items: the re-plan is due, and runs when its figures are in (R543; log entry 76). -/
def replanMark (s : State) : State :=
  let b := s.dev.bist
  if b.replanning || b.replanDue then s
  else
    let t := modBist (fun y => { y with replanDue := true }) s
    if replanAllowed s then t else logEvent 0x7024 (getN O.EMERG_FLAGS s) t

/-! ### One object -/

/-- The number of a porter channel by its PORTER_CH_CFG object. -/
def cfgChan (key : Nat) : Nat := (key / 256 - 0x5200) * 128 + key % 256 - 1

/-- An object's own check, outside commit groups. `g` gives what each setting reads once the whole WRITE has taken effect (R423). -/
def writeCheck (sess key : Nat) (v : ObjVal) (g : Nat → Nat) (s : State) : Nat :=
  let n := v.toNat
  let sub := key % 256
  match key / 256 with
  | 0x1011 => featCheck (sub - 1) n
  | 0x1030 => devCmdCheck n s
  | 0x1060 => cfgSaveCheck n s
  | 0x1100 => if sub = 3 then dlCheck sess n s else 0
  | 0x1113 => procCmdCheck n s
  | 0x5010 => rowFreqCheck n
  | 0x5040 => if sub = 2 then progUnloadCheck n s else if sess ≠ 8 then 0x19 else if imageCheck v.toBytes ≠ 0 then 0x14 else 0
  | 0x5050 => xcTableCheck v.toBytes
  | 0x5200 | 0x5201 | 0x5202 | 0x5203 => porterCfgCheck (cfgChan key) n s
  | 0x5890 => blRxWmCheck n
  | 0x6002 => if sub = 1 then tsSetCheck s else 0
  | 0x6017 => calCheck n s
  | 0x6800 => if sub = 3 then lcCheck (chainFound s) n sess s else if sub = 4 then dbgCheck n sess s else 0
  | 0x6810 => if sub = 1 then chalCheck sess n s else respCheck sess v.toBytes s
  | 0x6820 => fuseCheck n s
  | 0x6830 =>
    (match sub with
      | 1 => if getN O.LC_STATE s = 0 then 0 else 0x30
      | 2 => nonceCheck v.toBytes s
      | _ => peerCheck v.toBytes)
  | 0x7010 => pwrCheck n s
  | 0x7030 => if sub = 2 ∧ n ≠ 1 then 0x14 else 0
  | 0x8800 => crSettingCheck g key n s
  | 0x8831 => protCmdCheck n s
  | 0x8840 => profileCheck sess v.toBytes s
  | _ => lowCheck key v s

/-- What is logged of a write an object's own check refuses. -/
def writeRefused (key : Nat) (v : ObjVal) (sess : Nat) (s : State) : State :=
  if key = O.KEY_LOAD then keyLoadRefused v.toBytes s
  else if key = O.PROG_IMAGE ∧ sess = 8 then logEvent 0x5006 (imageCheck v.toBytes) s
  else if key = O.TT_CAL_CMD ∧ v.toNat / 256 = 1 then calRefused (calWide v.toNat) (calTarget v.toNat) s
  else s

/-- A setting whose value the host keeps as the floor of re-planning is written (R543). -/
def floorWrite (key : Nat) (v : ObjVal) (s : State) : State :=
  let t := setObj key v s
  if key = O.MG_TARGET_CDB then setObj O.MG_TARGET_FLOOR_CDB v t
  else if key = O.MG_DOWN_CDB then setObj O.MG_DOWN_FLOOR_CDB v t else t

/-- Rotation is switched on or off (R174, R535). -/
def rotWrite (n : Nat) (s : State) : State :=
  settleSpares (setN O.STALL_ROT_EN n (if n = 0 then
    abandonSlices (fun z => match z.item with | .stall _ => true | _ => false) s else s))

/-- The effect of a write that passed every check, outside commit groups: the error a crate pool may still give (R168), and the
state. -/
def writeEffect (sess key : Nat) (v : ObjVal) (s : State) : Nat × State :=
  let n := v.toNat
  let sub := key % 256
  let plain : Nat × State := (0, setObj key v s)
  match key / 256 with
  | 0x1011 => (0, featEffect (sub - 1) n s)
  | 0x1030 => (0, devCmdEffect n true s)
  | 0x1060 => (0, cfgSaveEffect n s)
  | 0x1100 => if sub = 3 then (0, dlEffect n s) else plain
  | 0x1113 => (0, procCmdEffect n true s)
  | 0x2000 => (0, floorWrite key v s)
  | 0x5000 => if sub = 1 then (0, rotWrite n s) else plain
  | 0x5010 => (0, rowFreqEffect (sub - 1) n s)
  | 0x5040 => if sub = 2 then (0, progUnloadEffect n s) else registerImage v.toBytes s
  | 0x5050 => (0, xcTableEffect (sub - 1) v.toBytes s)
  | 0x5200 | 0x5201 | 0x5202 | 0x5203 => (0, setN key (n &&& 0x7F037F) s)
  | 0x5800 => if sub = 5 then (0, crateStrictEffect n s) else plain
  | 0x5890 => (0, blRxWmEffect (sub - 1) n s)
  | 0x6002 => if sub = 1 then (0, tsSetEffect n s) else if sub = 2 then (0, ppsTod n s) else plain
  | 0x6015 => (0, asymWrite (sub - 1) n s)
  | 0x6017 => (0, calEffect n s)
  | 0x6800 => if sub = 3 then (0, lcEffect n true s) else if sub = 4 then (0, dbgEffect n sess s) else plain
  | 0x6810 => (0, if sub = 1 then chalEffect sess n s else respEffect sess v.toBytes s)
  | 0x6820 => (0, fuseEffect n s)
  | 0x6830 => if sub = 2 then (0, nonceEffect sess v.toBytes s) else plain
  | 0x7010 => (0, if n = 1 then idleEffect s else activeEffect s)
  | 0x7030 => if sub = 2 then (0, replanMark s) else plain
  | 0x8831 => (0, protCmdEffect n s)
  | _ => (0, lowEffect key v s)

/-- Each bit written 1 is cleared (Table 2.3). -/
def clearBits (key n : Nat) (s : State) : State := setN key (getN key s - (getN key s &&& n)) s

/-- One checked item takes effect (R57): in its group's shadow, as a clearing of bits, or on its live value; what is written to reserved
bits is ignored (R6). -/
def writeTakes (sess key : Nat) (w : ObjVal) (s : State) : Nat × State :=
  let v := dropReserved key w
  let id := groupOfKey key
  if id ≠ 0 then (0, shadowWrite id sess key v s)
  else match findDesc (key / 256) (key % 256) with
    | some d => if d.acc == .w1c then (0, clearBits key v.toNat s) else writeEffect sess key v s
    | none => (0, s)

end Sys2Proof.Machine
end

