-- ==== Sys2Proof/Machine/RopOps.lean ====
section
/-! DEFINITION. The Rovik Object Protocol: sessions (R46 to R49), messages (R50 to R55), READ (R56), WRITE (R57), COMMIT and ABORT
(R62 to R68), SUBSCRIBE and NOTIFY (R59, R60). -/

namespace Sys2Proof.Machine

/-! ### Sources -/

/-- The function whose mailbox a session is. -/
def sessFn (n : Nat) : Nat := if n = 8 then fnPf else n - 9

/-- A source writes big-endian fields on the management port and little-endian ones in a mailbox (R35). -/
def sessBe (n : Nat) : Bool := sessMgmt n

/-- The longest message of a source (R48, R51). -/
def msgLimit (n : Nat) : Nat := if sessMgmt n then 1400 else 4096

/-- Whether a message of a source reaches the gateway: an open session of the management port, at the UDP port the gateway listens on
(R48), or a mailbox whose doorbell has been rung (R466). -/
def reaches (r : RopReq) (s : State) : Bool :=
  if sessMgmt r.sess then (getSess r.sess s).isOpen && sourceServed r.sess s && r.port == getN O.ROP_UDP_PORT s
  else r.sess ≤ 72 && (getBox r.sess s).busy && fnLive (sessFn r.sess) s

/-- The firmware that answers is down: MGT, but for the loader in LOAD and the HALT responder (R55). -/
def answererDown (s : State) : Bool := s.devState != .load && s.devState != .halt && !mgtUp s

/-- Whether a session may only read and subscribe (R47). -/
def observer (n : Nat) (s : State) : Bool := sessMgmt n && !(getSess n s).admin

/-- A length rounded up to 4 bytes. -/
def pad4 (n : Nat) : Nat := (n + 3) / 4 * 4

/-- The bytes of an item (Table 2.7), its value padded with zeros to a multiple of 4 bytes (R50). -/
def itemBytes (be : Bool) (i : RespItem) : List Byte :=
  bytesOrd be 2 i.index ++ bytesLE 1 i.sub ++ bytesLE 1 i.type ++ bytesOrd be 2 i.value.length
    ++ bytesLE 1 (ofBool i.offset + 2 * ofBool i.last) ++ bytesLE 1 i.status ++ padTo (pad4 i.value.length) i.value

/-- The bytes of a message (Table 2.6): VERSION 1, the header and the items, in a source's byte order (R4, R5, R51). -/
def messageBytes (be : Bool) (op flags status requestId notifySeq : Nat) (is : List RespItem) : List Byte :=
  let body := is.flatMap (itemBytes be)
  [1#8, BitVec.ofNat 8 op, BitVec.ofNat 8 flags, BitVec.ofNat 8 status] ++ bytesOrd be 4 requestId ++ bytesOrd be 2 is.length
    ++ bytesOrd be 2 body.length ++ bytesOrd be 4 notifySeq ++ body

/-- The bytes of a response. -/
def RopResp.bytes (be : Bool) (r : RopResp) : List Byte := messageBytes be r.op 0 r.status r.requestId 0 r.items

/-- A response leaves: in one datagram on the management port (R48); in a mailbox in RESP, whereupon BUSY clears, RESP_READY is set and
vector 0 signalled (R466). -/
def answerSent (n : Nat) (r : RopResp) (s : State) : State :=
  let m := r.bytes (sessBe n)
  if sessMgmt n then emit (.datagram n m) s
  else emit (.interrupt (sessFn n) 0) (setBox n { getBox n s with busy := false, respReady := true, resp := m } s)

/-- A response leaves; the last 16 of a session are kept (R54). -/
def respond (n : Nat) (keep : Bool) (r : RopResp) (s : State) : State :=
  let x := getSess n s
  let t := if keep then setSess n { x with kept := (r :: x.kept).take 16 } s else s
  answerSent n r (emit (.ropResponse n r) t)

/-- The STATUS of a response: that of the first failing item (Table 2.6). -/
def firstStatus (is : List RespItem) : Nat := match is.find? fun i => i.status != 0 with | some i => i.status | none => 0

/-- An item answered without a value. -/
def plainItem (i : RopItem) (status : Nat) : RespItem := ⟨i.index, i.sub, i.type, false, false, status, []⟩

/-- Every item answered with one status. -/
def allItems (status : Nat) (r : RopReq) : List RespItem := r.items.map fun i => plainItem i status

/-- The message is well formed (R50, E-0x01): a known number of items, and lengths that agree. -/
def wellFormedMsg (r : RopReq) : Bool :=
  r.itemCount == r.items.length && 1 ≤ r.itemCount && r.itemCount ≤ 32
    && r.items.all (fun i => i.length == i.value.length)
    && r.bodyLength == r.items.foldl (fun n i => n + 8 + pad4 i.value.length) 0 && r.msgLen == 16 + r.bodyLength

/-- The error of a header, 0 for none. -/
def headerError (r : RopReq) : Nat :=
  if r.version ≠ 1 then 0x02
  else if msgLimit r.sess < r.msgLen then 0x04
  else if !wellFormedMsg r then 0x01
  else 0

/-- Whether an operation is READ, WRITE, COMMIT or SUBSCRIBE (Table 2.6). -/
def opKnown (op : Nat) : Bool := 1 ≤ op % 128 && op % 128 ≤ 4

/-- The error of the header of a request with an operation, 0 for none: the items of an operation that is not known are not judged
(log entry 88). -/
def requestError (op : Nat) (r : RopReq) : Nat :=
  if opKnown op then headerError r else if r.version ≠ 1 then 0x02 else if msgLimit r.sess < r.msgLen then 0x04 else 0x03

/-- One request (R50 to R55): a kept response again, an error of the header, or what the operation answers. -/
def ropRequest (op : Nat) (r : RopReq) (body : State → List RespItem × State) (s : State) : State :=
  let answer (e : Nat) (is : List RespItem) : RopResp := ⟨op % 128 + 128, e, r.requestId, is⟩
  if !reaches r s then s
  else if answererDown s then respond r.sess false (answer 0x30 []) s
  else match (getSess r.sess s).kept.find? fun k => k.requestId == r.requestId with
  | some k => respond r.sess false k s
  | none =>
    if !sourceServed r.sess s then respond r.sess true (answer 0x30 []) s
    else match requestError op r with
    | 0 =>
      let a := body s
      respond r.sess true (answer (firstStatus a.1) a.1) a.2
    | e => respond r.sess true (answer e []) s

/-! ### READ (R52, R56) -/

/-- The error of reading an object, and its directory entry (R34, R45, R49, R70, Table 2.3). -/
def readCheck (sess idx sub : Nat) (s : State) : Except Nat ObjDesc :=
  match lookupObj idx sub with
  | .error e => .error e
  | .ok d =>
    if !readPermitted sess idx sub d s then .error 0x19
    else if !readServed idx s then .error 0x30
    else if !d.gateOpen s then .error 0x1B
    else if d.acc == .wo then .error 0x15
    else .ok d

/-- The value a READ takes: the shadow's for a member of a group that is not CLEAN when SHADOW is set (R56). -/
def readVal (sess idx sub : Nat) (shadow : Bool) (d : ObjDesc) (s : State) : ObjVal :=
  let g := getCg (d.groupAt idx) s
  if shadow && d.group != 0 && g.cgState != 0 then shadowVal g (objKey idx sub) s else viewVal (sessBe sess) sess (objKey idx sub) s

/-- A piece of a STR or BLOB from an offset, as much as fits in `room` bytes (R52). -/
def blobPiece (be : Bool) (i : RopItem) (d : ObjDesc) (bs : List Byte) (room : Nat) : RespItem :=
  let off := if i.offset then natOfOrd be i.value else 0
  if bs.length < off then plainItem i 0x14
  else if !i.offset && bs.length ≤ room then ⟨i.index, i.sub, d.ty.code, false, false, 0, bs⟩
  else
    let piece := (bs.drop off).take (room - 4)
    ⟨i.index, i.sub, d.ty.code, true, off + piece.length == bs.length, 0, bytesOrd be 4 off ++ piece⟩

/-- Whether an index is one of the event-log objects, whose layout the spec does not give (R71; log entry 13). -/
def eventLogItem (i : RopItem) : Bool := 0x8000 ≤ i.index && i.index ≤ 0x87FF && Config.isEventLogObj i.index i.sub

/-- One item of a READ, with `room` bytes for its value. -/
def readItem (sess : Nat) (shadow : Bool) (i : RopItem) (room : Nat) (s : State) : RespItem :=
  if i.length ≠ (if i.offset then 4 else 0) then plainItem i 0x13
  else if eventLogItem i then
    (if sessVf sess then plainItem i 0x19 else if !readServed i.index s then plainItem i 0x30
      else blobPiece (sessBe sess) i ⟨i.index, i.index, i.sub, i.sub, "", .blob, .ro, [], [], 0, false, false, none⟩
        (Config.eventLogValue i.index i.sub s.freeCtr) room)
  else match readCheck sess i.index i.sub s with
  | .error e => plainItem i e
  | .ok d =>
    let v := readVal sess i.index i.sub shadow d s
    match d.ty with
    | .str | .blob => blobPiece (sessBe sess) i d v.toBytes room
    | _ => if i.offset then plainItem i 0x12 else ⟨i.index, i.sub, d.ty.code, false, false, 0, d.encode (sessBe sess) v⟩

/-- The items in order, `left` bytes of the message being free; 20 bytes are kept for each later item. -/
def readItems (sess : Nat) (shadow : Bool) (s : State) : List RopItem → Nat → List RespItem
  | [], _ => []
  | i :: is, left =>
    let a := readItem sess shadow i ((left - 8 - 20 * is.length) / 4 * 4) s
    a :: readItems sess shadow s is (left - 8 - pad4 a.value.length)

/-- READ; a READ that delivers an event-log object marks every record read (R71). -/
def ropRead (r : RopReq) (s : State) : List RespItem × State :=
  let is := readItems r.sess r.shadow s r.items (msgLimit r.sess - 16)
  let took := (r.items.zip is).any fun p => eventLogItem p.1 && p.2.status == 0
  (is, if took then freeNext { s with dict := { s.dict with log := s.dict.log.map fun e => { e with read := true } } } else s)

/-! ### WRITE (R52, R57) -/

/-- The value of a whole item. -/
def itemVal (be : Bool) (d : ObjDesc) (bs : List Byte) : ObjVal := valOfBytes d.ty be bs

/-- Lay a piece over the bytes gathered so far. -/
def layPiece (acc : List (Option Byte)) (p : Nat × List Byte) : List (Option Byte) :=
  acc.take p.1 ++ (p.2.map some).take (acc.length - p.1) ++ acc.drop (p.1 + p.2.length)

/-- The value the pieces make up to the end of the last one; none where they leave a gap (R52). -/
def gather (ps : List (Nat × List Byte)) : Option (List Byte) :=
  match ps.getLast? with
  | none => none
  | some e => (ps.foldl layPiece (List.replicate (e.1 + e.2.length) none)).foldr
      (fun x r => match x, r with | some b, some bs => some (b :: bs) | _, _ => none) (some [])

/-- The pieces gathered of an object. -/
def stagedOf (st : List Staging) (idx sub : Nat) : List (Nat × List Byte) :=
  match st.find? fun x => x.idx == idx && x.sub == sub with | some x => x.pieces | none => []

/-- Keep the pieces gathered of an object. -/
def stage (st : List Staging) (idx sub : Nat) (ps : List (Nat × List Byte)) : List Staging :=
  st.filter (fun x => !(x.idx == idx && x.sub == sub)) ++ (if ps.isEmpty then [] else [⟨idx, sub, ps⟩])

/-- A checked item: its error, the whole value it completes, and what is staged after it. -/
structure Checked where
  err : Nat
  val : Option ObjVal
  staging : List Staging

/-- A member's own check beyond its directory entry: OS_MODE takes SYNC only while that feature is active (Table 18.10, R70). -/
def memberCheck (key : Nat) (v : ObjVal) (s : State) : Nat :=
  if key = O.OS_MODE ∧ v.toNat = 2 ∧ !featActive 2 s then 0x1B else 0

/-- The check of a whole value. -/
def wholeCheck (sess : Nat) (i : RopItem) (len : Nat) (v : ObjVal) (g : Nat → Nat) (s : State) : Nat :=
  match stdCheck sess i.index i.sub i.type len v s with
  | 0 => if groupOfKey (objKey i.index i.sub) ≠ 0 then memberCheck (objKey i.index i.sub) v s else writeCheck sess (objKey i.index i.sub) v g s
  | e => e

/-- The check of one item (R36, R52, R57). -/
def checkItem (sess : Nat) (g : Nat → Nat) (i : RopItem) (st : List Staging) (s : State) : Checked :=
  let bad (e : Nat) : Checked := ⟨e, none, st⟩
  match lookupObj i.index i.sub with
  | .error e => bad e
  | .ok d =>
    if !i.offset then
      let v := itemVal (sessBe sess) d i.value
      ⟨wholeCheck sess i i.length v g s, some v, st⟩
    else
      let e := stdCheck sess i.index i.sub i.type 0 (.bytes []) s
      let off := natOfOrd (sessBe sess) (i.value.take 4)
      let ps := stagedOf st i.index i.sub ++ [(off, i.value.drop 4)]
      if d.ty != .str && d.ty != .blob then bad 0x12
      else if i.length < 4 then bad 0x13
      else if e ≠ 0 then bad e
      else if !d.lengthOk (off + (i.length - 4)) then bad 0x13
      else if !i.last then ⟨0, none, stage st i.index i.sub ps⟩
      else match gather ps with
      | none => bad 0x13
      | some bs => ⟨wholeCheck sess i bs.length (.bytes bs) g s, some (.bytes bs), stage st i.index i.sub []⟩

/-- Every item checked before any takes effect, what is staged going on from item to item. -/
def checkItems (sess : Nat) (g : Nat → Nat) (s : State) : List RopItem → List Staging → List Checked
  | [], _ => []
  | i :: is, st =>
    let c := checkItem sess g i st s
    c :: checkItems sess g s is c.staging

/-- What each setting reads once the whole WRITE has taken effect: judged together only for the crier's timing (R423). -/
def afterWrite (r : RopReq) (s : State) (key : Nat) : Nat :=
  match (r.items.filter fun i => objKey i.index i.sub == key && !i.offset).getLast? with
  | some i => natOfOrd (sessBe r.sess) i.value
  | none => getN key s

/-- The refusals that are logged. -/
def logRefusals (r : RopReq) (cs : List Checked) (s : State) : State :=
  (r.items.zip cs).foldl (fun u p => match p.2.val with
    | some v =>
      let i := p.1
      let std := stdCheck r.sess i.index i.sub i.type (if i.offset then v.toBytes.length else i.length) v s
      if p.2.err ≠ 0 ∧ std = 0 then writeRefused (objKey i.index i.sub) v r.sess u else u
    | none => u) s

/-- The items take effect in order. A command whose own check an earlier item of the same WRITE has made false has no effect, and answers
the error: the WRITE then has none (log entry 84). -/
def takeItems (sess : Nat) (g : Nat → Nat) : List (RopItem × Checked) → State → List RespItem × State
  | [], s => ([], s)
  | (i, c) :: rest, s =>
    let key := objKey i.index i.sub
    let a : Nat × State := match c.val with
      | none => (0, s)
      | some v =>
        let again := if groupOfKey key ≠ 0 then 0 else writeCheck sess key v g s
        if again ≠ 0 then (again, s) else writeTakes sess key v s
    let b := takeItems sess g rest a.2
    (plainItem i a.1 :: b.1, b.2)

/-- WRITE: if any item fails, none takes effect (R57). -/
def ropWrite (r : RopReq) (s : State) : List RespItem × State :=
  if observer r.sess s then (allItems 0x19 r, s)
  else
    let g := afterWrite r s
    let cs := checkItems r.sess g s r.items (getSess r.sess s).staging
    if cs.any fun c => c.err != 0 then ((r.items.zip cs).map fun p => plainItem p.1 p.2.err, logRefusals r cs s)
    else
      let st := match cs.getLast? with | some c => c.staging | none => []
      let a := takeItems r.sess g (r.items.zip cs) (setSess r.sess { getSess r.sess s with staging := st } s)
      if firstStatus a.1 ≠ 0 then (a.1, s) else (a.1, settle a.2)

/-! ### COMMIT and ABORT (R62 to R68) -/

/-- Whether a group has a member that is written only in READY. -/
def cgRws (id : Nat) : Bool :=
  (cgMembers id).any fun k => match findDesc (k / 256) (k % 256) with | some d => d.acc == .rws | none => false

/-- The errors of a COMMIT or ABORT before the group's rules (R64, R67). -/
def commitError (sess idx sub : Nat) (abort : Bool) (s : State) : Nat :=
  match lookupObj idx sub with
  | .error e => e
  | .ok _ =>
    let g := getCg sub s
    if !sessAdmin sess s then 0x19
    else if s.devState == .load || s.devState == .halt then 0x30
    else if idx ≠ 0x1050 ∨ sub = 0 then 0x14
    else if !cgExists sub || g.cgState = 0 then 0x23
    else if g.cgState = 2 ∧ !abort then 0x22
    else if g.owner ≠ sess then 0x20
    else if !abort && cgRws sub && s.devState != .ready then 0x17
    else 0

/-- A COMMIT is rejected: recorded, and logged (R63, R64). -/
def cgReject (id err rule key arg : Nat) (s : State) : State :=
  logEvent 0x0402 arg (setCg id { getCg id s with
    outcome := 2, lastError := err, ruleId := rule, badIndex := key / 256, badSub := key % 256 } s)

/-- A COMMIT of an OPEN group by its owner: stale, failing a rule, or armed. -/
def cgCommit (id : Nat) (s : State) : Nat × State :=
  let g := getCg id s
  match g.stale with
  | k :: _ => (0x26, cgReject id 0x26 0 k 0x26 s)
  | [] =>
    let v := cgRule id (fun k => shadowVal g k s) s
    if v.1 = 0 then (0, settle (cgArm id s)) else (0x21, cgReject id 0x21 v.1 v.2 v.1 s)

/-- COMMIT, and ABORT: the single item carries CG_STATUS as it then stands, refused ones too; its TYPE, LENGTH and value, of which the
spec says nothing in a request, are not checked (log entry 88). -/
def ropCommit (abort : Bool) (r : RopReq) (s : State) : List RespItem × State :=
  match r.items with
  | [i] =>
    let e := if observer r.sess s then 0x19 else commitError r.sess i.index i.sub abort s
    if e ≠ 0 then ([if i.index = 0x1050 ∧ 1 ≤ i.sub ∧ i.sub ≤ 0xFE ∧ e ≠ 0x19
      then ⟨i.index, i.sub, ObjType.u32.code, false, false, e, bytesOrd (sessBe r.sess) 4 (cgStatus i.sub s)⟩ else plainItem i e], s)
    else
      let a := if abort then (0, settle (cgAbortArmed i.sub s)) else cgCommit i.sub s
      ([⟨i.index, i.sub, ObjType.u32.code, false, false, a.1, bytesOrd (sessBe r.sess) 4 (cgStatus i.sub a.2)⟩], a.2)
  | _ => (allItems 0x01 r, s)

/-! ### SUBSCRIBE (R59) -/

/-- Subscriptions of every session. -/
def subsTotal (s : State) : Nat := s.dict.sessions.foldl (fun n p => n + p.2.subs.length) 0

/-- The subscription a value of 8 bytes asks for (Table 2.17), or none. -/
def subOf (be : Bool) (idx sub : Nat) (bs : List Byte) : Option Subscr :=
  let mode := (bs.getD 0 0).toNat
  let n := natOfOrd be ((bs.drop 4).take 4)
  let first := natOfOrd be ((bs.drop 4).take 2)
  let last := natOfOrd be ((bs.drop 6).take 2)
  let sev := (bs.getD 1 0).toNat
  if idx = 0 then (if mode = 3 ∧ sev ≤ 4 ∧ first ≤ last then some ⟨0, 0, 3, 0, sev, first, last, none, false⟩ else none)
  else if (mode = 1 ∧ 1 ≤ n ∧ n ≤ 60000) ∨ (mode = 2 ∧ 1 ≤ n ∧ n ≤ 3600000) then some ⟨idx, sub, mode, n, 0, 0, 0, none, false⟩
  else none

/-- One SUBSCRIBE item: its error, and the state. -/
def subscribeItem (sess : Nat) (i : RopItem) (s : State) : Nat × State :=
  let x := getSess sess s
  let others := x.subs.filter fun b => !(b.idx == i.index && b.sub == i.sub)
  let e : Nat :=
    if i.index = 0 then (if i.sub ≠ 0 then 0x10 else if sessVf sess then 0x19 else if s.devState == .load || s.devState == .halt then 0x30 else 0)
    else match readCheck sess i.index i.sub s with
      | .error e => e
      | .ok _ => if s.devState == .load || s.devState == .halt then 0x30 else 0
  if e ≠ 0 then (e, s)
  else if i.type ≠ ObjType.blob.code then (0x12, s)
  else if i.value.isEmpty then (0, setSess sess { x with subs := others } s)
  else if i.value.length ≠ 8 then (0x13, s)
  else match subOf (sessBe sess) i.index i.sub i.value with
  | none => (0x14, s)
  | some b =>
    let keep := if i.index = 0 then x.subs else others
    if 64 ≤ keep.length ∨ 512 ≤ subsTotal s + keep.length - x.subs.length then (0x25, s)
    else
      let now := if i.index = 0 then none else some (viewVal (sessBe sess) sess (objKey i.index i.sub) s)
      (0, setSess sess { x with subs := keep ++ [{ b with lastSent := now }] } s)

/-- SUBSCRIBE, item by item. -/
def subscribeItems (sess : Nat) : List RopItem → State → List RespItem × State
  | [], s => ([], s)
  | i :: is, s =>
    let a := subscribeItem sess i s
    let b := subscribeItems sess is a.2
    (plainItem i a.1 :: b.1, b.2)

/-- SUBSCRIBE. -/
def ropSubscribe (r : RopReq) (s : State) : List RespItem × State := subscribeItems r.sess r.items s

/-! ### NOTIFY (R59, R60) -/

/-- The value a subscription reads now, if it may be read. -/
def subVal (sess : Nat) (b : Subscr) (s : State) : Option ObjVal :=
  match readCheck sess b.idx b.sub s with
  | .ok _ => some (viewVal (sessBe sess) sess (objKey b.idx b.sub) s)
  | .error _ => none

/-- Store a session's subscription number `k`. -/
def setSub (sess k : Nat) (b : Subscr) (s : State) : State :=
  let x := getSess sess s
  setSess sess { x with subs := x.subs.set k b } s

/-- Queue the value of an ON_CHANGE subscription if it differs from the one last sent; its minimum interval begins. -/
def subChanged (sess k : Nat) (b : Subscr) (s : State) : State :=
  match subVal sess b s with
  | some v =>
    if b.lastSent = some v then setSub sess k { b with holdOff := false } s
    else queueNotif sess (.value b.idx b.sub v) (setSub sess k { b with lastSent := some v, holdOff := true } s)
  | none => setSub sess k { b with holdOff := false } s

/-- The changes of a session's ON_CHANGE subscriptions whose minimum interval is not running are queued: at each clock on which no
command runs, and before a NOTIFY (log entry 85). -/
def sampleSubs (sess : Nat) (s : State) : State :=
  (getSess sess s).subs.zipIdx.foldl (fun u p => if p.1.mode = 1 ∧ !p.1.holdOff then subChanged sess p.2 p.1 u else u) s

/-- The period or minimum interval of subscription number `k` ends. -/
def subTimer (sess k : Nat) (s : State) : State :=
  match (getSess sess s).subs[k]? with
  | some b =>
    if answererDown s then s
    else if b.mode = 1 then (if b.holdOff then subChanged sess k b s else s)
    else if b.mode = 2 then
      (match subVal sess b s with
        | some v => queueNotif sess (.value b.idx b.sub v) (setSub sess k { b with lastSent := some v } s)
        | none => s)
    else s
  | none => s

/-- The bytes of a value in a NOTIFY: a STR or BLOB longer than the message holds is cut to its first piece (R52). -/
def clipNotif (room : Nat) : Notif → Notif
  | .value idx sub (.bytes bs) => .value idx sub (.bytes (if room < 8 + pad4 bs.length then bs.take (room - 12) else bs))
  | n => n

/-- The bytes of an event record (Table 2.12); every event's definition states an argument, so EFLAGS bit 0 is set (log entry 12). -/
def EvRec.bytes (be : Bool) (r : EvRec) : List Byte :=
  let o := Config.evObject r.code r.arg
  bytesOrd be 2 r.code ++ bytesLE 1 (evSeverity r.code) ++ bytesLE 1 (Config.evSource r.code) ++ bytesOrd be 4 r.seq
    ++ bytesOrd be 10 (r.sec * 2 ^ 32 + r.nsec) ++ bytesOrd be 2 o.1 ++ bytesLE 1 o.2 ++ bytesLE 1 (1 + 2 * ofBool r.again) ++ [0#8, 0#8]
    ++ bytesOrd be 8 r.arg

/-- The item a notification travels as (R60): a value as an item of its object, an event record as a BLOB of 32 bytes. -/
def notifItem (be : Bool) (room : Nat) : Notif → RespItem
  | .value idx sub (.num n) =>
    (match lookupObj idx sub with
      | .ok d => ⟨idx, sub, d.ty.code, false, false, 0, d.encode be (.num n)⟩
      | .error _ => ⟨idx, sub, 0, false, false, 0, []⟩)
  | .value idx sub (.bytes bs) =>
    let ty := match lookupObj idx sub with | .ok d => d.ty.code | .error _ => ObjType.blob.code
    if room < 8 + pad4 bs.length then ⟨idx, sub, ty, true, false, 0, bytesOrd be 4 0 ++ bs.take (room - 12)⟩
    else ⟨idx, sub, ty, false, false, 0, bs⟩
  | .event r => ⟨0, 0, ObjType.blob.code, false, false, 0, r.bytes be⟩

/-- The bytes of a NOTIFY (R60): with OVERFLOW its first item is the count of discarded notifications. -/
def notifyMessage (be : Bool) (room seq : Nat) (overflow : Bool) (lost : Nat) (ns : List Notif) : List Byte :=
  messageBytes be 5 (4 * ofBool overflow) 0 0 seq
    ((if overflow then [notifItem be room (.value (O.NOTIFY_LOST / 256) (O.NOTIFY_LOST % 256) (.num lost))] else []) ++ ns.map (notifItem be room))

/-- The bytes of an item of a NOTIFY. -/
def notifBytes (room : Nat) : Notif → Nat
  | .value idx sub (.num _) => 8 + (match lookupObj idx sub with | .ok d => pad4 (d.ty.size.getD 0) | .error _ => 0)
  | .value _ _ (.bytes bs) => if room < 8 + pad4 bs.length then room else 8 + pad4 bs.length
  | .event _ => 40

/-- How many queued notifications fit in `left` bytes and `n` items, oldest first; `room` is that of an empty message. -/
def fitCount (room : Nat) : Nat → Nat → List Notif → Nat
  | 0, _, _ => 0
  | _, _, [] => 0
  | n + 1, left, x :: xs =>
    let b := notifBytes room x
    if left < b then 0 else 1 + fitCount room n (left - b) xs

/-- Whether a NOTIFY can go to a session now. -/
def mayNotify (n : Nat) (s : State) : Bool :=
  !answererDown s && sourceServed n s
    && (if sessMgmt n then (getSess n s).isOpen else n ≤ 72 && fnLive (sessFn n) s && !(getBox n s).noteReady)

/-- The changes of every session's subscriptions, while firmware runs. -/
def sampleAllSubs (s : State) : State :=
  if answererDown s then s else (s.dict.sessions.map (·.1)).foldl (fun u n => sampleSubs n u) s

/-- One NOTIFY, if anything waits and it may leave; what has changed is queued in either case. -/
def sendNotify (n : Nat) (s : State) : State :=
  let t := if answererDown s then s else sampleSubs n s
  if !mayNotify n t then t
  else
    let x := getSess n t
    if x.queue.isEmpty && !x.overflow then t
    else
      let room := msgLimit n - 16
      let k := fitCount room (if x.overflow then 31 else 32) (if x.overflow then room - 12 else room) x.queue
      let seq := (x.notifySeq + 1) % 2 ^ 32
      let u := emit (.ropNotify n seq x.overflow (if x.overflow then x.lost else 0) ((x.queue.take k).map (clipNotif room)))
        (setSess n { x with
          queue := x.queue.drop k, notifySeq := seq, overflow := false, lost := if x.overflow then 0 else x.lost } t)
      let m := notifyMessage (sessBe n) room seq x.overflow x.lost (x.queue.take k)
      if sessMgmt n then emit (.datagram n m) u else emit (.interrupt (sessFn n) 0) (setBox n { getBox n u with noteReady := true, note := m } u)

/-! ### Sessions on the management port (R46 to R48) -/

/-- Whether a handshake is one R46 supports, and its chain reaches an anchor (R47). -/
def handshakeOk (h : Handshake) (s : State) : Bool :=
  h.mutualEcdsaP384Sha384 && h.ecdheP384 && (h.suite == 0x1301 || h.suite == 0x1302) && !h.psk && !h.earlyData && !h.connectionId
    && h.verified && ((h.anchor == 0 && !(getB O.ROP_ANCHOR_ADMIN s).isEmpty) || (h.anchor == 1 && !(getB O.ROP_ANCHOR_OBSERVER s).isEmpty))

/-- The lowest session number that is free. -/
def freeSession (s : State) : Option Nat := (List.range 8).find? fun n => !(getSess n s).isOpen

/-- A handshake at the UDP port the gateway listens on (R48): a session opens, or it is refused and logged. -/
def takeHandshake (h : Handshake) (s : State) : State :=
  if !sourceServed 0 s || !mgtUp s || h.dstPort != getN O.ROP_UDP_PORT s then s
  else match freeSession s, handshakeOk h s with
  | some n, true => emit (.dtlsAnswer (some n)) (logEvent 0x0410 n (setSess n { Session.closed with isOpen := true, admin := h.anchor == 0 } s))
  | _, _ => emit (.dtlsAnswer none) (logEvent 0x0412 (h.srcAddr % 2 ^ 64) s)

/-- A session closes: its groups lose their owner, and what it holds ends with it (R40, R59, R62). -/
def closeSession (n : Nat) (s : State) : State :=
  if !(getSess n s).isOpen then s
  else
    let t := cgSessionGone n (setSess n Session.closed s)
    let d := t.dev
    logEvent 0x0411 n { t with dev := { d with
      passed := d.passed.filter fun p => p.1 != n
      challenges := smPut (fun _ => (none : Option (Nat × List Byte × Nat))) n none d.challenges
      reports := smPut (fun _ => ([] : List Byte)) n [] d.reports } }

/-- A session's unlock ends (R40). -/
def unlockEnds (n : Nat) (s : State) : State := setSess n { getSess n s with unlocked := false } s

end Sys2Proof.Machine
end

