-- ==== Sys2Proof/Machine/Rop.lean ====
section
/-! DEFINITION. The commands of the dictionary and of the Rovik Object Protocol (R40 to R68). -/

namespace Sys2Proof.Machine

/-- DTLS_HANDSHAKE (R46). -/
def execDtlsHandshake (h : Handshake) (s : State) : Host.Outcome State Fault Refusal := .next (takeHandshake h s)

/-- DTLS_CLOSE (R48). -/
def execDtlsClose (sess : Fin 8) (s : State) : Host.Outcome State Fault Refusal := .next (closeSession sess.val s)

/-- ROP_IDLE_EXPIRY (R48). -/
def execRopIdleExpiry (sess : Fin 8) (s : State) : Host.Outcome State Fault Refusal := .next (closeSession sess.val s)

/-- READ (R56). -/
def execRead (r : RopReq) (s : State) : Host.Outcome State Fault Refusal := .next (ropRequest 1 r (ropRead r) s)

/-- WRITE (R57). -/
def execWrite (r : RopReq) (s : State) : Host.Outcome State Fault Refusal := .next (ropRequest 2 r (ropWrite r) s)

/-- COMMIT (R64). -/
def execCommit (r : RopReq) (s : State) : Host.Outcome State Fault Refusal := .next (ropRequest 3 r (ropCommit false r) s)

/-- ABORT (R67). -/
def execAbort (r : RopReq) (s : State) : Host.Outcome State Fault Refusal := .next (ropRequest 3 r (ropCommit true r) s)

/-- SUBSCRIBE (R59). -/
def execSubscribe (r : RopReq) (s : State) : Host.Outcome State Fault Refusal := .next (ropRequest 4 r (ropSubscribe r) s)

/-- ROP_RESPONSE_IN (R50): discarded, and counted nowhere. A mailbox stays BUSY until a response is written, and none is. -/
def execRopResponseIn (_r : RopReq) (s : State) : Host.Outcome State Fault Refusal := .next s

/-- ROP_OP_NOT_KNOWN (R50). -/
def execRopOpNotKnown (op : Nat) (r : RopReq) (s : State) : Host.Outcome State Fault Refusal :=
  .next (ropRequest op r (fun u => (allItems 0x03 r, u)) s)

/-- NOTIFY (R60). -/
def execNotify (sess : Fin 73) (s : State) : Host.Outcome State Fault Refusal := .next (sendNotify sess.val s)

/-- SUBSCRIPTION_TIMER (R59). -/
def execSubscriptionTimer (sess : Fin 73) (k : Nat) (s : State) : Host.Outcome State Fault Refusal := .next (subTimer sess.val k s)

/-- CG_LEASE_EXPIRY (R62). -/
def execCgLeaseExpiry (id : Fin 255) (s : State) : Host.Outcome State Fault Refusal := .next (cgOwnerGone id.val s)

/-- CG_APPLY (R64). -/
def execCgApply (id : Fin 255) (part : Fin 8) (s : State) : Host.Outcome State Fault Refusal :=
  .next (settle (cgBoundaryAt id.val part.val s))

/-- UNLOCK_EXPIRY (R40). -/
def execUnlockExpiry (sess : Fin 73) (s : State) : Host.Outcome State Fault Refusal := .next (unlockEnds sess.val s)

/-- CFG_SAVE (R41). -/
def execCfgSave (sess : Fin 73) (s : State) : Host.Outcome State Fault Refusal :=
  .next (numRow O.CFG_SAVE sess.val cfgSaveCode (cfgSaveCheck cfgSaveCode) (cfgSaveEffect cfgSaveCode) s)

/-- CFG_SAVE with the erase code (R41). -/
def execCfgErase (sess : Fin 73) (s : State) : Host.Outcome State Fault Refusal :=
  .next (numRow O.CFG_SAVE sess.val cfgEraseCode (cfgSaveCheck cfgEraseCode) (cfgSaveEffect cfgEraseCode) s)

/-- CFG_WRITE_DONE (R41, R42). -/
def execCfgWriteDone (s : State) : Host.Outcome State Fault Refusal := .next (cfgDone s)

end Sys2Proof.Machine
end

