-- ==== Sys2Proof/Machine/Scalar.lean ====
section
/-! DEFINITION. The meanings of the scalar instructions of a stall (Table 5.6, R154 to R158). -/

namespace Sys2Proof.Machine

/-- NOP has no effect but the PC (R155). -/
def execNop (st : Fin 128) (_o : ScalarOp) (s : State) : Host.Outcome State Fault Refusal :=
  .next (stallStep st.val (retire st.val id) s)

/-- ADD (R155). -/
def execAdd (st : Fin 128) (o : ScalarOp) (s : State) : Host.Outcome State Fault Refusal :=
  .next (stallStep st.val (scalarBin st.val o fun a b => a + b) s)

/-- SUB. -/
def execSub (st : Fin 128) (o : ScalarOp) (s : State) : Host.Outcome State Fault Refusal :=
  .next (stallStep st.val (scalarBin st.val o fun a b => a - b) s)

/-- AND. -/
def execAnd (st : Fin 128) (o : ScalarOp) (s : State) : Host.Outcome State Fault Refusal :=
  .next (stallStep st.val (scalarBin st.val o fun a b => a &&& b) s)

/-- OR. -/
def execOr (st : Fin 128) (o : ScalarOp) (s : State) : Host.Outcome State Fault Refusal :=
  .next (stallStep st.val (scalarBin st.val o fun a b => a ||| b) s)

/-- XOR. -/
def execXor (st : Fin 128) (o : ScalarOp) (s : State) : Host.Outcome State Fault Refusal :=
  .next (stallStep st.val (scalarBin st.val o fun a b => a ^^^ b) s)

/-- SHL. -/
def execShl (st : Fin 128) (o : ScalarOp) (s : State) : Host.Outcome State Fault Refusal :=
  .next (stallStep st.val (scalarBin st.val o fun a b => a <<< shiftBy b) s)

/-- SHR. -/
def execShr (st : Fin 128) (o : ScalarOp) (s : State) : Host.Outcome State Fault Refusal :=
  .next (stallStep st.val (scalarBin st.val o fun a b => a >>> shiftBy b) s)

/-- SRA. -/
def execSra (st : Fin 128) (o : ScalarOp) (s : State) : Host.Outcome State Fault Refusal :=
  .next (stallStep st.val (scalarBin st.val o fun a b => a.sshiftRight (shiftBy b)) s)

/-- MUL: the low 64 bits of the product. -/
def execMul (st : Fin 128) (o : ScalarOp) (s : State) : Host.Outcome State Fault Refusal :=
  .next (stallStep st.val (scalarBin st.val o fun a b => a * b) s)

/-- SLT: signed. -/
def execSlt (st : Fin 128) (o : ScalarOp) (s : State) : Host.Outcome State Fault Refusal :=
  .next (stallStep st.val (scalarBin st.val o fun a b => if a.toInt < b.toInt then 1 else 0) s)

/-- SLTU: unsigned. -/
def execSltu (st : Fin 128) (o : ScalarOp) (s : State) : Host.Outcome State Fault Refusal :=
  .next (stallStep st.val (scalarBin st.val o fun a b => if a.toNat < b.toNat then 1 else 0) s)

/-- LDI. -/
def execLdi (st : Fin 128) (o : ScalarOp) (s : State) : Host.Outcome State Fault Refusal :=
  .next (stallStep st.val (scalarLdi st.val o) s)

/-- LD. -/
def execLd (st : Fin 128) (o : WithErrs ScalarOp) (s : State) : Host.Outcome State Fault Refusal :=
  .next (eccStep st.val o.errs [(scalarAddr (getStall st.val s) o.op, 8)] (stallStep st.val (scalarLd st.val o.op)) s)

/-- ST. -/
def execSt (st : Fin 128) (o : ScalarOp) (s : State) : Host.Outcome State Fault Refusal :=
  .next (stallStep st.val (scalarSt st.val o) s)

/-- BR. -/
def execBr (st : Fin 128) (o : ScalarOp) (s : State) : Host.Outcome State Fault Refusal :=
  .next (stallStep st.val (scalarBr st.val o) s)

/-- JAL. -/
def execJal (st : Fin 128) (o : ScalarOp) (s : State) : Host.Outcome State Fault Refusal :=
  .next (stallStep st.val (scalarJal st.val o) s)

/-- JR. -/
def execJr (st : Fin 128) (o : ScalarOp) (s : State) : Host.Outcome State Fault Refusal :=
  .next (stallStep st.val (scalarJr st.val o) s)

/-- CSRR (R158). -/
def execCsrr (st : Fin 128) (o : ScalarOp) (s : State) : Host.Outcome State Fault Refusal :=
  .next (stallStep st.val (scalarCsrr st.val o) s)

/-- CSRW (R182). -/
def execCsrw (st : Fin 128) (o : ScalarOp) (s : State) : Host.Outcome State Fault Refusal :=
  .next (stallStep st.val (scalarCsrw st.val o) s)

end Sys2Proof.Machine
end

