-- ==== Sys2Proof/Machine/Sched.lean ====
section
/-! DEFINITION. The meanings of the line scheduler's commands. -/

namespace Sys2Proof.Machine

/-- SCHED_SELECT (R278). -/
def execSchedSelect (port : Fin 4) (s : State) : Host.Outcome State Fault Refusal := .next (schedSelect port.val s)

/-- ENQUEUE_ROOM (R276). -/
def execEnqueueRoom (k : Nat) (s : State) : Host.Outcome State Fault Refusal := .next (settle (enqueueRoom k s))

/-- SCHED_SAMPLE (R295). -/
def execSchedSample (s : State) : Host.Outcome State Fault Refusal := .next (sampleAll s)

/-- CREDIT_SEND (R289). -/
def execCreditSend (group : Fin 1024) (site : Fin 32) (s : State) : Host.Outcome State Fault Refusal :=
  .next (sendCredit group.val site.val s)

/-- CREDIT (R290). -/
def execCredit (h : CtlHdr) (postedSeq postedLimit blindLimit : Nat) (s : State) : Host.Outcome State Fault Refusal :=
  .next (takeCredit h postedSeq postedLimit blindLimit s)

/-- TENANT_ETH_RX (R456). -/
def execTenantEthRx (frame : List Byte) (s : State) : Host.Outcome State Fault Refusal := .next (tenantFrame frame s)

end Sys2Proof.Machine
end

