-- ==== Sys2Proof/Machine/SelfTest.lean ====
section
/-! DEFINITION. The commands of self-test, ageing and margin re-planning (chapter 21). -/

namespace Sys2Proof.Machine

/-- BIST_SLICE_START (R535). -/
def execBistSliceStart (slot : Fin 2) (island : Fin 112) (item : BistItem) (headroom : Int) (s : State) :
    Host.Outcome State Fault Refusal := .next (sliceStart slot.val island.val item headroom s)

/-- BIST_SLICE_END (R540). -/
def execBistSliceEnd (slot : Fin 2) (pass : Bool) (s : State) : Host.Outcome State Fault Refusal := .next (sliceEnd slot.val pass s)

/-- BIST_CYCLE_OVERDUE (R536). -/
def execBistCycleOverdue (suspended : Nat) (s : State) : Host.Outcome State Fault Refusal := .next (cycleOverdue suspended s)

/-- AGE_SLACK_SAMPLE (R541). -/
def execAgeSlackSample (slacks : List Int) (s : State) : Host.Outcome State Fault Refusal := .next (ageSlack slacks s)

/-- AGE_EYE_SAMPLE (R541). -/
def execAgeEyeSample (eyes : List Nat) (s : State) : Host.Outcome State Fault Refusal := .next (ageEye eyes s)

/-- AGE_TEMP_SAMPLE (R542). -/
def execAgeTempSample (cc : Int) (s : State) : Host.Outcome State Fault Refusal := .next (ageTemp cc s)

/-- REPLAN_DUE (R543). -/
def execReplanDue (r : ReplanData) (s : State) : Host.Outcome State Fault Refusal := .next (replanAsked r s)

/-- REPLAN_CMD NOW (R543). -/
def execReplanCmdNow (sess : Fin 73) (r : ReplanData) (s : State) : Host.Outcome State Fault Refusal :=
  .next (numRow O.REPLAN_CMD sess.val 1 (fun _ => 0) (replanAsked r) s)

/-- VOLTAGE_STEP (R544). -/
def execVoltageStep (k : Fin 29) (slack : Int) (s : State) : Host.Outcome State Fault Refusal := .next (voltageStep k.val slack s)

end Sys2Proof.Machine
end

