-- ==== Sys2Proof/Machine/Vector.lean ====
section
/-! DEFINITION. The meanings of the vector instructions of a stall (Table 5.6, R155, R188 to R190). -/

namespace Sys2Proof.Machine

/-- VADD (R155, R188). -/
def execVadd (st : Fin 128) (o : VectorOp) (s : State) : Host.Outcome State Fault Refusal :=
  .next (stallStep st.val (vectorArith .add st.val o) s)

/-- VSUB (R155, R188). -/
def execVsub (st : Fin 128) (o : VectorOp) (s : State) : Host.Outcome State Fault Refusal :=
  .next (stallStep st.val (vectorArith .sub st.val o) s)

/-- VMUL (R155, R188). -/
def execVmul (st : Fin 128) (o : VectorOp) (s : State) : Host.Outcome State Fault Refusal :=
  .next (stallStep st.val (vectorArith .mul st.val o) s)

/-- VFMA (R155, R188). -/
def execVfma (st : Fin 128) (o : VectorOp) (s : State) : Host.Outcome State Fault Refusal :=
  .next (stallStep st.val (vectorArith .fma st.val o) s)

/-- VMAX (R155, R188). -/
def execVmax (st : Fin 128) (o : VectorOp) (s : State) : Host.Outcome State Fault Refusal :=
  .next (stallStep st.val (vectorArith .max st.val o) s)

/-- VMIN (R155, R188). -/
def execVmin (st : Fin 128) (o : VectorOp) (s : State) : Host.Outcome State Fault Refusal :=
  .next (stallStep st.val (vectorArith .min st.val o) s)

/-- VDIV (R155, R188). -/
def execVdiv (st : Fin 128) (o : VectorOp) (s : State) : Host.Outcome State Fault Refusal :=
  .next (stallStep st.val (vectorArith .div st.val o) s)

/-- VSQRT (R155, R188). -/
def execVsqrt (st : Fin 128) (o : VectorOp) (s : State) : Host.Outcome State Fault Refusal :=
  .next (stallStep st.val (vectorArith .sqrt st.val o) s)

/-- VCVT (R190). -/
def execVcvt (st : Fin 128) (o : VectorOp) (s : State) : Host.Outcome State Fault Refusal :=
  .next (stallStep st.val (vectorCvt st.val o) s)

/-- VSPLAT. -/
def execVsplat (st : Fin 128) (o : VectorOp) (s : State) : Host.Outcome State Fault Refusal :=
  .next (stallStep st.val (vectorSplat st.val o) s)

/-- VREDSUM (R153). -/
def execVredsum (st : Fin 128) (o : VectorOp) (s : State) : Host.Outcome State Fault Refusal :=
  .next (stallStep st.val (vectorRedsum st.val o) s)

/-- VLD (R188). -/
def execVld (st : Fin 128) (o : WithErrs VectorOp) (s : State) : Host.Outcome State Fault Refusal :=
  .next (eccStep st.val o.errs (vldSpan st.val o.op s) (stallStep st.val (vectorLd st.val o.op)) s)

/-- VST (R188). -/
def execVst (st : Fin 128) (o : VectorOp) (s : State) : Host.Outcome State Fault Refusal :=
  .next (stallStep st.val (vectorSt st.val o) s)

/-- VCMP. -/
def execVcmp (st : Fin 128) (o : VectorOp) (s : State) : Host.Outcome State Fault Refusal :=
  .next (stallStep st.val (vectorCmp st.val o) s)

/-- VSEL. -/
def execVsel (st : Fin 128) (o : VectorOp) (s : State) : Host.Outcome State Fault Refusal :=
  .next (stallStep st.val (vectorSel st.val o) s)

end Sys2Proof.Machine
end

