-- ==== Sys2Proof/Machine/Dispatch.lean ====
section
/-! DEFINITION. What each command does: one direct call of its meaning. -/

namespace Sys2Proof.Machine

/-- The effect of a command on everything but the queue. -/
def exec (i : Instr) (s : State) : Host.Outcome State Fault Refusal :=
  match i with
  | .auxApplied place factory => Sys2Proof.Machine.execAuxApplied place factory s
  | .auxLost => Sys2Proof.Machine.execAuxLost s
  | .bootStart hot rails => Sys2Proof.Machine.execBootStart hot rails s
  | .stage1Start fusesOk => Sys2Proof.Machine.execStage1Start fusesOk s
  | .pcieFundamentalReset => Sys2Proof.Machine.execPcieFundamentalReset s
  | .dtlsHandshake h => Sys2Proof.Machine.execDtlsHandshake h s
  | .dtlsClose sess => Sys2Proof.Machine.execDtlsClose sess s
  | .ropIdleExpiry sess => Sys2Proof.Machine.execRopIdleExpiry sess s
  | .read r => Sys2Proof.Machine.execRead r s
  | .write r => Sys2Proof.Machine.execWrite r s
  | .commit r => Sys2Proof.Machine.execCommit r s
  | .abort r => Sys2Proof.Machine.execAbort r s
  | .subscribe r => Sys2Proof.Machine.execSubscribe r s
  | .ropResponseIn r => Sys2Proof.Machine.execRopResponseIn r s
  | .notify sess => Sys2Proof.Machine.execNotify sess s
  | .subscriptionTimer sess k => Sys2Proof.Machine.execSubscriptionTimer sess k s
  | .cgLeaseExpiry id => Sys2Proof.Machine.execCgLeaseExpiry id s
  | .cgApply id part => Sys2Proof.Machine.execCgApply id part s
  | .unlockExpiry sess => Sys2Proof.Machine.execUnlockExpiry sess s
  | .cfgSave sess => Sys2Proof.Machine.execCfgSave sess s
  | .cfgErase sess => Sys2Proof.Machine.execCfgErase sess s
  | .cfgWriteDone => Sys2Proof.Machine.execCfgWriteDone s
  | .groupOpen => Sys2Proof.Machine.execGroupOpen s
  | .groupModify => Sys2Proof.Machine.execGroupModify s
  | .groupClose => Sys2Proof.Machine.execGroupClose s
  | .hello h b => Sys2Proof.Machine.execHello h b s
  | .helloRetry group => Sys2Proof.Machine.execHelloRetry group s
  | .postReduceScatter p src => Sys2Proof.Machine.execPostReduceScatter p src s
  | .postAllGather p src => Sys2Proof.Machine.execPostAllGather p src s
  | .postAllReduce p src => Sys2Proof.Machine.execPostAllReduce p src s
  | .postCancel p src => Sys2Proof.Machine.execPostCancel p src s
  | .collActivate group seq => Sys2Proof.Machine.execCollActivate group seq s
  | .chunkReq h chunk attempt => Sys2Proof.Machine.execChunkReq h chunk attempt s
  | .chunkWaitExpiry group seq chunk => Sys2Proof.Machine.execChunkWaitExpiry group seq chunk s
  | .collTimeout group seq => Sys2Proof.Machine.execCollTimeout group seq s
  | .confirm h b => Sys2Proof.Machine.execConfirm h b s
  | .confirmResend group seq => Sys2Proof.Machine.execConfirmResend group seq s
  | .cancel h => Sys2Proof.Machine.execCancel h s
  | .endStatus h status cause => Sys2Proof.Machine.execEndStatus h status cause s
  | .epochAdv h c => Sys2Proof.Machine.execEpochAdv h c s
  | .epochAck h newEpoch entries => Sys2Proof.Machine.execEpochAck h newEpoch entries s
  | .epochResolveTimeout group => Sys2Proof.Machine.execEpochResolveTimeout group s
  | .unexpWaitExpiry group seq => Sys2Proof.Machine.execUnexpWaitExpiry group seq s
  | .weightsDone d => Sys2Proof.Machine.execWeightsDone d s
  | .loadAnchor d => Sys2Proof.Machine.execLoadAnchor d s
  | .loadMomentum d => Sys2Proof.Machine.execLoadMomentum d s
  | .outcomeQuery d => Sys2Proof.Machine.execOutcomeQuery d s
  | .anchorRead d => Sys2Proof.Machine.execAnchorRead d s
  | .momentumRead d => Sys2Proof.Machine.execMomentumRead d s
  | .abandon sess => Sys2Proof.Machine.execAbandon sess s
  | .loadCommit sess => Sys2Proof.Machine.execLoadCommit sess s
  | .sweepPage => Sys2Proof.Machine.execSweepPage s
  | .nextAnchorReturn t => Sys2Proof.Machine.execNextAnchorReturn t s
  | .outcomeRecord => Sys2Proof.Machine.execOutcomeRecord s
  | .refillServe site k ix => Sys2Proof.Machine.execRefillServe site k ix s
  | .refillRetry answers expired => Sys2Proof.Machine.execRefillRetry answers expired s
  | .refillComplete pages record src0 => Sys2Proof.Machine.execRefillComplete pages record src0 s
  | .hbmUncorrectable h => Sys2Proof.Machine.execHbmUncorrectable h s
  | .nop st o => Sys2Proof.Machine.execNop st o s
  | .add st o => Sys2Proof.Machine.execAdd st o s
  | .sub st o => Sys2Proof.Machine.execSub st o s
  | .and st o => Sys2Proof.Machine.execAnd st o s
  | .or st o => Sys2Proof.Machine.execOr st o s
  | .xor st o => Sys2Proof.Machine.execXor st o s
  | .shl st o => Sys2Proof.Machine.execShl st o s
  | .shr st o => Sys2Proof.Machine.execShr st o s
  | .sra st o => Sys2Proof.Machine.execSra st o s
  | .mul st o => Sys2Proof.Machine.execMul st o s
  | .slt st o => Sys2Proof.Machine.execSlt st o s
  | .sltu st o => Sys2Proof.Machine.execSltu st o s
  | .ldi st o => Sys2Proof.Machine.execLdi st o s
  | .ld st o => Sys2Proof.Machine.execLd st o s
  | .st st o => Sys2Proof.Machine.execSt st o s
  | .br st o => Sys2Proof.Machine.execBr st o s
  | .jal st o => Sys2Proof.Machine.execJal st o s
  | .jr st o => Sys2Proof.Machine.execJr st o s
  | .csrr st o => Sys2Proof.Machine.execCsrr st o s
  | .csrw st o => Sys2Proof.Machine.execCsrw st o s
  | .vadd st o => Sys2Proof.Machine.execVadd st o s
  | .vsub st o => Sys2Proof.Machine.execVsub st o s
  | .vmul st o => Sys2Proof.Machine.execVmul st o s
  | .vfma st o => Sys2Proof.Machine.execVfma st o s
  | .vmax st o => Sys2Proof.Machine.execVmax st o s
  | .vmin st o => Sys2Proof.Machine.execVmin st o s
  | .vdiv st o => Sys2Proof.Machine.execVdiv st o s
  | .vsqrt st o => Sys2Proof.Machine.execVsqrt st o s
  | .vcvt st o => Sys2Proof.Machine.execVcvt st o s
  | .vsplat st o => Sys2Proof.Machine.execVsplat st o s
  | .vredsum st o => Sys2Proof.Machine.execVredsum st o s
  | .vld st o => Sys2Proof.Machine.execVld st o s
  | .vst st o => Sys2Proof.Machine.execVst st o s
  | .vcmp st o => Sys2Proof.Machine.execVcmp st o s
  | .vsel st o => Sys2Proof.Machine.execVsel st o s
  | .mopa st o => Sys2Proof.Machine.execMopa st o s
  | .mst st o => Sys2Proof.Machine.execMst st o s
  | .mld st o => Sys2Proof.Machine.execMld st o s
  | .mzero st o => Sys2Proof.Machine.execMzero st o s
  | .xcfg st o => Sys2Proof.Machine.execXcfg st o s
  | .tallyAdd st o => Sys2Proof.Machine.execTallyAdd st o s
  | .tallyWaitGe st o => Sys2Proof.Machine.execTallyWaitGe st o s
  | .tallyWaitSatisfied st => Sys2Proof.Machine.execTallyWaitSatisfied st s
  | .tallyReset st o => Sys2Proof.Machine.execTallyReset st o s
  | .xld st o => Sys2Proof.Machine.execXld st o s
  | .xst st o => Sys2Proof.Machine.execXst st o s
  | .rtree st o => Sys2Proof.Machine.execRtree st o s
  | .rtreeComplete placement row tag => Sys2Proof.Machine.execRtreeComplete placement row tag s
  | .pkick st o => Sys2Proof.Machine.execPkick st o s
  | .sync st o => Sys2Proof.Machine.execSync st o s
  | .stallStop st o => Sys2Proof.Machine.execStallStop st o s
  | .trap st o => Sys2Proof.Machine.execTrap st o s
  | .stallWatchdog st => Sys2Proof.Machine.execStallWatchdog st s
  | .placementStart => Sys2Proof.Machine.execPlacementStart s
  | .migrationDrained row => Sys2Proof.Machine.execMigrationDrained row s
  | .migDrainExpiry row => Sys2Proof.Machine.execMigDrainExpiry row s
  | .rowFreqMhz row w => Sys2Proof.Machine.execRowFreqMhz row w s
  | .progImage w => Sys2Proof.Machine.execProgImage w s
  | .progUnload w => Sys2Proof.Machine.execProgUnload w s
  | .xcTable table w => Sys2Proof.Machine.execXcTable table w s
  | .crateAlloc q => Sys2Proof.Machine.execCrateAlloc q s
  | .crateWaitServed k => Sys2Proof.Machine.execCrateWaitServed k s
  | .allocWaitExpiry k => Sys2Proof.Machine.execAllocWaitExpiry k s
  | .handleCacheRefill cls => Sys2Proof.Machine.execHandleCacheRefill cls s
  | .handleCacheSpill cls => Sys2Proof.Machine.execHandleCacheSpill cls s
  | .ref o n => Sys2Proof.Machine.execRef o n s
  | .deref o => Sys2Proof.Machine.execDeref o s
  | .give o newOwner => Sys2Proof.Machine.execGive o newOwner s
  | .free o => Sys2Proof.Machine.execFree o s
  | .crateStrict w => Sys2Proof.Machine.execCrateStrict w s
  | .tenantTeardown tenant => Sys2Proof.Machine.execTenantTeardown tenant s
  | .blFcIn link high => Sys2Proof.Machine.execBlFcIn link high s
  | .dropRest d => Sys2Proof.Machine.execDropRest d s
  | .blRxWm link w => Sys2Proof.Machine.execBlRxWm link w s
  | .copy ch o => Sys2Proof.Machine.execCopy ch o s
  | .xcEncode ch o => Sys2Proof.Machine.execXcEncode ch o s
  | .xcCheck ch o => Sys2Proof.Machine.execXcCheck ch o s
  | .xcDecode ch o => Sys2Proof.Machine.execXcDecode ch o s
  | .zero ch o => Sys2Proof.Machine.execZero ch o s
  | .loop ch o => Sys2Proof.Machine.execLoop ch o s
  | .wait ch o => Sys2Proof.Machine.execWait ch o s
  | .porterWaitSatisfied ch => Sys2Proof.Machine.execPorterWaitSatisfied ch s
  | .porterWaitWatchdog ch => Sys2Proof.Machine.execPorterWaitWatchdog ch s
  | .signal ch o => Sys2Proof.Machine.execSignal ch o s
  | .porterStop ch code reserved => Sys2Proof.Machine.execPorterStop ch code reserved s
  | .porterBurst die hostData hostOk => Sys2Proof.Machine.execPorterBurst die hostData hostOk s
  | .burstDone ch hostOk => Sys2Proof.Machine.execBurstDone ch hostOk s
  | .channelFault ch => Sys2Proof.Machine.execChannelFault ch s
  | .channelStop ch => Sys2Proof.Machine.execChannelStop ch s
  | .porterChCfg ch w => Sys2Proof.Machine.execPorterChCfg ch w s
  | .frameStart c => Sys2Proof.Machine.execFrameStart c s
  | .schedSelect port => Sys2Proof.Machine.execSchedSelect port s
  | .enqueueRoom k => Sys2Proof.Machine.execEnqueueRoom k s
  | .schedSample => Sys2Proof.Machine.execSchedSample s
  | .creditSend group site => Sys2Proof.Machine.execCreditSend group site s
  | .credit h postedSeq postedLimit blindLimit => Sys2Proof.Machine.execCredit h postedSeq postedLimit blindLimit s
  | .tenantEthRx frame => Sys2Proof.Machine.execTenantEthRx frame s
  | .alignerWindow c offset window => Sys2Proof.Machine.execAlignerWindow c offset window s
  | .frameReceived c body uncorr => Sys2Proof.Machine.execFrameReceived c body uncorr s
  | .ident c ix => Sys2Proof.Machine.execIdent c ix s
  | .identSend c => Sys2Proof.Machine.execIdentSend c s
  | .losDeclare c => Sys2Proof.Machine.execLosDeclare c s
  | .losClear c => Sys2Proof.Machine.execLosClear c s
  | .lockLost c => Sys2Proof.Machine.execLockLost c s
  | .lockClear c => Sys2Proof.Machine.execLockClear c s
  | .degInterval c => Sys2Proof.Machine.execDegInterval c s
  | .fecBlock c b corr bits => Sys2Proof.Machine.execFecBlock c b corr bits s
  | .lossReportRepeat port => Sys2Proof.Machine.execLossReportRepeat port s
  | .openRangeRepeat c => Sys2Proof.Machine.execOpenRangeRepeat c s
  | .lossReport c r => Sys2Proof.Machine.execLossReport c r s
  | .resendHoldExpiry port => Sys2Proof.Machine.execResendHoldExpiry port s
  | .keyLoad w => Sys2Proof.Machine.execKeyLoad w s
  | .changeNow sess port => Sys2Proof.Machine.execChangeNow sess port s
  | .eraseNext sess port => Sys2Proof.Machine.execEraseNext sess port s
  | .keyChangeDue port => Sys2Proof.Machine.execKeyChangeDue port s
  | .announceRetry port => Sys2Proof.Machine.execAnnounceRetry port s
  | .announceTimeout port => Sys2Proof.Machine.execAnnounceTimeout port s
  | .keyChangeRetry port => Sys2Proof.Machine.execKeyChangeRetry port s
  | .announce c m => Sys2Proof.Machine.execAnnounce c m s
  | .ack c m => Sys2Proof.Machine.execAck c m s
  | .nack c m => Sys2Proof.Machine.execNack c m s
  | .boundary c m => Sys2Proof.Machine.execBoundary c m s
  | .keySwitchT port => Sys2Proof.Machine.execKeySwitchT port s
  | .keyOverlapExpiry port => Sys2Proof.Machine.execKeyOverlapExpiry port s
  | .encrypt src rec d => Sys2Proof.Machine.execEncrypt src rec d s
  | .decrypt src rec d => Sys2Proof.Machine.execDecrypt src rec d s
  | .tagCheck src rec d => Sys2Proof.Machine.execTagCheck src rec d s
  | .laserInt m => Sys2Proof.Machine.execLaserInt m s
  | .laserModuleSilent => Sys2Proof.Machine.execLaserModuleSilent s
  | .i2cRetry m => Sys2Proof.Machine.execI2cRetry m s
  | .lmTuneExpiry c => Sys2Proof.Machine.execLmTuneExpiry c s
  | .lockerSample c err orderOk fmonDiff => Sys2Proof.Machine.execLockerSample c err orderOk fmonDiff s
  | .lfFineSteer c => Sys2Proof.Machine.execLfFineSteer c s
  | .lockTimeout c => Sys2Proof.Machine.execLockTimeout c s
  | .acquireTimeout c => Sys2Proof.Machine.execAcquireTimeout c s
  | .downRetry c => Sys2Proof.Machine.execDownRetry c s
  | .marginSend c => Sys2Proof.Machine.execMarginSend c s
  | .offer c m => Sys2Proof.Machine.execOffer c m s
  | .marginReport c m => Sys2Proof.Machine.execMarginReport c m s
  | .set c m => Sys2Proof.Machine.execSet c m s
  | .setAck c m => Sys2Proof.Machine.execSetAck c m s
  | .join c m => Sys2Proof.Machine.execJoin c m s
  | .mgMeasEnd c snr farOffset skewOk => Sys2Proof.Machine.execMgMeasEnd c snr farOffset skewOk s
  | .mgAcqTimeout c => Sys2Proof.Machine.execMgAcqTimeout c s
  | .mgVerifyEnd c snr => Sys2Proof.Machine.execMgVerifyEnd c snr s
  | .qmarginUpdate c snr => Sys2Proof.Machine.execQmarginUpdate c snr s
  | .drainWaitExpiry c => Sys2Proof.Machine.execDrainWaitExpiry c s
  | .laserTrendSample samples => Sys2Proof.Machine.execLaserTrendSample samples s
  | .spareSettle c => Sys2Proof.Machine.execSpareSettle c s
  | .laserFail pos power => Sys2Proof.Machine.execLaserFail pos power s
  | .retest sess c => Sys2Proof.Machine.execRetest sess c s
  | .laserSpare sess c => Sys2Proof.Machine.execLaserSpare sess c s
  | .laserReturn sess c => Sys2Proof.Machine.execLaserReturn sess c s
  | .biasDither c err => Sys2Proof.Machine.execBiasDither c err s
  | .launchPowerLoop c power => Sys2Proof.Machine.execLaunchPowerLoop c power s
  | .lockerCalCheck c diff => Sys2Proof.Machine.execLockerCalCheck c diff s
  | .servoUpdate => Sys2Proof.Machine.execServoUpdate s
  | .secondTick => Sys2Proof.Machine.execSecondTick s
  | .tsSet w => Sys2Proof.Machine.execTsSet w s
  | .ref10mPresent => Sys2Proof.Machine.execRef10mPresent s
  | .ref10mLost => Sys2Proof.Machine.execRef10mLost s
  | .ppsPulse => Sys2Proof.Machine.execPpsPulse s
  | .ttWindow => Sys2Proof.Machine.execTtWindow s
  | .delaySettleExpiry c => Sys2Proof.Machine.execDelaySettleExpiry c s
  | .calibrate sess portWide target => Sys2Proof.Machine.execCalibrate sess portWide target s
  | .calibrationEnd c => Sys2Proof.Machine.execCalibrationEnd c s
  | .asymClear sess portWide target => Sys2Proof.Machine.execAsymClear sess portWide target s
  | .accept sess portWide target => Sys2Proof.Machine.execAccept sess portWide target s
  | .ttAsymPs c w => Sys2Proof.Machine.execTtAsymPs c w s
  | .ptpMessage port domain m => Sys2Proof.Machine.execPtpMessage port domain m s
  | .heartbeatSend => Sys2Proof.Machine.execHeartbeatSend s
  | .heartbeat link sym => Sys2Proof.Machine.execHeartbeat link sym s
  | .heartbeatMissExpiry place => Sys2Proof.Machine.execHeartbeatMissExpiry place s
  | .suspect link msg => Sys2Proof.Machine.execSuspect link msg s
  | .clear link msg => Sys2Proof.Machine.execClear link msg s
  | .promote link msg => Sys2Proof.Machine.execPromote link msg s
  | .fenced link msg => Sys2Proof.Machine.execFenced link msg s
  | .withdraw link msg => Sys2Proof.Machine.execWithdraw link msg s
  | .crierReport link msg => Sys2Proof.Machine.execCrierReport link msg s
  | .reportSend => Sys2Proof.Machine.execReportSend s
  | .voteConfirmExpiry place => Sys2Proof.Machine.execVoteConfirmExpiry place s
  | .shufAck => Sys2Proof.Machine.execShufAck s
  | .shufAckTimeout => Sys2Proof.Machine.execShufAckTimeout s
  | .promotedSend c => Sys2Proof.Machine.execPromotedSend c s
  | .promoted c m => Sys2Proof.Machine.execPromoted c m s
  | .promotedAck c m => Sys2Proof.Machine.execPromotedAck c m s
  | .isolationFence heard => Sys2Proof.Machine.execIsolationFence heard s
  | .promotionRelease => Sys2Proof.Machine.execPromotionRelease s
  | .placeProfile place w => Sys2Proof.Machine.execPlaceProfile place w s
  | .blLaneFail link => Sys2Proof.Machine.execBlLaneFail link s
  | .wtrExpiry c => Sys2Proof.Machine.execWtrExpiry c s
  | .portWithdrawExpiry port => Sys2Proof.Machine.execPortWithdrawExpiry port s
  | .forceOut sess mask => Sys2Proof.Machine.execForceOut sess mask s
  | .clearForce sess mask => Sys2Proof.Machine.execClearForce sess mask s
  | .lockout sess port => Sys2Proof.Machine.execLockout sess port s
  | .clearLockout sess port => Sys2Proof.Machine.execClearLockout sess port s
  | .portUp port => Sys2Proof.Machine.execPortUp port s
  | .portBringupTimeout port lane => Sys2Proof.Machine.execPortBringupTimeout port lane s
  | .portDown port lost => Sys2Proof.Machine.execPortDown port lost s
  | .failback port => Sys2Proof.Machine.execFailback port s
  | .cmReq port service remote bufs => Sys2Proof.Machine.execCmReq port service remote bufs s
  | .rdmaWrite q va bytes => Sys2Proof.Machine.execRdmaWrite q va bytes s
  | .rdmaRead q va len => Sys2Proof.Machine.execRdmaRead q va len s
  | .rdmaSend q bytes => Sys2Proof.Machine.execRdmaSend q bytes s
  | .cnp qp => Sys2Proof.Machine.execCnp qp s
  | .blMsgTx w => Sys2Proof.Machine.execBlMsgTx w s
  | .blMsg link body flow => Sys2Proof.Machine.execBlMsg link body flow s
  | .boardLinkUp link group place => Sys2Proof.Machine.execBoardLinkUp link group place s
  | .boardLinkDown link => Sys2Proof.Machine.execBoardLinkDown link s
  | .mbDoorbell fn length => Sys2Proof.Machine.execMbDoorbell fn length s
  | .respAck fn value => Sys2Proof.Machine.execRespAck fn value s
  | .noteAck fn value => Sys2Proof.Machine.execNoteAck fn value s
  | .subTail fn ring value => Sys2Proof.Machine.execSubTail fn ring value s
  | .compHead fn ring value => Sys2Proof.Machine.execCompHead fn ring value s
  | .ringCtrl fn ring value => Sys2Proof.Machine.execRingCtrl fn ring value s
  | .registerWrite fn offset value => Sys2Proof.Machine.execRegisterWrite fn offset value s
  | .jobCompletion fn ring xend => Sys2Proof.Machine.execJobCompletion fn ring xend s
  | .porterJobStart src host addr reservedZero => Sys2Proof.Machine.execPorterJobStart src host addr reservedZero s
  | .tallyJobAlloc src j reservedZero => Sys2Proof.Machine.execTallyJobAlloc src j reservedZero s
  | .tallyJobFree src base reservedZero => Sys2Proof.Machine.execTallyJobFree src base reservedZero s
  | .tallyJobAdd src tally value reservedZero => Sys2Proof.Machine.execTallyJobAdd src tally value reservedZero s
  | .tallyJobReset src tally reservedZero => Sys2Proof.Machine.execTallyJobReset src tally reservedZero s
  | .placeJobStart src e d => Sys2Proof.Machine.execPlaceJobStart src e d s
  | .xferSend src e d => Sys2Proof.Machine.execXferSend src e d s
  | .xferReceive src e d => Sys2Proof.Machine.execXferReceive src e d s
  | .functionLevelReset fn => Sys2Proof.Machine.execFunctionLevelReset fn s
  | .pcieLinkLoss => Sys2Proof.Machine.execPcieLinkLoss s
  | .statusWord => Sys2Proof.Machine.execStatusWord s
  | .readVin mv => Sys2Proof.Machine.execReadVin mv s
  | .readIin ma => Sys2Proof.Machine.execReadIin ma s
  | .readTemperature1 cc => Sys2Proof.Machine.execReadTemperature1 cc s
  | .readTemperature2 cc => Sys2Proof.Machine.execReadTemperature2 cc s
  | .readTemperature3 cc => Sys2Proof.Machine.execReadTemperature3 cc s
  | .readPin dw => Sys2Proof.Machine.execReadPin dw s
  | .pmbusRevision => Sys2Proof.Machine.execPmbusRevision s
  | .mfrId => Sys2Proof.Machine.execMfrId s
  | .mfrModel => Sys2Proof.Machine.execMfrModel s
  | .mfrDevState => Sys2Proof.Machine.execMfrDevState s
  | .pmbusWrite cmd => Sys2Proof.Machine.execPmbusWrite cmd s
  | .mgmtArp target => Sys2Proof.Machine.execMgmtArp target s
  | .mgmtNeighbourDiscovery target => Sys2Proof.Machine.execMgmtNeighbourDiscovery target s
  | .mgmtIcmpEcho v6 dst data => Sys2Proof.Machine.execMgmtIcmpEcho v6 dst data s
  | .devCmdService sess => Sys2Proof.Machine.execDevCmdService sess s
  | .devCmdLineHold sess => Sys2Proof.Machine.execDevCmdLineHold sess s
  | .devCmdReady sess => Sys2Proof.Machine.execDevCmdReady sess s
  | .devCmdRestart sess zeroOk => Sys2Proof.Machine.execDevCmdRestart sess zeroOk s
  | .devCmdSafe sess => Sys2Proof.Machine.execDevCmdSafe sess s
  | .computeDiesReady rails failed => Sys2Proof.Machine.execComputeDiesReady rails failed s
  | .dlCmdFetch sess => Sys2Proof.Machine.execDlCmdFetch sess s
  | .fetchComplete image => Sys2Proof.Machine.execFetchComplete image s
  | .dlCmdDone sess => Sys2Proof.Machine.execDlCmdDone sess s
  | .dlCmdAbort sess => Sys2Proof.Machine.execDlCmdAbort sess s
  | .dlCmdActivate sess => Sys2Proof.Machine.execDlCmdActivate sess s
  | .activationStart => Sys2Proof.Machine.execActivationStart s
  | .activationWaitExpiry => Sys2Proof.Machine.execActivationWaitExpiry s
  | .activationSoakExpiry => Sys2Proof.Machine.execActivationSoakExpiry s
  | .dlCmdFlash sess image => Sys2Proof.Machine.execDlCmdFlash sess image s
  | .flashDone readBack => Sys2Proof.Machine.execFlashDone readBack s
  | .initStepComplete step failed hbm => Sys2Proof.Machine.execInitStepComplete step failed hbm s
  | .initStepLimit step failed => Sys2Proof.Machine.execInitStepLimit step failed s
  | .procWatchdog p copyOk => Sys2Proof.Machine.execProcWatchdog p copyOk s
  | .procTrap p copyOk => Sys2Proof.Machine.execProcTrap p copyOk s
  | .procCmdRestart sess p copyOk => Sys2Proof.Machine.execProcCmdRestart sess p copyOk s
  | .featDriver half w => Sys2Proof.Machine.execFeatDriver half w s
  | .secChalReq w => Sys2Proof.Machine.execSecChalReq w s
  | .secResponse w => Sys2Proof.Machine.execSecResponse w s
  | .challengeLockoutExpiry purpose => Sys2Proof.Machine.execChallengeLockoutExpiry purpose s
  | .lcCmdProvision sess chainOk zeroOk => Sys2Proof.Machine.execLcCmdProvision sess chainOk zeroOk s
  | .lcCmdField sess zeroOk => Sys2Proof.Machine.execLcCmdField sess zeroOk s
  | .lcCmdReturn sess zeroOk => Sys2Proof.Machine.execLcCmdReturn sess zeroOk s
  | .authenticate sess => Sys2Proof.Machine.execAuthenticate sess s
  | .dbgOpen sess => Sys2Proof.Machine.execDbgOpen sess s
  | .dbgClose sess => Sys2Proof.Machine.execDbgClose sess s
  | .fuseRevoke sess slot => Sys2Proof.Machine.execFuseRevoke sess slot s
  | .fuseSvn sess kind svn => Sys2Proof.Machine.execFuseSvn sess kind svn s
  | .lkekPeer w => Sys2Proof.Machine.execLkekPeer w s
  | .attNonce w => Sys2Proof.Machine.execAttNonce w s
  | .pwrCmdIdle sess => Sys2Proof.Machine.execPwrCmdIdle sess s
  | .pwrCmdActive sess => Sys2Proof.Machine.execPwrCmdActive sess s
  | .otWarn sensor cc => Sys2Proof.Machine.execOtWarn sensor cc s
  | .otThrottle sensor cc => Sys2Proof.Machine.execOtThrottle sensor cc s
  | .otCrit sensor cc => Sys2Proof.Machine.execOtCrit sensor cc s
  | .powerCap pinDw => Sys2Proof.Machine.execPowerCap pinDw s
  | .vinLow mv => Sys2Proof.Machine.execVinLow mv s
  | .vinHard mv => Sys2Proof.Machine.execVinHard mv s
  | .vinHigh mv => Sys2Proof.Machine.execVinHigh mv s
  | .vinAbove46v mv => Sys2Proof.Machine.execVinAbove46v mv s
  | .oc ma => Sys2Proof.Machine.execOc ma s
  | .coolant inCc outCc => Sys2Proof.Machine.execCoolant inCc outCc s
  | .rail k mv => Sys2Proof.Machine.execRail k mv s
  | .refclk => Sys2Proof.Machine.execRefclk s
  | .refclkHoldExpiry => Sys2Proof.Machine.execRefclkHoldExpiry s
  | .auxLow mv => Sys2Proof.Machine.execAuxLow mv s
  | .emergFlagClear flag => Sys2Proof.Machine.execEmergFlagClear flag s
  | .throttleStep pinDw iinMa => Sys2Proof.Machine.execThrottleStep pinDw iinMa s
  | .thermalTrip sensor cc => Sys2Proof.Machine.execThermalTrip sensor cc s
  | .hotswapAuxEntry zeroOk => Sys2Proof.Machine.execHotswapAuxEntry zeroOk s
  | .bistSliceStart slot island item headroom => Sys2Proof.Machine.execBistSliceStart slot island item headroom s
  | .bistSliceEnd slot pass => Sys2Proof.Machine.execBistSliceEnd slot pass s
  | .bistCycleOverdue suspended => Sys2Proof.Machine.execBistCycleOverdue suspended s
  | .ageSlackSample slacks => Sys2Proof.Machine.execAgeSlackSample slacks s
  | .ageEyeSample eyes => Sys2Proof.Machine.execAgeEyeSample eyes s
  | .ageTempSample cc => Sys2Proof.Machine.execAgeTempSample cc s
  | .replanDue r => Sys2Proof.Machine.execReplanDue r s
  | .replanCmdNow sess r => Sys2Proof.Machine.execReplanCmdNow sess r s
  | .voltageStep k slack => Sys2Proof.Machine.execVoltageStep k slack s
  | .ropOpNotKnown op r => Sys2Proof.Machine.execRopOpNotKnown op r s
  | .doorKindRejected kind d => Sys2Proof.Machine.execDoorKindRejected kind d s
  | .sriovVfEnable count => Sys2Proof.Machine.execSriovVfEnable count s
  | .pcieLinkUp gen width => Sys2Proof.Machine.execPcieLinkUp gen width s
  | .p0Reached rails failed => Sys2Proof.Machine.execP0Reached rails failed s
  | .procRestartComplete p => Sys2Proof.Machine.execProcRestartComplete p s
  | .debuggerHalt p => Sys2Proof.Machine.execDebuggerHalt p s
  | .debuggerResume p => Sys2Proof.Machine.execDebuggerResume p s
  | .rcAcknowledgement qp last => Sys2Proof.Machine.execRcAcknowledgement qp last s
  | .pfcPause port cls on => Sys2Proof.Machine.execPfcPause port cls on s
  | .dhcpv4Message kind addr plen => Sys2Proof.Machine.execDhcpv4Message kind addr plen s
  | .routerAdvertisement prefix6 plen autonomous => Sys2Proof.Machine.execRouterAdvertisement prefix6 plen autonomous s

end Sys2Proof.Machine
end

