-- ==== Sys2Proof/Machine/Tick.lean ====
section
/-! DEFINITION. The island clock (R401): what passes on it without a command. -/

namespace Sys2Proof.Machine

/-- One 1.25 GHz island clock passes; every 50 of them one crate of a class being released is freed (R558), and what ON_CHANGE
subscriptions find changed is queued (R59); a stall whose clearing is over is IDLE (R171); the readers of the island FIFOs take what they may
(R243), waits for credit grow (R290), PTP masters send (R415), and an image being fetched may be read whole (R484). Log entries 1, 85 and 154. -/
def clockTick (s : State) : State :=
  let r := fetchReads (ptpMasters (creditWaits s))
  let t := { r with time := { r.time with clocks := r.time.clocks + 1 } }
  let u := (clearingStalls t).foldl (fun v st => endClearing st v) t
  let v := finishTeardowns ((fifosHolding u).foldl (fun w n => fifoDrain n w) u)
  sampleAllSubs (if v.pools.slowRelease && v.time.clocks % 50 == 0 then slowFree v else v)

end Sys2Proof.Machine
end

