-- ==== Sys2Proof/Safety.lean ====
section
/-! DEFINITION. What counts as a safe step. -/

namespace Sys2Proof.Machine

/-- The memories of a state, device memory and the row exchange space, are in their canonical form: addresses strictly rising, and no
entry equal to what an unlisted byte reads as. -/
def State.memWf (s : State) : Bool := Memory.wf s.mem && Memory.wf s.rowx

end Sys2Proof.Machine
end

