-- ==== Sys2Proof/WellFormed.lean ====
section
/-! DEFINITION. Well-formed commands: every operand has the width the spec gives its field. Operands a type already bounds
(`Fin`, `BitVec`) need no check. `exec` is total: a command that is not well-formed has a meaning too, but no message of the
hardware's spells it. -/

namespace Sys2Proof

/-- A number of `w` bits. -/
def fits (w v : Nat) : Bool := v < 2 ^ w

/-- A two's complement number of `w` bits. -/
def fitsS (w : Nat) (i : Int) : Bool := -(2 ^ (w - 1) : Nat) ≤ i && i < (2 ^ (w - 1) : Nat)

/-- A session of Table 2.5. -/
def wfSess (n : Nat) : Bool := n ≤ 72

/-- Table 2.7: the fields' widths; LENGTH says how many bytes the value has in a WRITE. -/
def wfRopItem (i : RopItem) : Bool :=
  fits 16 i.index && fits 8 i.sub && fits 8 i.type && fits 16 i.length && fits 16 i.value.length

/-- Table 2.6. -/
def wfRopReq (r : RopReq) : Bool :=
  wfSess r.sess && fits 16 r.port && fits 8 r.version && fits 32 r.requestId && fits 16 r.itemCount && fits 16 r.bodyLength && fits 32 r.msgLen
  && r.items.all wfRopItem

/-- A number of at most 80 bits (Table 2.2), from a session. -/
def wfObjWrite (w : ObjWrite) : Bool := wfSess w.sess && fits 80 w.value

/-- At most 1 MiB (Table 2.2), from a session. -/
def wfBlobWrite (w : BlobWrite) : Bool := wfSess w.sess && w.bytes.length ≤ 1048576

/-- An IPv4 or IPv6 address, a TLS code point and one of three anchors. -/
def wfHandshake (h : Handshake) : Bool := fits 128 h.srcAddr && fits 16 h.dstPort && fits 16 h.suite && h.anchor ≤ 2

/-- Table 11.11. -/
def wfSegment (g : Segment) : Bool :=
  fits 8 g.kind && g.sc < 8 && g.job < 64 && fits 8 g.src && fits 8 g.dst && fits 16 g.group && fits 16 g.epoch && fits 32 g.seq
  && fits 8 g.op && fits 8 g.dir && fits 8 g.hop && fits 32 g.chunk && fits 64 g.offset && fits 32 g.chunkLen && fits 64 g.sealV
  && g.data.length ≤ 8048

/-- Table 3.7. -/
def wfCtlHdr (h : CtlHdr) : Bool := fits 16 h.group && fits 16 h.epoch && fits 8 h.src && fits 8 h.dst && fits 32 h.seq

/-- Table 3.8. -/
def wfHelloBody (b : HelloBody) : Bool := fits 64 b.descDigest && fits 64 b.rangeDigest

/-- Table 3.8. -/
def wfConfirmBody (b : ConfirmBody) : Bool := fits 8 b.op && fits 32 b.k && fits 64 b.sealDigest && fits 64 b.paramDigest

/-- Table 3.8. -/
def wfEpochChange (c : EpochChange) : Bool := fits 16 c.newEpoch && fits 8 c.kind && fits 8 c.site && fits 32 c.ports

/-- A PCIe function, a ring of it and an entry. -/
def wfJobSrc (j : JobSrc) : Bool := fits 8 j.fn && j.ring < 32 && fits 32 j.entry

/-- Table 3.2. -/
def wfPosting (p : Posting) : Bool :=
  fits 16 p.group && fits 8 p.pflags && fits 32 p.seq && fits 64 p.length && fits 64 p.inList && fits 64 p.outList
  && fits 32 p.program && fits 8 p.redop && fits 8 p.elem && fits 8 p.coding && fits 32 p.tallyBase

/-- A queue pair number of 24 bits. -/
def wfDoor (d : Door) : Bool := fits 24 d.qp

/-- The words of a committed record. -/
def wfSourceAnswer (a : SourceAnswer) : Bool :=
  fits 64 a.committed && fits 64 a.anchorFp && fits 64 a.momFp && a.hp.length ≤ 5 && a.hp.all (fits 32)

/-- A page of the shard region, at most 1 MiB of it. -/
def wfRefillPage (p : RefillPage) : Bool := fits 32 p.page && fits 20 p.anchor.length && fits 20 p.mom.length

/-- The errors of a stall store lie in its 262,144 words. -/
def wfStoreErrs (e : StoreErrs) : Bool :=
  e.single.length ≤ 262144 && e.double.length ≤ 262144 && e.single.all (fits 18) && e.double.all (fits 18)

/-- Addresses of 64 bits. -/
def wfHbmHit : HbmHit → Bool
  | .word a => fits 64 a
  | .ring _ a => fits 64 a
  | .page n => fits 32 n
  | .record n => fits 32 n
  | .residual _ n => fits 32 n

/-- Table 9.2: MOVE. -/
def wfMoveOp (o : MoveOp) : Bool := fits 32 o.length && fits 64 o.src && fits 64 o.dst && o.blockElems64 < 64 && fits 64 o.reserved

/-- Table 9.2: LOOP. -/
def wfLoopOp (o : LoopOp) : Bool :=
  fits 16 o.count && fits 16 o.body && fitsS 64 o.sstride && fitsS 64 o.dstride && fitsS 32 o.vstride && fits 64 o.reserved

/-- Table 9.2: WAIT and SIGNAL. -/
def wfTallyOp (o : TallyOp) : Bool := fits 32 o.tally && fits 32 o.value && fits 192 o.reserved

/-- R227: a size and an owner code of Table 8.8. -/
def wfCrateReq (q : CrateReq) : Bool := fits 32 q.size && fits 16 q.owner

/-- A handle of 32 bits and an owner code of Table 8.8. -/
def wfCrateOp (o : CrateOp) : Bool := fits 32 o.handle && fits 16 o.source

/-- Table 14.7. -/
def wfMarginMsg (m : MarginMsg) : Bool :=
  fits 8 m.mgType && fits 8 m.round && fits 8 m.mode && fits 8 m.modes && fitsS 16 m.snr && fitsS 16 m.qmargin && fits 16 m.target

/-- Table 11.9. -/
def wfIdentInfo (i : IdentInfo) : Bool := fits 8 i.site && fits 16 i.group && fits 8 i.place && fits 8 i.port && fits 8 i.carriers

/-- Table 12.3. -/
def wfLossReport (r : LossReport) : Bool := r.carrier < 8 && fits 48 r.base && fits 64 r.map

/-- Table 13.6. -/
def wfKeyMsg (m : KeyMsg) : Bool := fits 8 m.kcType && m.slot < 2 && fits 32 m.keyId && fits 48 m.t && fits 8 m.status

/-- Table 16.5. -/
def wfCrierMsg (m : CrierMsg) : Bool := fits 8 m.clType && fits 8 m.site && fits 16 m.group && fits 8 m.place && fits 16 m.gen

/-- Table 14.3: one laser. -/
def wfLaserRead (l : LaserRead) : Bool :=
  l.pos < 10 && fits 8 l.stat && fitsS 16 l.power && fits 16 l.bias && fits 16 l.biasEol && fitsS 16 l.fmon

/-- Table 14.3: the module. -/
def wfModuleRead (m : ModuleRead) : Bool :=
  fits 16 m.id && fits 8 m.ver && fits 8 m.count && fits 16 m.int && fits 8 m.status && m.lasers.length ≤ 10 && m.lasers.all wfLaserRead

/-- What a cipher job may read: an AES-256 key, and a payload and associated data of at most 2³² − 1 bytes. -/
def wfCipherData (d : CipherData) : Bool :=
  d.key.length ≤ 32 && fits 32 d.aad.length && fits 32 d.text.length && d.tag.length ≤ 16

/-- Times below 2⁹⁶ units of 2⁻¹⁶ ns. -/
def wfPtpBody : PtpBody → Bool
  | .announce _ c => fits 8 c
  | .sync o _ => fits 96 o
  | .followUp o => fits 96 o
  | .delayReq r => fits 80 r
  | .delayResp r t => fits 80 r && fits 96 t

/-- Virtual addresses of 64 bits and rkeys of 32. -/
def wfDoorBufs (b : DoorBufs) : Bool := fits 64 b.retVa && fits 32 b.retRkey && fits 64 b.outVa && fits 32 b.outRkey

/-- Table 17.8: XFER. -/
def wfXferEntry (e : XferEntry) : Bool :=
  fits 8 e.fmt && fits 8 e.table && fits 32 e.number && fits 64 e.length && fits 64 e.addr && fits 8 e.site && fits 8 e.block64
  && fits 16 e.group

/-- At most the LENGTH of an entry. -/
def wfHostRead (d : HostRead) : Bool := d.bytes.length ≤ 2 ^ 40

/-- A site and a transfer number. -/
def wfXferEnd (e : XferEnd) : Bool := fits 8 e.site && fits 32 e.number && e.again.all fun r => fits 41 r.1 && fits 41 r.2

/-- Table 17.8: PLACE. -/
def wfPlaceEntry (e : PlaceEntry) : Bool := fits 32 e.prog && fits 32 e.tallyBase && fits 64 e.user && fits 64 e.list

/-- Table 19.2: the fused widths. -/
def wfFactoryData (f : FactoryData) : Bool :=
  f.serial.length ≤ 32 && fits 48 f.mgmtMac && fits 48 f.portMacs && f.slackT0.length ≤ 112 && f.slackT0.all (fitsS 32)
  && f.dirSlot ≤ 1

/-- An island of Table 20.1's numbering. -/
def wfBistFail (b : BistFail) : Bool := b.island < 112 && b.item.all (· < 256)

/-- One of the 29 rails, in mV. -/
def wfRailFault : RailFault → Bool
  | .inrush mv => fits 32 mv
  | .rail r mv => r < 29 && fits 32 mv

/-- A rail sequence that failed or did not. -/
def wfRails (r : Option RailFault) : Bool := r.all wfRailFault

/-- Table 21.1. -/
def wfBistItem : BistItem → Bool
  | .stall k => k < 40
  | .part k => k < 40
  | .core k => k < 256

/-- A measured number, if there is one. -/
def wfReading (r : Option Nat) : Bool := r.all (fits 32)

/-- An image of at most 1 GiB, if there is one. -/
def wfImage (i : Option (List Byte)) : Bool := i.all fun b => b.length ≤ 2 ^ 30

/-- A crier message fits one board-link message. -/
def wfBoardMsg (m : List Byte) : Bool := m.length ≤ 4096

/-- A word of at most 512 bits (R240). -/
def wfFifoEvent : FifoEvent → Bool
  | .write data _ validBytes _ => fits 512 data && fits 6 validBytes
  | .upset k data parity _ => k < 64 && fits 512 data && fits 16 parity
  | .cross | .read => true

/-- Rails, losses in 0.01 dB by carrier, corrections by carrier. -/
def wfReplanData (r : ReplanData) : Bool :=
  r.short.all (· < 29) && (r.losses.all fun p => p.1 < 8 && fitsS 32 p.2) && r.pd.length ≤ 8 && r.pd.all (fitsS 32)

/-- A command whose operands have the widths the spec gives them. -/
def Instr.wf : Instr → Bool
  | .dtlsHandshake h => wfHandshake h
  | .dtlsClose _ => true
  | .ropIdleExpiry _ => true
  | .read r => wfRopReq r
  | .write r => wfRopReq r
  | .commit r => wfRopReq r
  | .abort r => wfRopReq r
  | .subscribe r => wfRopReq r
  | .ropResponseIn r => wfRopReq r
  | .notify _ => true
  | .subscriptionTimer _ k => k < 64
  | .cgLeaseExpiry _ => true
  | .cgApply _ _ => true
  | .unlockExpiry _ => true
  | .cfgSave _ => true
  | .cfgErase _ => true
  | .cfgWriteDone => true
  | .ropOpNotKnown op r => op < 128 && (op == 0 || 4 < op) && wfRopReq r
  | .groupOpen => true
  | .groupModify => true
  | .groupClose => true
  | .hello h b => wfCtlHdr h && wfHelloBody b
  | .helloRetry _ => true
  | .postReduceScatter p src => wfPosting p && wfJobSrc src
  | .postAllGather p src => wfPosting p && wfJobSrc src
  | .postAllReduce p src => wfPosting p && wfJobSrc src
  | .postCancel p src => wfPosting p && wfJobSrc src
  | .collActivate _ seq => fits 32 seq
  | .chunkReq h chunk attempt => wfCtlHdr h && fits 32 chunk && fits 8 attempt
  | .chunkWaitExpiry _ seq chunk => fits 32 seq && fits 32 chunk
  | .collTimeout _ seq => fits 32 seq
  | .confirm h b => wfCtlHdr h && wfConfirmBody b
  | .confirmResend _ seq => fits 32 seq
  | .cancel h => wfCtlHdr h
  | .endStatus h status cause => wfCtlHdr h && fits 8 status && fits 8 cause
  | .epochAdv h c => wfCtlHdr h && wfEpochChange c
  | .epochAck h newEpoch entries => wfCtlHdr h && fits 16 newEpoch && entries.length ≤ 16 && entries.all fun e => fits 32 e.1 && fits 8 e.2
  | .epochResolveTimeout _ => true
  | .unexpWaitExpiry _ seq => fits 32 seq
  | .weightsDone d => wfDoor d
  | .loadAnchor d => wfDoor d
  | .loadMomentum d => wfDoor d
  | .outcomeQuery d => wfDoor d
  | .anchorRead d => wfDoor d
  | .momentumRead d => wfDoor d
  | .abandon _ => true
  | .loadCommit _ => true
  | .sweepPage => true
  | .nextAnchorReturn _ => true
  | .outcomeRecord => true
  | .refillServe _ k i => 0 < k && k ≤ 32 && i < k
  | .refillRetry answers _ => answers.length ≤ 32 && answers.all wfSourceAnswer
  | .refillComplete pages record src0 => pages.all wfRefillPage && fits 32 record.length && wfSourceAnswer src0
  | .hbmUncorrectable h => wfHbmHit h
  | .doorKindRejected _ d => wfDoor d
  | .nop _ _ => true
  | .add _ _ => true
  | .sub _ _ => true
  | .and _ _ => true
  | .or _ _ => true
  | .xor _ _ => true
  | .shl _ _ => true
  | .shr _ _ => true
  | .sra _ _ => true
  | .mul _ _ => true
  | .slt _ _ => true
  | .sltu _ _ => true
  | .ldi _ _ => true
  | .ld _ o => wfStoreErrs o.errs
  | .st _ _ => true
  | .br _ _ => true
  | .jal _ _ => true
  | .jr _ _ => true
  | .csrr _ _ => true
  | .csrw _ _ => true
  | .vadd _ _ => true
  | .vsub _ _ => true
  | .vmul _ _ => true
  | .vfma _ _ => true
  | .vmax _ _ => true
  | .vmin _ _ => true
  | .vdiv _ _ => true
  | .vsqrt _ _ => true
  | .vcvt _ _ => true
  | .vsplat _ _ => true
  | .vredsum _ _ => true
  | .vld _ o => wfStoreErrs o.errs
  | .vst _ _ => true
  | .vcmp _ _ => true
  | .vsel _ _ => true
  | .mopa _ o => wfStoreErrs o.errs
  | .mst _ _ => true
  | .mld _ o => wfStoreErrs o.errs
  | .mzero _ _ => true
  | .xcfg _ o => wfStoreErrs o.errs
  | .tallyAdd _ _ => true
  | .tallyWaitGe _ _ => true
  | .tallyWaitSatisfied _ => true
  | .tallyReset _ _ => true
  | .xld _ _ => true
  | .xst _ o => wfStoreErrs o.errs
  | .rtree _ o => wfStoreErrs o.errs
  | .rtreeComplete placement _ _ => fits 32 placement
  | .pkick _ _ => true
  | .sync _ _ => true
  | .stallStop _ _ => true
  | .trap _ _ => true
  | .stallWatchdog _ => true
  | .placementStart => true
  | .migrationDrained _ => true
  | .migDrainExpiry _ => true
  | .rowFreqMhz _ w => wfObjWrite w
  | .progImage w => wfBlobWrite w
  | .progUnload w => wfObjWrite w
  | .xcTable _ w => wfBlobWrite w
  | .rcAcknowledgement qp _ => fits 24 qp
  | .statusWord => true
  | .readVin mv => wfReading mv
  | .readIin ma => wfReading ma
  | .readTemperature1 cc => cc.length ≤ 4 && cc.all (fitsS 32)
  | .readTemperature2 cc => cc.length ≤ 6 && cc.all (fitsS 32)
  | .readTemperature3 cc => cc.length ≤ 8 && cc.all (fitsS 32)
  | .readPin dw => wfReading dw
  | .pmbusRevision => true
  | .mfrId => true
  | .mfrModel => true
  | .mfrDevState => true
  | .pmbusWrite _ => true
  | .mgmtArp target => fits 32 target
  | .mgmtNeighbourDiscovery target => fits 128 target
  | .mgmtIcmpEcho v6 dst data => fits (if v6 then 128 else 32) dst && fits 16 data.length
  | .dhcpv4Message kind addr plen => fits 8 kind && fits 32 addr && plen ≤ 32
  | .routerAdvertisement prefix6 plen _ => fits 128 prefix6 && plen ≤ 128
  | .crateAlloc q => wfCrateReq q
  | .crateWaitServed k => fits 32 k
  | .allocWaitExpiry k => fits 32 k
  | .handleCacheRefill _ => true
  | .handleCacheSpill _ => true
  | .ref o n => wfCrateOp o && fits 16 n
  | .deref o => wfCrateOp o
  | .give o newOwner => wfCrateOp o && fits 16 newOwner
  | .free o => wfCrateOp o
  | .crateStrict w => wfObjWrite w
  | .tenantTeardown _ => true
  | .blFcIn _ _ => true
  | .dropRest d => fits 16 d.fifo && d.traffic.length ≤ 65536 && d.traffic.all wfFifoEvent
  | .blRxWm _ w => wfObjWrite w
  | .copy _ o => wfMoveOp o.op
  | .xcEncode _ o => wfMoveOp o.op
  | .xcCheck _ o => wfMoveOp o.op
  | .xcDecode _ o => wfMoveOp o.op
  | .zero _ o => wfMoveOp o.op
  | .loop _ o => wfLoopOp o.op
  | .wait _ o => wfTallyOp o.op
  | .porterWaitSatisfied _ => true
  | .porterWaitWatchdog _ => true
  | .signal _ o => wfTallyOp o.op
  | .porterStop _ _ reserved => fits 128 reserved
  | .porterBurst _ hostData _ => hostData.length ≤ 4096
  | .burstDone _ _ => true
  | .channelFault _ => true
  | .channelStop _ => true
  | .porterChCfg _ w => wfObjWrite w
  | .schedSelect _ => true
  | .enqueueRoom k => fits 32 k
  | .schedSample => true
  | .creditSend _ _ => true
  | .credit h postedSeq postedLimit blindLimit => wfCtlHdr h && fits 32 postedSeq && fits 48 postedLimit && fits 48 blindLimit
  | .tenantEthRx frame => frame.length ≤ 9216
  | .frameStart _ => true
  | .alignerWindow _ offset window => offset < 65536 && window.length ≤ 8192
  | .frameReceived _ body _ => body.bytes.length ≤ 8192 && body.poisoned.length ≤ 128
  | .ident _ i => wfIdentInfo i
  | .identSend _ => true
  | .losDeclare _ => true
  | .losClear _ => true
  | .lockLost _ => true
  | .lockClear _ => true
  | .degInterval _ => true
  | .fecBlock _ b corr bits => b.inner.length ≤ 8 && b.uncorr.length ≤ 65536 && fits 32 corr && fits 32 bits
  | .lossReportRepeat _ => true
  | .openRangeRepeat _ => true
  | .lossReport _ r => wfLossReport r
  | .resendHoldExpiry _ => true
  | .keyLoad w => wfBlobWrite w
  | .changeNow _ _ => true
  | .eraseNext _ _ => true
  | .keyChangeDue _ => true
  | .announceRetry _ => true
  | .announceTimeout _ => true
  | .keyChangeRetry _ => true
  | .announce _ m => wfKeyMsg m
  | .ack _ m => wfKeyMsg m
  | .nack _ m => wfKeyMsg m
  | .boundary _ m => wfKeyMsg m
  | .keySwitchT _ => true
  | .keyOverlapExpiry _ => true
  | .encrypt src rec d => wfJobSrc src && rec.length == 64 && wfCipherData d
  | .decrypt src rec d => wfJobSrc src && rec.length == 64 && wfCipherData d
  | .tagCheck src rec d => wfJobSrc src && rec.length == 64 && wfCipherData d
  | .laserInt m => wfModuleRead m
  | .laserModuleSilent => true
  | .i2cRetry m => m.all wfModuleRead
  | .lmTuneExpiry _ => true
  | .lockerSample _ err _ fmonDiff => fitsS 16 err && fitsS 17 fmonDiff
  | .lfFineSteer _ => true
  | .lockTimeout _ => true
  | .acquireTimeout _ => true
  | .downRetry _ => true
  | .marginSend _ => true
  | .offer _ m => wfMarginMsg m
  | .marginReport _ m => wfMarginMsg m
  | .set _ m => wfMarginMsg m
  | .setAck _ m => wfMarginMsg m
  | .join _ m => wfMarginMsg m
  | .mgMeasEnd _ snr farOffset _ => fitsS 16 snr && fitsS 16 farOffset
  | .mgAcqTimeout _ => true
  | .mgVerifyEnd _ snr => fitsS 16 snr
  | .qmarginUpdate _ snr => fitsS 16 snr
  | .drainWaitExpiry _ => true
  | .laserTrendSample samples => samples.length ≤ 10 && samples.all wfLaserRead
  | .spareSettle _ => true
  | .laserFail _ power => fitsS 16 power
  | .retest _ _ => true
  | .laserSpare _ _ => true
  | .laserReturn _ _ => true
  | .biasDither _ err => fitsS 16 err
  | .launchPowerLoop _ power => fitsS 16 power
  | .lockerCalCheck _ diff => fitsS 16 diff
  | .servoUpdate => true
  | .secondTick => true
  | .tsSet w => wfObjWrite w
  | .ref10mPresent => true
  | .ref10mLost => true
  | .ppsPulse => true
  | .ttWindow => true
  | .delaySettleExpiry _ => true
  | .calibrate _ _ _ => true
  | .calibrationEnd _ => true
  | .asymClear _ _ _ => true
  | .accept _ _ _ => true
  | .ttAsymPs _ w => wfObjWrite w
  | .ptpMessage _ domain m => fits 8 domain && wfPtpBody m
  | .heartbeatSend => true
  | .heartbeat _ _ => true
  | .heartbeatMissExpiry _ => true
  | .suspect _ msg => wfBoardMsg msg
  | .clear _ msg => wfBoardMsg msg
  | .promote _ msg => wfBoardMsg msg
  | .fenced _ msg => wfBoardMsg msg
  | .withdraw _ msg => wfBoardMsg msg
  | .crierReport _ msg => wfBoardMsg msg
  | .reportSend => true
  | .voteConfirmExpiry _ => true
  | .shufAck => true
  | .shufAckTimeout => true
  | .promotedSend _ => true
  | .promoted _ m => wfCrierMsg m
  | .promotedAck _ m => wfCrierMsg m
  | .isolationFence heard => fits 9 heard
  | .promotionRelease => true
  | .placeProfile _ w => wfBlobWrite w
  | .wtrExpiry _ => true
  | .portWithdrawExpiry _ => true
  | .forceOut _ _ => true
  | .clearForce _ _ => true
  | .lockout _ _ => true
  | .clearLockout _ _ => true
  | .portUp _ => true
  | .portBringupTimeout _ _ => true
  | .portDown _ lost => fits 32 lost.uncorr
  | .failback _ => true
  | .cmReq _ service remote bufs => fits 64 service && fits 24 remote && wfDoorBufs bufs
  | .rdmaWrite q va bytes => fits 24 q.qp && fits 64 va && fits 31 bytes.length
  | .rdmaRead q va len => fits 24 q.qp && fits 64 va && fits 31 len
  | .rdmaSend q bytes => fits 24 q.qp && fits 31 bytes.length
  | .cnp qp => fits 24 qp
  | .pfcPause _ _ _ => true
  | .blMsgTx w => wfBlobWrite w
  | .blMsg _ body flow => 1 ≤ body.bytes.length && body.bytes.length ≤ 1024 && body.poisoned.length ≤ 16 && flow.length ≤ 16 && flow.all fun es => es.length ≤ 256 && es.all wfFifoEvent
  | .boardLinkUp _ group place => fits 16 group && fits 8 place
  | .boardLinkDown _ => true
  | .blLaneFail _ => true
  | .mbDoorbell _ length => fits 32 length
  | .respAck _ value => fits 32 value
  | .noteAck _ value => fits 32 value
  | .subTail _ _ value => fits 32 value
  | .compHead _ _ value => fits 32 value
  | .ringCtrl _ _ value => fits 32 value
  | .registerWrite _ offset value => fits 26 offset && fits 64 value
  | .jobCompletion _ _ xend => xend.all wfXferEnd
  | .porterJobStart src _ addr _ => wfJobSrc src && fits 64 addr
  | .tallyJobAlloc src j _ => wfJobSrc src && fits 8 j
  | .tallyJobFree src base _ => wfJobSrc src && fits 32 base
  | .tallyJobAdd src tally value _ => wfJobSrc src && fits 32 tally && fits 32 value
  | .tallyJobReset src tally _ => wfJobSrc src && fits 32 tally
  | .placeJobStart src e d => wfJobSrc src && wfPlaceEntry e && wfHostRead d
  | .xferSend src e d => wfJobSrc src && wfXferEntry e && wfHostRead d
  | .xferReceive src e d => wfJobSrc src && wfXferEntry e && wfHostRead d
  | .functionLevelReset _ => true
  | .pcieLinkLoss => true
  | .sriovVfEnable _ => true
  | .pcieLinkUp _ _ => true
  | .auxApplied _ factory => wfFactoryData factory
  | .auxLost => true
  | .bootStart _ rails => wfRails rails
  | .stage1Start _ => true
  | .pcieFundamentalReset => true
  | .devCmdService _ => true
  | .devCmdLineHold _ => true
  | .devCmdReady _ => true
  | .devCmdRestart _ _ => true
  | .devCmdSafe _ => true
  | .computeDiesReady rails failed => wfRails rails && failed.all wfBistFail
  | .dlCmdFetch _ => true
  | .fetchComplete image => wfImage image
  | .dlCmdDone _ => true
  | .dlCmdAbort _ => true
  | .dlCmdActivate _ => true
  | .activationStart => true
  | .activationWaitExpiry => true
  | .activationSoakExpiry => true
  | .dlCmdFlash _ image => wfImage image
  | .flashDone readBack => fits 32 readBack.length
  | .initStepComplete _ failed hbm => failed.all wfBistFail && hbm.length ≤ 6
  | .initStepLimit _ failed => failed.all wfBistFail
  | .procWatchdog _ _ => true
  | .procTrap _ _ => true
  | .procCmdRestart _ _ _ => true
  | .featDriver _ w => wfObjWrite w
  | .procRestartComplete _ => true
  | .debuggerHalt _ => true
  | .debuggerResume _ => true
  | .secChalReq w => wfObjWrite w
  | .secResponse w => wfBlobWrite w
  | .challengeLockoutExpiry _ => true
  | .lcCmdProvision _ _ _ => true
  | .lcCmdField _ _ => true
  | .lcCmdReturn _ _ => true
  | .authenticate _ => true
  | .dbgOpen _ => true
  | .dbgClose _ => true
  | .fuseRevoke _ _ => true
  | .fuseSvn _ _ _ => true
  | .lkekPeer w => wfBlobWrite w
  | .attNonce w => wfBlobWrite w
  | .pwrCmdIdle _ => true
  | .pwrCmdActive _ => true
  | .otWarn _ cc => fitsS 32 cc
  | .otThrottle _ cc => fitsS 32 cc
  | .otCrit _ cc => fitsS 32 cc
  | .powerCap pinDw => fits 32 pinDw
  | .vinLow mv => fits 32 mv
  | .vinHard mv => fits 32 mv
  | .vinHigh mv => fits 32 mv
  | .vinAbove46v mv => fits 32 mv
  | .oc ma => fits 32 ma
  | .coolant inCc outCc => fitsS 32 inCc && fitsS 32 outCc
  | .rail _ mv => fits 32 mv
  | .refclk => true
  | .refclkHoldExpiry => true
  | .auxLow mv => fits 32 mv
  | .emergFlagClear _ => true
  | .throttleStep pinDw iinMa => fits 32 pinDw && fits 32 iinMa
  | .thermalTrip _ cc => fitsS 32 cc
  | .hotswapAuxEntry _ => true
  | .p0Reached rails failed => wfRails rails && failed.all wfBistFail
  | .bistSliceStart _ _ item headroom => wfBistItem item && fitsS 32 headroom
  | .bistSliceEnd _ _ => true
  | .bistCycleOverdue suspended => fits 32 suspended
  | .ageSlackSample slacks => slacks.length ≤ 112 && slacks.all (fitsS 32)
  | .ageEyeSample eyes => eyes.length ≤ 80 && eyes.all (fits 32)
  | .ageTempSample cc => fitsS 32 cc
  | .replanDue r => wfReplanData r
  | .replanCmdNow _ r => wfReplanData r
  | .voltageStep _ slack => fitsS 32 slack

end Sys2Proof
end

