-- ==== Sys2Proof/Certificates/Slice0/Obligations.lean ====
section
/-! DEFINITION. The statements for the provers. Each says where commands complete and with what effect, what they leave
unchanged, or what holds of every step. -/

namespace Sys2Proof.Machine

/-- No collective is open, none has just ended, and no outer step runs: a command sets nothing of them in motion. -/
def State.quiet (s : State) : Prop := s.coll.colls = [] ∧ s.coll.ended = [] ∧ getN O.OS_STEP_STATE s ≠ 1

/-- An event of a code and argument has been logged between two states: a record behind every record of the first (R71). -/
def State.logged (s t : State) (code arg : Nat) : Prop :=
  ∃ r ∈ t.dict.log.drop s.dict.log.length, r.code = code ∧ r.arg = arg

/-- Nothing but the dictionary and the outputs changed. -/
def State.sameBeyondDict (s t : State) : Prop := { t with dict := s.dict, sent := s.sent } = s

/-- No error of the stall store falls on the bytes an instruction reads (R145). -/
def cleanErrs (e : StoreErrs) (span : List (Nat × Nat)) : Prop := ∀ w ∈ e.single ++ e.double, wordRead span w = false

end Sys2Proof.Machine

open Sys2Proof Sys2Proof.Machine

/-! ### The block -/

/-- One step is the front command's meaning on the state with the queue's rest; on an empty queue one island clock passes (the model's
choice, log entry 1), which only clocks, queues drained and waits counted by it can show: the device state, the engines of collectives,
outer step and porters, the line, the crier and every byte stay. -/
def Obligations.StepRunsFrontCommand : Prop :=
  (∀ (c : Instr) (rest : List Instr) (s : State), s.pending = c :: rest → step s = exec c { s with pending := rest }) ∧
  ∀ s : State, s.pending = [] →
    ∃ t, step s = .next t ∧ t.time = { s.time with clocks := s.time.clocks + 1, ptp := t.time.ptp } ∧ t.pending = [] ∧
      { t with time := s.time, dict := s.dict, pools := s.pools, comp := s.comp, sched := s.sched, host := s.host, sent := s.sent,
               fabWait := s.fabWait, freeCtr := s.freeCtr } = s ∧
      t.host = { s.host with blMsgs := t.host.blMsgs } ∧
      (∀ k, (getStall k s).sstate ≠ .clearing → getStall k t = getStall k s) ∧
      (s.pools.slowRelease = false → s.pools.tearing = 0 → fifosHolding s = [] → t.pools = s.pools ∧ t.host = s.host)

/-! ### Scalar instructions of a stall -/

/-- R155, R145: on a stall that runs, each arithmetic instruction writes its result to SD, marked poisoned when an operand is,
advances the PC by one instruction, and changes nothing else. -/
def Obligations.ScalarArithmetic : Prop :=
  ∀ (st : Fin 128) (o : ScalarOp) (s : State), stallRuns st.val s = true →
    let x := getStall st.val s
    let a := x.rdS o.sa.val
    let b : SReg := if o.i then ⟨o.imm.signExtend 64, false⟩ else x.rdS o.sb.val
    let t (v : Word64) : State := setStall st.val { x.wrS o.sd.val ⟨v, a.p || b.p⟩ with pc := x.pc + 1 } s
    exec (.add st o) s = .next (t (a.v + b.v)) ∧
    exec (.sub st o) s = .next (t (a.v - b.v)) ∧
    exec (.and st o) s = .next (t (a.v &&& b.v)) ∧
    exec (.or st o) s = .next (t (a.v ||| b.v)) ∧
    exec (.xor st o) s = .next (t (a.v ^^^ b.v)) ∧
    exec (.shl st o) s = .next (t (a.v <<< (b.v.toNat % 64))) ∧
    exec (.shr st o) s = .next (t (a.v >>> (b.v.toNat % 64))) ∧
    exec (.sra st o) s = .next (t (a.v.sshiftRight (b.v.toNat % 64))) ∧
    exec (.mul st o) s = .next (t (a.v * b.v)) ∧
    exec (.slt st o) s = .next (t (if a.v.toInt < b.v.toInt then 1 else 0)) ∧
    exec (.sltu st o) s = .next (t (if a.v.toNat < b.v.toNat then 1 else 0))

/-- R155: what the control, immediate and CSR instructions do on a stall that runs. COND 0 is always, 1 equal, 2 not equal,
3 signed less, 4 signed not less, 5 unsigned less, 6 unsigned not less; offsets count instructions; LDI with COND bit 0 loads the
upper half. CSRW takes an RMODE of 0 to 4 and the six flag bits of FFLAGS (R182). -/
def Obligations.ScalarControlAndCsrs : Prop :=
  ∀ (st : Fin 128) (o : ScalarOp) (s : State), stallRuns st.val s = true →
    let x := getStall st.val s
    let a := (x.rdS o.sa.val).v
    let b := (x.rdS o.sb.val).v
    let goto (pc : Nat) (y : Stall) : State := setStall st.val { y with pc := pc } s
    let there := ofSigned 64 ((x.pc : Int) + o.imm.toInt)
    exec (.nop st o) s = .next (goto (x.pc + 1) x) ∧
    (o.cond.getLsbD 0 = false → exec (.ldi st o) s = .next (goto (x.pc + 1) (x.wrS o.sd.val ⟨o.imm.signExtend 64, false⟩))) ∧
    (o.cond.getLsbD 0 = true → ∃ r : SReg, r.v.toNat = o.imm.toNat * 2 ^ 32 + (x.rdS o.sd.val).v.toNat % 2 ^ 32 ∧
      r.p = (x.rdS o.sd.val).p ∧ exec (.ldi st o) s = .next (goto (x.pc + 1) (x.wrS o.sd.val r))) ∧
    (∀ taken : Bool, (o.cond = 0 → taken = true) → (o.cond = 1 → taken = decide (a = b)) → (o.cond = 2 → taken = decide (a ≠ b)) →
      (o.cond = 3 → taken = decide (a.toInt < b.toInt)) → (o.cond = 4 → taken = decide (b.toInt ≤ a.toInt)) →
      (o.cond = 5 → taken = decide (a.toNat < b.toNat)) → (o.cond = 6 → taken = decide (b.toNat ≤ a.toNat)) → o.cond.toNat ≤ 6 →
      exec (.br st o) s = .next (goto (if taken then there else x.pc + 1) x)) ∧
    exec (.jal st o) s = .next (goto there (x.wrS o.sd.val ⟨BitVec.ofNat 64 (x.pc + 1), false⟩)) ∧
    exec (.jr st o) s = .next (goto a.toNat x) ∧
    (o.imm = 0 → exec (.csrr st o) s = .next (freeNext (goto (x.pc + 1) (x.wrS o.sd.val ⟨BitVec.ofNat 64 st.val, false⟩)))) ∧
    (o.imm = 0x0D → exec (.csrr st o) s = .next (freeNext (goto (x.pc + 1) (x.wrS o.sd.val ⟨BitVec.ofNat 64 x.rmode, false⟩)))) ∧
    (o.imm = 0x0E → exec (.csrr st o) s = .next (freeNext (goto (x.pc + 1) (x.wrS o.sd.val ⟨BitVec.ofNat 64 x.fflags, false⟩)))) ∧
    (o.imm = 0x0D → exec (.csrw st o) s = .next (goto (x.pc + 1) (if a.toNat ≤ 4 then { x with rmode := a.toNat } else x))) ∧
    (o.imm = 0x0E → exec (.csrw st o) s = .next (goto (x.pc + 1) { x with fflags := a.toNat % 64 }))

/-- R145, R146, R155: LD reads and ST writes eight bytes of the unit's own stall store at an aligned address inside it; a load carries
the poison of what it reads, and every byte outside the eight stored reads as before. A single-bit error of the word read is corrected
and counted in STALL_ECC_CE; an uncorrectable one, the first at its address, is delivered poisoned. -/
def Obligations.ScalarLoadAndStore : Prop :=
  ∀ (st : Fin 128) (o : ScalarOp) (s : State), stallRuns st.val s = true →
    let x := getStall st.val s
    let a := ((x.rdS o.sa.val).v + o.imm.signExtend 64).toNat
    let v := x.rdS o.sb.val
    let w := BitVec.ofNat 64 (natOfLE ((readStore st.val a 8 s).map (·.1)))
    a % 8 = 0 → inStore st.val a 8 s = true →
    (∀ e, cleanErrs e [(a, 8)] → exec (.ld st ⟨o, e⟩) s = .next (setStall st.val
      { x.wrS o.sd.val ⟨w, anyPoison (readStore st.val a 8 s)⟩ with pc := x.pc + 1 } s)) ∧
    (∀ e, a / 8 ∈ e.single → a / 8 ∉ e.double → ∃ t, exec (.ld st ⟨o, e⟩) s = .next t ∧
      getStall st.val t = { x.wrS o.sd.val ⟨w, anyPoison (readStore st.val a 8 s)⟩ with pc := x.pc + 1 } ∧
      getN (O.STALL_ECC_CE + st.val) t = (getN (O.STALL_ECC_CE + st.val) s + 1) % 2 ^ objBits (O.STALL_ECC_CE + st.val) ∧
      { t with comp := s.comp, dict := s.dict } = s) ∧
    (∀ e, a / 8 ∈ e.double → a / 8 ∉ x.eccSeen → ∃ t, exec (.ld st ⟨o, e⟩) s = .next t ∧
      getStall st.val t = { x.wrS o.sd.val ⟨w, true⟩ with pc := x.pc + 1, eccSeen := x.eccSeen ++ [a / 8] } ∧
      (∀ b, readDevP b 1 t = readDevP b 1 s) ∧ { t with comp := s.comp, dict := s.dict, poison := s.poison } = s) ∧
    (∃ t, exec (.st st o) s = .next t ∧ readStore st.val a 8 t = bytesP 8 v.v.toNat v.p ∧
      getStall st.val t = { x with pc := x.pc + 1 } ∧ (∀ k, k ≠ st.val → getStall k t = getStall k s) ∧
      (∀ b, b < stallBase st.val + a ∨ stallBase st.val + a + 8 ≤ b → readDev b 1 t = readDev b 1 s) ∧
      { t with mem := s.mem, poison := s.poison, comp := s.comp } = s)

/-! ### Vector and matrix instructions -/

/-- R155, R145, R180: the vector arithmetic instructions, for FP32, FP16 and FP64 and every rounding attribute Table 6.2 names, write
each element that the mask leaves on with the operation's result in the format, poisoned when an operand it reads or its mask bit is,
keep every element that is off, OR the flags of the elements that are on into FFLAGS, and change nothing beyond the stall but the count
of free values (log entry 21). -/
def Obligations.VectorArithmetic : Prop :=
  ∀ (st : Fin 128) (o : VectorOp) (s : State) (r : Rounding), stallRuns st.val s = true →
    (o.fmt.val = 0 ∨ o.fmt.val = 1 ∨ o.fmt.val = 9) → Rounding.select o.rm.val (getStall st.val s).rmode = some r →
    ∀ p ∈ [(Instr.vadd st o, VecOp.add), (.vsub st o, .sub), (.vmul st o, .mul), (.vfma st o, .fma), (.vmax st o, .max),
      (.vmin st o, .min), (.vdiv st o, .div), (.vsqrt st o, .sqrt)],
    let x := getStall st.val s
    let fmt := o.fmt.val
    let el (i : Nat) := vecElem p.2 fmt r (x.rdElem fmt o.va.val i).1 (x.rdElem fmt o.vb.val i).1 (x.rdElem fmt o.vc.val i).1
      (Config.freeValue (100 + i) s.freeCtr % 2 ^ (8 * elemBytes fmt))
    ∃ t, exec p.1 s = .next t ∧
      (∀ i, i < elemCount fmt → (getStall st.val t).keepLanes fmt o.vd.val i = x.maskedLanes o.mask.val fmt o.vd.val i
        (elemLanes fmt (el i).1 ((x.rdElem fmt o.va.val i).2 || (p.2 != .sqrt && (x.rdElem fmt o.vb.val i).2)
          || (p.2 == .fma && (x.rdElem fmt o.vc.val i).2)))) ∧
      (∀ q l, q ≠ o.vd.val → l < 64 → (getStall st.val t).rdLane q l = x.rdLane q l) ∧
      (getStall st.val t).fflags = orFlags x.fflags
        (allFlags ((List.range (elemCount fmt)).map fun i => if bitOf (x.rdMask o.mask.val) i then (el i).2 else {})) ∧
      (getStall st.val t).pc = x.pc + 1 ∧ (getStall st.val t).sregs = x.sregs ∧ (getStall st.val t).tiles = x.tiles ∧
      (getStall st.val t).masks = x.masks ∧ (getStall st.val t).maskP = x.maskP ∧ (∀ k, k ≠ st.val → getStall k t = getStall k s) ∧
      { t with comp := s.comp, freeCtr := s.freeCtr } = s

/-- R155, R153, R190: VSPLAT writes SA's value in every element; VSEL takes VA where the mask is on and VB where it is off; VREDSUM
leaves the fixed tree's sum in element 0 and zero in the other lanes; VCMP writes a mask register, a bit by the relation VC names of the
elements that are on and a clear bit for those that are off; VCVT writes the elements that are on in the format VC names, a block format
with the scale that its block's elements choose. Poison of operands and of mask bits goes along (R145). The relations VC names and the
layout of a block format in a lane are the model's (log entries 29 and 30). -/
def Obligations.VectorMovesAndConversions : Prop :=
  ∀ (st : Fin 128) (o : VectorOp) (s : State) (r : Rounding), stallRuns st.val s = true →
    Rounding.select o.rm.val (getStall st.val s).rmode = some r →
    let x := getStall st.val s
    let fmt := o.fmt.val
    let n := elemCount fmt
    let on (i : Nat) : Bool := bitOf (x.rdMask o.mask.val) i
    let after (i : Instr) (f : Stall → Prop) : Prop := ∃ t, exec i s = .next t ∧ f (getStall st.val t) ∧
      (getStall st.val t).pc = x.pc + 1 ∧ (getStall st.val t).sregs = x.sregs ∧ (∀ k, k ≠ st.val → getStall k t = getStall k s) ∧
      { t with comp := s.comp, freeCtr := s.freeCtr } = s
    let plain := fmt = 0 ∨ fmt = 1 ∨ fmt = 9
    (plain → after (.vsplat st o) fun y => ∀ i, i < n → y.keepLanes fmt o.vd.val i =
      elemLanes fmt (if fmt = 1 then (x.rdS o.sa.val).v.toNat % 65536 else (x.rdS o.sa.val).v.toNat) (x.rdS o.sa.val).p) ∧
    (fmt ≤ 9 → after (.vsel st o) fun y => ∀ l, l < 64 →
      let i := if fmt = 9 then l / 2 else l
      let v := if on i then x.rdLane o.va.val l else x.rdLane o.vb.val l
      y.rdLane o.vd.val l = { v with p := v.p || bitOf (x.rdMaskP o.mask.val) i }) ∧
    (plain → after (.vredsum st o) fun y =>
      y.keepLanes fmt o.vd.val 0 = elemLanes fmt ((pairTree fmt (redRounding o.rm.val r) (if fmt = 9 then 5 else 6)
        ((List.range n).map fun i => (x.rdElem fmt o.va.val i).1)).1.headD 0) ((List.range n).any fun i => (x.rdElem fmt o.va.val i).2) ∧
      ∀ l, (if fmt = 9 then 2 else 1) ≤ l → l < 64 → y.rdLane o.vd.val l = Lane.zero) ∧
    (plain → after (.vcmp st o) fun y => ∀ i, i < n →
      let a := decodeElem fmt (x.rdElem fmt o.va.val i).1
      let b := decodeElem fmt (x.rdElem fmt o.vb.val i).1
      let rel := if a.isNan || b.isNan then 3 else if a.lt b then 0 else if b.lt a then 2 else 1
      bitOf (y.rdMask (o.vd.val % 8)) i = (on i && (Config.vcmpRel (o.vc.val % 8) rel (a.isSnan || b.isSnan)).1) ∧
      bitOf (y.rdMaskP (o.vd.val % 8)) i = (bitOf (x.rdMaskP o.mask.val) i
        || (on i && ((x.rdElem fmt o.va.val i).2 || (x.rdElem fmt o.vb.val i).2)))) ∧
    (fmt ≤ 9 → o.vc.val ≤ 9 →
      let d := o.vc.val
      let lf := if d = 9 then 9 else 0
      let e (i : Nat) := x.rdElem (if fmt = 9 then 9 else 0) o.va.val i
      let v (i : Nat) : FVal := if isBlockFmt fmt then blockVal fmt (field (e i).1 15 8) ((e i).1 % 2 ^ (blockGeom fmt).1)
        else decodeElem fmt ((e i).1 % 2 ^ (8 * elemBytes fmt))
      let wide := isBlockFmt fmt && (d == 0 || d == 9)
      let m := min n (elemCount d)
      let blk (j : Nat) := narrowBlock d r ((((List.range m).map fun i => (v i, on i)).drop (32 * j)).take 32)
      after (.vcvt st o) fun y =>
        (isBlockFmt d = false → ∀ i, i < m → y.keepLanes lf o.vd.val i = x.maskedLanes o.mask.val lf o.vd.val i
          (elemLanes lf (if wide then widenBlock d (v i) else encodeElem d r (v i)).1 (e i).2)) ∧
        (isBlockFmt d = true → ∀ i, i < m → y.keepLanes 0 o.vd.val i = x.maskedLanes o.mask.val 0 o.vd.val i
          (elemLanes 0 (blockLane (blk (i / 32)).1 (((blk (i / 32)).2.map (·.1)).getD (i % 32) 0)) (e i).2)))

/-- R188, R180, R145: VLD in reach of the unit's store widens each element that is on and keeps the others: of a plain format from its
own bytes, of a block format from the code and the scale of its block. VST, when no element that is on and no mask bit is poisoned, stores
the elements that are on and no byte of the others; in a block format it stores the scales and the codes of two whole blocks. -/
def Obligations.VectorLoadAndStore : Prop :=
  ∀ (st : Fin 128) (o : VectorOp) (s : State) (r : Rounding), stallRuns st.val s = true → o.fmt.val ≤ 9 →
    Rounding.select o.rm.val (getStall st.val s).rmode = some r →
    let x := getStall st.val s
    let fmt := o.fmt.val
    let b := elemBytes fmt
    let lf := laneFmt fmt
    let n := elemCount fmt
    let base := stallBase st.val
    let a := ((x.rdS o.sa.val).v + o.imm.signExtend 64).toNat
    let on (i : Nat) : Bool := bitOf (x.rdMask o.mask.val) i
    let clean := x.rdMaskP o.mask.val = 0 ∧ ∀ i, i < n → on i = true → (x.rdElem lf o.vd.val i).2 = false
    let stored (f : State → Prop) : Prop := ∃ t, exec (.vst st o) s = .next t ∧ (getStall st.val t).pc = x.pc + 1 ∧
      { t with comp := s.comp, mem := s.mem, poison := s.poison } = s ∧ f t
    (isBlockFmt fmt = false → inStore st.val a (n * b) s = true →
      (∀ e, cleanErrs e [(a, n * b)] → ∃ t, exec (.vld st ⟨o, e⟩) s = .next t ∧ (getStall st.val t).pc = x.pc + 1 ∧ { t with comp := s.comp } = s ∧
        ∀ i, i < n → (getStall st.val t).keepLanes lf o.vd.val i = x.maskedLanes o.mask.val lf o.vd.val i
          (elemLanes lf (let c := natOfLE ((readStore st.val (a + i * b) b s).map (·.1))
              if fmt = lf then c else (encodeElem lf r (decodeElem fmt c)).1) (anyPoison (readStore st.val (a + i * b) b s)))) ∧
      (clean → stored fun t =>
        (∀ i, i < n → on i = true → readDev (base + a + i * b) b t =
          bytesLE b (if fmt = lf then (x.rdElem lf o.vd.val i).1 else (encodeElem fmt r (decodeElem lf (x.rdElem lf o.vd.val i).1)).1)) ∧
        ∀ c, (∀ i, i < n → on i = true → c < base + a + i * b ∨ base + a + i * b + b ≤ c) → readDev c 1 t = readDev c 1 s)) ∧
    ∀ g k, isBlockFmt fmt = true → blockPlace fmt a = some (g, k) →
      let w := (blockGeom fmt).2.1
      inStore st.val (g + k) 2 s = true → inStore st.val a (2 * w) s = true →
      (∀ e, cleanErrs e [(g + k, 2), (a, 2 * w)] →
        ∃ t, exec (.vld st ⟨o, e⟩) s = .next t ∧ (getStall st.val t).pc = x.pc + 1 ∧ { t with comp := s.comp } = s ∧
        ∀ i, i < 64 → (getStall st.val t).keepLanes lf o.vd.val i =
          let c := (loadBlocks st.val fmt g k s).getD i (.nan false, false)
          x.maskedLanes o.mask.val lf o.vd.val i (elemLanes lf (widenBlock lf c.1).1 c.2)) ∧
      (clean → stored fun t =>
        (∀ j, j < 2 →
          let h := narrowBlock fmt r ((((List.range 64).map fun i => (decodeElem lf (x.rdElem lf o.vd.val i).1, on i)).drop (32 * j)).take 32)
          readDev (base + g + k + j) 1 t = bytesLE 1 h.1 ∧ readDev (base + a + j * w) w t = blockPack fmt (h.2.map (·.1))) ∧
        ∀ c, (c < base + g + k ∨ base + g + k + 2 ≤ c) → (c < base + a ∨ base + a + 2 * w ≤ c) → readDev c 1 t = readDev c 1 s)

/-- R192, R193, R196, R211: the matrix instructions. MOPA, with its descriptor good where it uses the expander (R212) and what its ports
read, adds K outer products to the tile, or to zero; with neither port on the expander and both operands of a plain format in reach of the
unit's store, the ports read the elements there. MST stores the tile row by row, each element rounded once; MLD loads it from FP32; MZERO
clears it; XCFG takes the descriptor. Other tiles stay. -/
def Obligations.MatrixInstructions : Prop :=
  ∀ (st : Fin 128) (o : MatrixOp) (s : State), stallRuns st.val s = true → o.reserved = 0 →
    let x := getStall st.val s
    let fmt := o.fmt.val
    let b := elemBytes fmt
    let k := (x.rdS o.sk.val).v.toNat
    let va := (x.rdS o.sa.val).v.toNat
    let vb := (x.rdS o.sb.val).v.toNat
    let els (a n : Nat) : List (FVal × Bool) := (List.range n).map fun i =>
      (decodeElem fmt (natP (readStore st.val (a + i * b) b s)), anyPoison (readStore st.val (a + i * b) b s))
    let tile (i : Instr) (f : Nat → Lane) : Prop := ∃ t, exec i s = .next t ∧
      (∀ e, e < 2048 → (getStall st.val t).rdTile o.acc.val e = f e) ∧
      (∀ q e, q ≠ o.acc.val → e < 2048 → (getStall st.val t).rdTile q e = x.rdTile q e) ∧
      (getStall st.val t).pc = x.pc + 1 ∧ (getStall st.val t).sregs = x.sregs ∧ (getStall st.val t).vregs = x.vregs ∧
      { t with comp := s.comp } = s
    let steps := 1 ≤ k ∧ k ≤ 16384 ∧ k % stepsPerClock fmt = 0
    (∀ e as bs s1, cleanErrs e (mopaSpan st.val o s) → steps → fmt ≤ 8 → matrixBad o = false →
      (o.xsel.val = 0 ∨ expanderOk x.exp o.xsel.val fmt k vb = true) → readPorts st.val k o s = .ok (as, bs, s1) →
      let y := getStall st.val s1
      exec (.mopa st ⟨o, e⟩) s = .next (setStall st.val
        { y.wrTile o.acc.val (tileUpdate o.zero x o.acc.val as bs) with pc := y.pc + 1 } s1)) ∧
    (o.xsel.val = 0 →
      (∀ e, fmt ≤ 4 → o.srca = false → o.srcb = false → steps → inStore st.val va (32 * k * b) s = true →
        inStore st.val vb (64 * k * b) s = true → cleanErrs e [(va, 32 * k * b), (vb, 64 * k * b)] →
        tile (.mopa st ⟨o, e⟩) fun q => (tileUpdate o.zero x o.acc.val (els va (32 * k)) (els vb (64 * k))).getD q Lane.zero) ∧
      (∀ e, cleanErrs e [(va, 8192)] → inStore st.val va 8192 s = true → tile (.mld st ⟨o, e⟩) fun q =>
        ⟨BitVec.ofNat 32 (natP (readStore st.val (va + 4 * q) 4 s)), anyPoison (readStore st.val (va + 4 * q) 4 s)⟩) ∧
      tile (.mzero st o) (fun _ => Lane.zero) ∧
      (fmt ≤ 4 → inStore st.val va (2048 * b) s = true → (∀ e, e < 2048 → (x.rdTile o.acc.val e).p = false) →
        ∃ t, exec (.mst st o) s = .next t ∧ (getStall st.val t).pc = x.pc + 1 ∧
          (∀ e, e < 2048 → readDev (stallBase st.val + va + e * b) b t =
            bytesLE b (encodeElem fmt .tiesToEven (fp32.decode (x.rdTile o.acc.val e).v.toNat)).1) ∧
          (∀ c, c < stallBase st.val + va ∨ stallBase st.val + va + 2048 * b ≤ c → readDev c 1 t = readDev c 1 s) ∧
          { t with comp := s.comp, mem := s.mem, poison := s.poison } = s) ∧
      (∀ e, cleanErrs e [(va, 64)] → inStore st.val va 64 s = true →
        let d := expanderOf ((readStore st.val va 64 s).map (·.1))
        exec (.xcfg st ⟨o, e⟩) s = .next (setStall st.val
          { x with pc := x.pc + 1, exp := if anyPoison (readStore st.val va 64 s) then { d with restPoison := true } else d } s)))

/-! ### Movement, tallies, placements -/

/-- R156, R159, R161: tally operations of a stall whose tag is live, on a HELD tally of the unit's block, with clean operands. ADD returns
the old count and adds; WAIT_GE returns the count when it is reached and makes the unit wait when it is not; RESET clears the count;
a waiting stall goes on once its tally has reached the value. -/
def Obligations.StallTallyOperations : Prop :=
  (∀ (st : Fin 128) (o : MoveTOp) (s : State) (n : Nat), stallRuns st.val s = true → rtreeOut st.val s = false → o.reserved = 0 →
    stallTally st.val o s = some n → tagLive st.val s = true → (getTally n s).tstate = 1 →
    let x := getStall st.val s
    let v : SReg := if o.i then ⟨o.imm16.setWidth 64, false⟩ else x.rdS o.sb.val
    v.p = false → (x.rdS o.sa.val).p = false →
    let c := (getTally n s).count
    let next (y : Stall) (t : State) : State := setStall st.val { y with pc := x.pc + 1 } t
    let got := x.wrS o.sd.val ⟨BitVec.ofNat 64 c, false⟩
    (s.quiet → c + v.v.toNat < 2 ^ 32 → exec (.tallyAdd st o) s =
      .next (next got (freeNext (setTally n { getTally n s with count := c + v.v.toNat } s)))) ∧
    (n ≠ deadTally → v.v.toNat ≤ c → exec (.tallyWaitGe st o) s = .next (next got s)) ∧
    (n ≠ deadTally → c < v.v.toNat →
      exec (.tallyWaitGe st o) s = .next (setStall st.val { x with waiting := some (n, v.v.toNat, o.sd.val) } s)) ∧
    exec (.tallyReset st o) s = .next (next x (setTally n { getTally n s with count := 0 } s))) ∧
  (∀ (st : Fin 128) (s : State) (n v d : Nat), let x := getStall st.val s
    x.sstate = .running → x.waiting = some (n, v, d) → n ≠ deadTally → (getTally n s).tstate = 1 → v ≤ (getTally n s).count → s.quiet →
    exec (.tallyWaitSatisfied st) s = .next (setStall st.val
      { x.wrS d ⟨BitVec.ofNat 64 (getTally n s).count, false⟩ with waiting := none, pc := x.pc + 1 } s))

/-- R147, R148, R157, R249: the movement instructions, on aligned operands inside the unit's store and its placement's exchange: XLD
copies exchange bytes to the store, XST store bytes to the exchange when none is poisoned; the first RTREE of a tag is gathered, and
one all of whose members have issued writes its sum; PKICK starts an idle channel of the unit at the program it names; SYNC goes on
when nothing is outstanding, and stays while something is. While an RTREE of its unit is gathering, a movement instruction waits in the
movement queue behind it, if that has room. -/
def Obligations.MovementInstructions : Prop :=
  (∀ (st : Fin 128) (o : MoveTOp) (x : MoveXOp) (e : StoreErrs) (s : State), stallRuns st.val s = true → rtreeOut st.val s = true →
    (getStall st.val s).moveQueue.length < 16 → s.quiet →
    ∀ p ∈ [(Instr.tallyAdd st o, MoveInstr.add o), (.tallyWaitGe st o, .wait o), (.tallyReset st o, .reset o), (.xld st x, .xld x),
      (.xst st ⟨x, e⟩, .xst x e), (.rtree st ⟨x, e⟩, .rtree x e), (.pkick st o, .pkick o), (.stallStop st o, .stop o), (.trap st o, .trap o)],
    exec p.1 s = .next (moveQueued st.val p.2 s)) ∧
  (∀ (st : Fin 128) (o : MoveXOp) (s : State) (p : Placement), stallRuns st.val s = true → rtreeOut st.val s = false →
    o.reserved = 0 →
    let x := getStall st.val s
    let a := (x.rdS o.sa.val).v.toNat
    let b := (x.rdS o.sb.val).v.toNat
    let n := (x.rdS o.sc.val).v.toNat
    a % 64 = 0 → b % 64 = 0 → n % 64 = 0 → inStore st.val a n s = true → getPlacement x.placement s = some p → rowxReach p b n = true →
    (∃ t, exec (.xld st o) s = .next t ∧ (readStore st.val a n t).map (·.1) = (readRowx b n s).map (·.1) ∧
      getStall st.val t = { x with pc := x.pc + 1 } ∧ { t with mem := s.mem, poison := s.poison, comp := s.comp } = s) ∧
    (∀ e, cleanErrs e [(a, n)] → anyPoison (readStore st.val a n s) = false →
      (∃ t, exec (.xst st ⟨o, e⟩) s = .next t ∧ (readRowx b n t).map (·.1) = (readStore st.val a n s).map (·.1) ∧
        getStall st.val t = { x with pc := x.pc + 1 } ∧ { t with rowx := s.rowx, rowxPoison := s.rowxPoison, comp := s.comp } = s) ∧
      (bitOf (o.sub.toNat / 256) (getUnit x.tag s).rowMem = true →
        findRtree x.placement (stallRow st.val) (o.sub.toNat % 4) s = none →
        ∃ t, exec (.rtree st ⟨o, e⟩) s = .next t ∧ getStall st.val t = { x with pc := x.pc + 1 } ∧
          t.comp.rtrees = s.comp.rtrees ++ [⟨x.placement, stallRow st.val, o.sub.toNat % 4, o.sub.toNat / 256, n,
            [((getUnit x.tag s).rowMem, st.val, a, b)]⟩]))) ∧
  (∀ (pl : Nat) (row : Fin 16) (tag : Fin 4) (s : State) (q : RTreeOp), findRtree pl row.val tag.val s = some q → rtreeReady q = true →
    s.quiet → (∀ i ∈ q.issued, (getStall i.2.1 s).moveQueue = []) →
    ∃ t, exec (.rtreeComplete pl row tag) s = .next t ∧ t.comp = { s.comp with rtrees := s.comp.rtrees.filter (· != q) } ∧
      { t with rowx := s.rowx, rowxPoison := s.rowxPoison, comp := s.comp } = s ∧
      (readRowx (rtreeDest q) (rtreeBytes q s).length t).map (·.1) = (rtreeBytes q s).map (·.1)) ∧
  (∀ (st : Fin 128) (o : MoveTOp) (s : State), stallRuns st.val s = true → o.reserved = 0 →
    let x := getStall st.val s
    (∀ c, rtreeOut st.val s = false → (x.rdS o.sb.val).v.toNat < 4 → (getUnit x.tag s).channels[(x.rdS o.sb.val).v.toNat]? = some c →
      ((getChan c s).cstate = .idle ∨ (getChan c s).cstate = .stop ∨ (getChan c s).cstate = .fault) →
      ∃ t, exec (.pkick st o) s = .next t ∧ (getChan c t).cstate = .run ∧ (getChan c t).pc = 0 ∧ (getChan c t).tag = x.tag ∧
        getStall st.val t = { x with pc := x.pc + 1 } ∧ { t with port := s.port, comp := s.comp } = s) ∧
    exec (.sync st o) s = .next (if syncBusy st.val o.imm16.toNat s then s else setStall st.val { x with pc := x.pc + 1 } s))

/-- R172, Table 5.11: STOP, TRAP and the watchdog end the unit of a stall; the placement of that one unit, which a host job asked for,
ends with it. The stall keeps the cause; STOP is no error, a trap is logged as EV-0x5001 with the stall and the cause, the watchdog
fences the stall. R169, R170, R175, R176: the sequencers take the request at the head of their queue when it can be placed; a
migration whose unit has drained moves the unit to the other stall; one that has not drained in time is abandoned and logged, and one
whose unit waits on a tally that has failed ends with the unit (Table 5.12). -/
def Obligations.UnitEndsAndPlacements : Prop :=
  (∀ (st : Fin 128) (o : MoveTOp) (s : State) (p : Placement) (src : JobSrc), let x := getStall st.val s
    stallRuns st.val s = true → rtreeOut st.val s = false → o.reserved = 0 → s.quiet →
    getPlacement x.placement s = some p → p.tags = [x.tag] → p.owner = .host src → (getUnit x.tag s).stall = st.val →
    (∃ t, exec (.stallStop st o) s = .next t ∧ (getStall st.val t).lastCause = 0 ∧ (getStall st.val t).sstate ≠ .running ∧
      (getUnit x.tag t).active = false) ∧
    (∃ t, exec (.trap st o) s = .next t ∧ (getStall st.val t).lastCause = 1 ∧ (getStall st.val t).sstate ≠ .running ∧
      (getUnit x.tag t).active = false ∧ (getStall st.val t).trapCode = o.imm16.toNat ∧ s.logged t 0x5001 (st.val * 256 + 1)) ∧
    (∃ t, exec (.stallWatchdog st) s = .next t ∧ (getStall st.val t).lastCause = 9 ∧ (getStall st.val t).sstate = .fenced ∧
      s.logged t 0x5002 st.val)) ∧
  (∀ (s : State) (q : PlaceReq) (rest : List PlaceReq), s.quiet → (s.devState = .ready ∨ s.devState = .service) →
    s.comp.placeQueue = q :: rest →
    let given := (offeredStalls q.tenant q.prog.porters s).take q.prog.unitsMax
    let rows := (given.map fun e => stallRow e.1).eraseDups
    q.prog.unitsMin ≤ given.length → given.length ≤ (freeTags s).length →
    (rowxAlloc ((q.prog.rowxKib * 1024 + 65535) / 65536 * 65536) s rows).isSome →
    (reqBlock q (match given with | e :: _ => stallDie e.1 | [] => 0) s).1.isSome →
    ∃ t, exec .placementStart s = .next t ∧ t.comp.placeQueue = rest ∧ t.comp.placements.length = s.comp.placements.length + 1 ∧
      (∀ e ∈ given, (getStall e.1 t).sstate = .running ∧ (getStall e.1 t).tenant = q.tenant ∧ (getStall e.1 t).pc = q.prog.entry ∧
        (getStall e.1 t).istore = q.prog.code ∧ (getStall e.1 t).sregs = []) ∧
      ∀ k, (∀ e ∈ given, e.1 ≠ k) → getStall k t = getStall k s) ∧
  (∀ (row : Fin 16) (s : State) (m : Migration), (s.comp.migrations.find? fun m => stallRow m.a == row.val) = some m →
    (migWaitFailed m s = false → migDrained m s = true → procUp (6 + row.val / 8) s = true → m.a ≠ m.b →
      ∃ t, exec (.migrationDrained row) s = .next t ∧ m ∉ t.comp.migrations ∧ (getUnit m.tag t).stall = m.b ∧
        (getStall m.b t).sstate = .running ∧ (getStall m.b t).sregs = (getStall m.a s).sregs ∧ (getStall m.a t).sstate = .spare) ∧
    (migWaitFailed m s = true → (getStall m.a s).sstate = .moving → s.quiet →
      ∃ t, exec (.migrationDrained row) s = .next t ∧ m ∉ t.comp.migrations ∧ (getStall m.a t).sstate ≠ .moving) ∧
    ∃ t, exec (.migDrainExpiry row) s = .next t ∧ m ∉ t.comp.migrations ∧ (getStall m.a t).sstate ≠ .moving ∧
      s.logged t 0x5004 (m.a * 256 + m.b))

/-- R143, R168, R179, R205: the writes that command the compute side, when they pass the checks of R57: a row's frequency in steps of
100 MHz from 800 to 1,600; a program image that passes every check of Table 5.9, from the PF, with a crate free; the unloading of a
program no placement uses; a code table that is one. Each answers 0. -/
def Obligations.ComputeObjectWrites : Prop :=
  (∀ (row : Fin 16) (w : ObjWrite) (s : State), ownCheck w.sess (O.ROW_FREQ_MHZ + row.val) (.num w.value) s = 0 →
    800 ≤ w.value → w.value ≤ 1600 → w.value % 100 = 0 →
    ∃ t, exec (.rowFreqMhz row w) s = .next t ∧ getN (O.ROW_FREQ_MHZ + row.val) t = w.value ∧
      t.sent = s.sent ++ [.writeAnswer w.sess (O.ROW_FREQ_MHZ + row.val) 0]) ∧
  (∀ (w : BlobWrite) (s : State), ownCheck w.sess O.PROG_IMAGE (.bytes w.bytes) s = 0 → w.sess = 8 → imageCheck w.bytes = 0 →
    (registerImage w.bytes s).1 = 0 →
    ∃ t, exec (.progImage w) s = .next t ∧ (∃ g ∈ t.comp.programs, g.progId = imgAt w.bytes 8 4) ∧
      s.logged t 0x5005 (imgAt w.bytes 8 4) ∧ .writeAnswer w.sess O.PROG_IMAGE 0 ∈ t.sent) ∧
  (∀ (w : ObjWrite) (s : State), ownCheck w.sess O.PROG_UNLOAD (.num w.value) s = 0 →
    (∃ g ∈ s.comp.programs, g.progId = w.value) → (∀ g ∈ s.comp.programs, g.progId = w.value → imageUsed g.crate s = false) →
    ∃ t, exec (.progUnload w) s = .next t ∧ (∀ g ∈ t.comp.programs, g.progId ≠ w.value) ∧ .writeAnswer w.sess O.PROG_UNLOAD 0 ∈ t.sent) ∧
  (∀ (table : Fin 16) (w : BlobWrite) (s : State), ownCheck w.sess (0x505001 + table.val) (.bytes w.bytes) s = 0 →
    xcTableOk w.bytes = true →
    ∃ t, exec (.xcTable table w) s = .next t ∧ getB (0x505001 + table.val) t = w.bytes ∧
      s.logged t 0x5012 table.val ∧ t.sent = s.sent ++ [.writeAnswer w.sess (0x505001 + table.val) 0])

/-! ### Crates and island FIFOs -/

/-- R224, R227 to R230: a request that its smallest class can serve, with none of its priority or a higher one waiting before it, gets a
crate, now HELD with one reference, the requester as owner and its tenant: on chip one that was FREE, of an HBM class the handle that
comes out of the cache (log entry 16); a waiting request of an external user whose turn it is gets one the same way; one that has waited
too long is answered with NO_CRATE. Below 128 handles a cache takes up to 256 from its ring, above 448 it gives 256 back, and the class's
free handles stay as many. -/
def Obligations.CrateRequests : Prop :=
  (∀ (q : CrateReq) (s : State) (cls : Nat) (larger : List Nat), reqClasses q = cls :: larger → queuedAhead cls q s = false →
    classServes cls q s = true →
    ∃ t i, exec (.crateAlloc q) s = .next t ∧
      (cls ≤ 3 → (getCrate (mkHandle cls i) s).rstate = 0) ∧ (4 ≤ cls → pickFree cls q.die s = some i) ∧
      (getCrate (mkHandle cls i) t).rstate = 1 ∧ (getCrate (mkHandle cls i) t).refs = 1 ∧
      (getCrate (mkHandle cls i) t).owner = q.owner ∧ (getCrate (mkHandle cls i) t).tenant = q.tenant.val ∧
      t.sent = s.sent ++ [.crateAnswer q.owner (mkHandle cls i) 0] ∧
      (∀ h, h ≠ mkHandle cls i → getCrate h t = getCrate h s) ∧
      { t with pools := s.pools, mem := s.mem, poison := s.poison, sent := s.sent, freeCtr := s.freeCtr } = s) ∧
  (∀ (k : Nat) (s : State) (w : WaitReq), s.pools.waiting[k]? = some w → w.waiter = .none →
    (waitFirst k w s = true → classServes w.cls w.req s = true →
      ∃ t i, exec (.crateWaitServed k) s = .next t ∧ t.pools.waiting = s.pools.waiting.eraseIdx k ∧
        (getCrate (mkHandle w.cls i) t).rstate = 1 ∧ (getCrate (mkHandle w.cls i) t).owner = w.req.owner ∧
        t.sent = s.sent ++ [.crateAnswer w.req.owner (mkHandle w.cls i) 0]) ∧
    ∃ t, exec (.allocWaitExpiry k) s = .next t ∧ t.pools.waiting = s.pools.waiting.eraseIdx k ∧
      t.sent = s.sent ++ [.crateAnswer w.req.owner 0 2]) ∧
  (∀ (cls : Fin 7) (s : State), 4 ≤ cls.val → let c := cls.val
    (cacheLevel c s < 128 → ∃ t, exec (.handleCacheRefill cls) s = .next t ∧
      cacheLevel c t = cacheLevel c s + min 256 (runsLen (getStore c s).ring) ∧ classFree c t = classFree c s ∧
      (∀ h, getCrate h t = getCrate h s) ∧ { t with pools := s.pools } = s) ∧
    (448 < cacheLevel c s → ∃ t, exec (.handleCacheSpill cls) s = .next t ∧
      cacheLevel c t = cacheLevel c s - 256 ∧ classFree c t = classFree c s ∧
      (∀ h, getCrate h t = getCrate h s) ∧ { t with pools := s.pools, freeCtr := s.freeCtr } = s))

/-- R231 to R235: operations of a source on a valid, held crate of its own tenant. REF adds references; DEREF takes one away, and of the
last one frees the crate, or leaves it HELD_ZERO under strict release; GIVE changes the owner; FREE under strict release frees a crate
in HELD_ZERO for its owner and does nothing in normal release; a teardown takes back the tenant's tallies, and leaves it no crate once no
move reads or writes one, which it waits for. CRATE_STRICT takes its value. -/
def Obligations.CrateReferences : Prop :=
  (∀ (o : CrateOp) (s : State), let c := getCrate o.handle s
    let gone (t : State) : Prop := (getCrate o.handle t).rstate = 0 ∧ (∀ h, h ≠ o.handle → getCrate h t = getCrate h s) ∧
      { t with pools := s.pools, freeCtr := s.freeCtr } = s
    handleValid o.handle s = true → foreignOp o s = false →
    (∀ n, c.rstate ≠ 0 → 0 < c.refs + n → c.refs + n ≤ 255 →
      exec (.ref o n) s = .next (setCrate o.handle { c with refs := c.refs + n, rstate := 1 } s)) ∧
    (c.rstate = 1 → 1 < c.refs → exec (.deref o) s = .next (setCrate o.handle { c with refs := c.refs - 1 } s)) ∧
    (c.rstate = 1 → c.refs ≤ 1 → getN O.CRATE_STRICT s = 1 →
      exec (.deref o) s = .next (setCrate o.handle { c with refs := 0, rstate := 2 } s)) ∧
    (c.rstate = 1 → c.refs ≤ 1 → getN O.CRATE_STRICT s = 0 → ∃ t, exec (.deref o) s = .next t ∧ gone t) ∧
    (∀ n, c.rstate ≠ 0 → exec (.give o n) s = .next (setCrate o.handle { c with owner := n } s)) ∧
    (c.rstate = 2 → c.owner = o.source → getN O.CRATE_STRICT s = 1 → ∃ t, exec (.free o) s = .next t ∧ gone t) ∧
    (getN O.CRATE_STRICT s = 0 → exec (.free o) s = .next s)) ∧
  (∀ (w : ObjWrite) (s : State), ownCheck w.sess O.CRATE_STRICT (.num w.value) s = 0 → w.value ≤ 1 →
    ∃ t, exec (.crateStrict w) s = .next t ∧ getN O.CRATE_STRICT t = w.value ∧
      t.sent = s.sent ++ [.writeAnswer w.sess O.CRATE_STRICT 0]) ∧
  (∀ (tenant : Fin 64) (s : State), ∃ t, exec (.tenantTeardown tenant) s = .next t ∧ (∀ b ∈ t.comp.blocks, b.tenant ≠ tenant.val) ∧
    bitOf t.pools.tearing tenant.val = tenantMoves tenant.val t ∧
    (tenantMoves tenant.val t = false → ∀ h, (getCrate h t).rstate ≠ 0 → (getCrate h t).tenant ≠ tenant.val) ∧
    ((∀ p ∈ s.port.chans, p.2.moves = []) → tenantMoves tenant.val t = false))

/-- R240, R242, R244, R245: the flow-control pin is taken as sampled, and messages that waited for it leave once it is low; a word whose
parity check fails as it is read is counted and logged; DROP_REST in the middle of a packet is counted and discards its remaining words up
to the one that ends it, where that one is not yet visible those that are; at a packet boundary it has no effect; the watermarks of a
board-link FIFO take values of which HIGH is at most 24 and above LOW, and the hold signal, which drives BL_FC_OUT, follows them. -/
def Obligations.IslandFifos : Prop :=
  (∀ (link : Fin 8) (high : Bool) (s : State),
    ∃ t, exec (.blFcIn link high) s = .next t ∧ bitOf t.pools.fcIn link.val = high ∧
      (∀ k, k ≠ link.val → bitOf t.pools.fcIn k = bitOf s.pools.fcIn k) ∧
      (high = true → { t with pools := s.pools } = s) ∧
      (high = false → t.sent = s.sent ++ (s.host.blTxWait.filter (·.1 == link.val)).map (fun m => .blMessage m.1 m.2) ∧
        t.host = { s.host with blTxWait := s.host.blTxWait.filter (·.1 != link.val) } ∧
        { t with pools := s.pools, host := s.host, sent := s.sent } = s)) ∧
  (∀ (n : Nat) (traffic : List FifoEvent) (s : State), let u := fifoEvents n traffic s
    let f := getFifo n u
    let seen := f.readLevel (fifoDepth n)
    (f.midPacket = false ∨ f.dropping = true → exec (.dropRest ⟨n, traffic⟩) s = .next u) ∧
    (f.midPacket = true → f.dropping = false → ∃ t, exec (.dropRest ⟨n, traffic⟩) s = .next t ∧
      getN O.FIFO_DROPS t = (getN O.FIFO_DROPS u + 1) % 2 ^ objBits O.FIFO_DROPS ∧
      (∀ k, k ≠ n → getFifo k t = getFifo k u) ∧
      (∀ pre w rest, f.words = pre ++ w :: rest → (∀ v ∈ pre, v.endMark = false) → w.endMark = true → pre.length < seen →
        (getFifo n t).words = rest ∧ (getFifo n t).midPacket = false ∧ (getFifo n t).dropping = false) ∧
      ((∀ v ∈ f.words.take seen, v.endMark = false) → (getFifo n t).words = f.words.drop seen ∧ (getFifo n t).dropping = true))) ∧
  (∀ (n : Nat) (s : State) (w : FifoWord) (rest : List FifoWord), fifoLink n = none → (getFifo n s).words = w :: rest →
    (getFifo n s).readLevel (fifoDepth n) ≠ 0 → ((getFifo n s).midPacket = true ∨ (getFifo n s).pkts ≠ 0) →
    (w.badLanes (fifoLanes n) ≠ 0 ∨ w.sidePar ≠ w.sideBit) →
    ∃ t, exec (.dropRest ⟨n, [.read]⟩) s = .next t ∧ s.logged t 0x5805 (n * 2 ^ 48 + w.badLanes (fifoLanes n)) ∧
      getN O.FIFO_PARITY_ERRS t = (getN O.FIFO_PARITY_ERRS s + 1) % 2 ^ objBits O.FIFO_PARITY_ERRS) ∧
  (∀ (link : Fin 8) (w : ObjWrite) (s : State), let f := getFifo (0x100 + link.val)
    ownCheck w.sess (O.BL_RX_WM + link.val) (.num w.value) s = 0 → w.value / 256 ≤ 24 → w.value % 256 < w.value / 256 →
    ∃ t, exec (.blRxWm link w) s = .next t ∧ getN (O.BL_RX_WM + link.val) t = w.value ∧ (f t).words = (f s).words ∧
      ((f s).writeLevel 64 ≤ w.value % 256 → (f t).hold = false) ∧ (w.value / 256 ≤ (f s).writeLevel 64 → (f t).hold = true) ∧
      t.sent = s.sent ++ (if (f t).hold = (f s).hold then [] else [.blFcOut link.val (f t).hold])
        ++ [.writeAnswer w.sess (O.BL_RX_WM + link.val) 0])
/-! ### Porters and the transmit scheduler -/

/-- A channel that takes its next instruction: in RUN, with no fault and no SIGNAL or STOP outstanding, and a word it can fetch, whatever
the host answers. -/
def Sys2Proof.Machine.State.chanIssues (c : Nat) (hostOk : Bool) (s : State) : Prop :=
  (getChan c s).cstate = .run ∧ (getChan c s).pendingFault = none ∧ (getChan c s).afterMoves = none ∧
  fetchCause (getChan c s) hostOk s = 0

/-- R253, R256 to R258: a MOVE that its format allows, with fewer than four in flight and none before it under FENCE, is issued with its
operands as the loops stride them (to QUEUE only on an engine's channel); LOOP enters its body; WAIT goes on at a count that has been
reached and waits for one that has not; SIGNAL with no MOVE in flight adds its value to the tally, and STOP ends the program; with MOVEs in
flight both are held back. -/
def Obligations.PorterInstructions : Prop :=
  ∀ (ch : Fin 512) (ok : Bool) (s : State), s.chanIssues ch.val ok →
    let c := ch.val
    let x := getChan c s
    (∀ o : MoveOp, let src := strided 64 o.srel o.src (·.sstride) x
      let dst := strided 64 o.drel o.dst (·.dstride) x
      x.moves.length < 4 → (o.fence = true → x.moves = []) → operandOk o.dstKind.val dst = true →
      (o.dstKind.val = 6 → x.owner = .engine) →
      let after (code : MoveCode) : Host.Outcome State Fault Refusal :=
        let j : MoveJob := { code := code, op := o, src := src, dst := dst, pc := x.pc, id := x.issued }
        .next (setChan c (Channel.advance { x with moves := x.moves ++ [j], issued := x.issued + 1 }) s)
      (moveOk .zero o x = true → exec (.zero ch ⟨o, ok⟩) s = after .zero) ∧
      (operandOk o.srcKind.val src = true →
        (moveOk .copy o x = true → exec (.copy ch ⟨o, ok⟩) s = after .copy) ∧
        (moveOk .xcEncode o x = true → exec (.xcEncode ch ⟨o, ok⟩) s = after .xcEncode) ∧
        (moveOk .xcCheck o x = true → exec (.xcCheck ch ⟨o, ok⟩) s = after .xcCheck) ∧
        (moveOk .xcDecode o x = true → exec (.xcDecode ch ⟨o, ok⟩) s = after .xcDecode))) ∧
    (∀ o : LoopOp, loopOk o x = true → exec (.loop ch ⟨o, ok⟩) s = .next (setChan c { x with
      loops := ⟨x.pc + 1, o.body, if o.count = 0 then 65536 else o.count, 0, o.sstride, o.dstride, o.vstride⟩ :: x.loops,
      pc := x.pc + 1 } s)) ∧
    (∀ (o : TallyOp) (n : Nat), o.reserved = 0 → chanTally o.tally x s = some n → (getTally n s).tstate = 1 → n ≠ deadTally →
      let v := strided 32 o.vrel (o.value % 2 ^ 32) (·.vstride) x
      (v ≤ (getTally n s).count → exec (.wait ch ⟨o, ok⟩) s = .next (setChan c x.advance s)) ∧
      ((getTally n s).count < v → exec (.wait ch ⟨o, ok⟩) s = .next (setChan c { x with cstate := .wait, waitFor := some (n, v) } s)) ∧
      (x.moves ≠ [] → s.quiet → exec (.signal ch ⟨o, ok⟩) s = .next (setChan c { x with afterMoves := some (some (n, v), 0) } s)) ∧
      (x.moves = [] → s.quiet → (x.owner = .host ∨ x.owner = .engine) → (getTally n s).count + v < 2 ^ 32 →
        exec (.signal ch ⟨o, ok⟩) s = .next (setTally n { getTally n s with count := (getTally n s).count + v } (setChan c x.advance s)))) ∧
    (∀ code : Fin 65536, s.quiet →
      (x.moves ≠ [] → exec (.porterStop ch ⟨code, ok⟩ 0) s = .next (setChan c { x with afterMoves := some (none, code.val) } s)) ∧
      (x.moves = [] → x.job = none →
        exec (.porterStop ch ⟨code, ok⟩ 0) s = .next (setChan c { x with cstate := .stop, stopCode := code.val } s)))

/-- R258, R267, R268, R270: a waiting channel goes on once its tally has reached the value; the watchdog puts the fault WATCHDOG on it; a
fault with no burst in flight is entered: state FAULT, its cause kept, counted and logged; a channel its owner stops with no burst in
flight ends in FAULT with cause OWNER; PORTER_CH_CFG takes a rate and slots of 1 to 64, and a priority of 0 to 2, on a host channel 0. -/
def Obligations.PorterChannelEnds : Prop :=
  (∀ (ch : Fin 512) (s : State), let c := ch.val
    let x := getChan c s
    (∀ n v, x.cstate = .wait → x.waitFor = some (n, v) →
      ((getTally n s).tstate = 1 → n ≠ deadTally → v ≤ (getTally n s).count →
        exec (.porterWaitSatisfied ch) s = .next (setChan c (Channel.advance { x with cstate := .run, waitFor := none }) s)) ∧
      exec (.porterWaitWatchdog ch) s =
        .next (setChan c { x with
          pendingFault := some (x.pendingFault.getD 9), waitFor := none, afterMoves := none, cstate := .run } s)) ∧
    (∀ cause, x.cstate = .run → x.inFlight = false → x.pendingFault = some cause →
      (x.owner = .engine ∨ x.owner = .host ∧ x.job = none) → s.quiet →
      ∃ t, exec (.channelFault ch) s = .next t ∧
        getChan c t = { x with cstate := .fault, cause := cause, pendingFault := none, moves := [], job := none } ∧
        s.logged t 0x5020 (c * 2 ^ 48 + cause * 2 ^ 40 + x.pc % 2 ^ 24) ∧
        getN O.PORTER_FAULTS t = (getN O.PORTER_FAULTS s + 1) % 2 ^ objBits O.PORTER_FAULTS ∧ t.mem = s.mem) ∧
    ((x.cstate = .run ∨ x.cstate = .wait) → x.inFlight = false → x.job = none → s.quiet →
      ∃ t, exec (.channelStop ch) s = .next t ∧ (getChan c t).cstate = .fault ∧ (getChan c t).cause = 10 ∧
        (getChan c t).moves = [] ∧ { t with port := s.port, pools := s.pools, sched := s.sched } = s)) ∧
  (∀ (ch : Fin 512) (w : ObjWrite) (s : State), ch.val < 384 → let key := inst128 O.PORTER_CH_CFG ch.val
    ownCheck w.sess key (.num w.value) s = 0 → 1 ≤ w.value % 128 → w.value % 128 ≤ 64 →
    1 ≤ w.value / 2 ^ 16 % 128 → w.value / 2 ^ 16 % 128 ≤ 64 → w.value / 2 ^ 8 % 4 ≤ 2 →
    (hostChan ch.val s = true → w.value / 2 ^ 8 % 4 = 0) →
    ∃ t, exec (.porterChCfg ch w) s = .next t ∧ getN key t % 128 = w.value % 128 ∧ getN key t / 2 ^ 16 % 128 = w.value / 2 ^ 16 % 128 ∧
      getN key t / 2 ^ 8 % 4 = w.value / 2 ^ 8 % 4 ∧
      (∀ k, k ≠ key → getObj k t = getObj k s) ∧ t.sent = s.sent ++ [.writeAnswer w.sess key 0])

/-- R263 to R265: a free engine takes the next burst of the channel whose turn it is, which is the only ready one where no other is, into
staging, when a slot is free and the bytes lie in reach; an acknowledged burst of a plain MOVE is written at its place, its slot is free,
and a MOVE whose last burst it was leaves. -/
def Obligations.PorterBursts : Prop :=
  (∀ (die : Fin 2) (hostData : List Byte) (s : State) (c : Nat) (j : MoveJob) (n : Nat) (l : Option PLoc), let x := getChan c s
    slotFree die.val 0 s = true →
    ((∃ prio, pickBurst die.val s = some (c, prio)) ∨
      (c, x) ∈ s.port.chans ∧ burstReady die.val c x s = true ∧ ∀ p ∈ s.port.chans, burstReady die.val p.1 p.2 s = true → p.1 = c) →
    nextMove x = some j → burstOf x j s = .ok (n, l) →
    (∀ p, l = some p → reachCause c x false (j.op.srcKind.val == 3) p n s = 0) →
    ∃ t k, exec (.porterBurst die hostData true) s = .next t ∧ k ∈ (getChan c t).moves ∧ k.id = j.id ∧ k.readDone = j.readDone + n ∧
      k.bursts = j.bursts ++ [(j.readDone, match l with
        | some p => (readPlace p n hostData s).1
        | none => List.replicate n (0#8, false))] ∧
      t.mem = s.mem ∧ t.rowx = s.rowx) ∧
  (∀ (ch : Fin 512) (s : State) (j : MoveJob) (off room : Nat) (bs : List (Byte × Bool)) (rest : List (Nat × List (Byte × Bool)))
    (l : PLoc), let c := ch.val
    let x := getChan c s
    x.cstate = .run → x.pendingFault = none → x.afterMoves = none → s.quiet → (x.moves.map (·.id)).Nodup →
    (x.moves.find? fun m => !m.bursts.isEmpty) = some j → j.bursts = (off, bs) :: rest → gathers j = false →
    locate x j.op.dstKind.val j.dst off s = .ok (l, room) → (∀ o, l ≠ .crate 0 o) →
    reachCause c x true (j.op.dstKind.val == 3) l bs.length s = 0 →
    ∃ t w, exec (.burstDone ch true) s = .next t ∧
      (∀ a, l = .dev a → readDev a bs.length t = bs.map (·.1)) ∧
      (∀ h o, l = .crate h o → (readCrate h o bs.length t).map (·.1) = bs.map (·.1)) ∧
      (∀ a, l = .rowx a → (readRowx a bs.length t).map (·.1) = bs.map (·.1)) ∧
      (getChan c t).bytes = x.bytes + bs.length ∧
      (getChan c t).moves = if rest = [] ∧ j.op.length ≤ j.readDone then x.moves.filter fun m => m.id != j.id
        else x.moves.map fun m => if m.id = j.id then { j with bursts := rest, wrote := w } else m)

/-- R275 to R279, R295, Table 10.2: the scheduler of a port takes the head of the queue its rules pick and of no other. SC0 goes before
every other class: while its queue holds a segment, its count and its class's are above zero and two rounds' deficit covers the head,
that head is taken. A waiting enqueue enters its queue once there is room and it is first; sampling latches every queue. -/
def Obligations.TransmitScheduling : Prop :=
  (∀ (port : Fin 4) (s u : State) (q : Nat) (x : TxSeg) (rest : List TxSeg), schedPick port.val s = some (q, u) →
    (getQueue q u).segs = x :: rest →
    ∃ t y, exec (.schedSelect port) s = .next t ∧ (getQueue q t).segs = rest ∧
      getPicked port.val t = getPicked port.val u ++ [y] ∧ { y.seg with blind := x.seg.blind } = x.seg ∧ y.crate = x.crate ∧
      ∀ k, k ≠ q → (getQueue k t).segs = (getQueue k u).segs) ∧
  (∀ (port : Fin 4) (s : State) (x : TxSeg) (rest : List TxSeg), let q := 8 * port.val
    portZ4 port.val s = false → (getQueue q s).segs = x :: rest → 0 < shaperTokens q s → 0 < shaperTokens (2048 + q) s →
    (∀ tenant, 0 < tenant → tenant < 64 → (getQueue (32 * tenant + q) s).segs = []) →
    headLen q s ≤ (getQueue q s).deficit + 8192 * viewWeight (getN (shaperKey q) s) →
    ∃ t, exec (.schedSelect port) s = .next t ∧ (getQueue q t).segs = rest ∧ getPicked port.val t = getPicked port.val s ++ [x] ∧
      (∀ k, k ≠ q → getQueue k t = getQueue k s) ∧ { t with sched := s.sched, dict := s.dict } = s) ∧
  (∀ (k : Nat) (s : State) (w : EnqWait), s.sched.waiting[k]? = some w → w.chan = none → s.quiet →
    (∀ v ∈ s.sched.waiting.take k, v.q ≠ w.q) → queueRoom w.q w.seg.seg s = true →
    ∃ t, exec (.enqueueRoom k) s = .next t ∧ t.sched.waiting = s.sched.waiting.eraseIdx k ∧
      (getQueue w.q t).segs = (getQueue w.q s).segs ++ [{ w.seg with stamp := timeBase s }] ∧
      ∀ j, j ≠ w.q → getQueue j t = getQueue j s) ∧
  (∀ s : State, ∃ t, exec .schedSample s = .next t ∧ t.sched.queues = s.sched.queues ∧
    ∀ q < 2048, getN (inst128 O.QUEUE_STATUS q) t = queueSample q s)

/-- R289 to R291, R286, R456: the receiver of a group sends CREDIT with the limits it grants; no grant falls or passes the target, and each
reaches it where the space covers what all senders lack; the sender takes the counts of a CREDIT of its epoch; a tenant frame that an entry
of the classification matches is queued in the class and port it names, one that none matches is dropped and counted, as is one beyond the
policer's count. -/
def Obligations.CreditAndTenantFrames : Prop :=
  (∀ (g : Fin 1024) (site : Fin 32) (s : State), (getGroup g.val s).gstate = 2 → relayOnly g.val s = false →
    bitOf (getGroup g.val s).members site.val = true → site.val ≠ selfSite s →
    ∃ u, exec (.creditSend g site) s = .next (sendCtl (creditMsg g.val site.val u) u) ∧
      (∀ d < 32, (getCreditRx g.val d s).grant ≤ (getCreditRx g.val d u).grant ∧
        (getCreditRx g.val d u).grant ≤ max (getCreditRx g.val d s).grant (grantTarget g.val s) ∧
        ∀ k, k ≠ g.val → getCreditRx k d u = getCreditRx k d s) ∧
      ((((getGroup g.val s).others (selfSite s)).map fun d => grantLack g.val d s).sum ≤ grantSpace g.val s →
        (getCreditRx g.val site.val u).grant = max (getCreditRx g.val site.val s).grant (grantTarget g.val s)) ∧
      u.sched.queues = s.sched.queues) ∧
  (∀ (h : CtlHdr) (seq posted blind : Nat) (s : State), (getGroup h.group s).isOpen = true → relayOnly h.group s = false →
    h.epoch = (getGroup h.group s).epoch → bitOf (getGroup h.group s).members h.src = true →
    ∃ t, exec (.credit h seq posted blind) s = .next t ∧ (getCreditTx h.group h.src t).postedSeq = seq ∧
      (getCreditTx h.group h.src t).postedLimit = posted % 2 ^ 48 ∧ (getCreditTx h.group h.src t).blindLimit = blind % 2 ^ 48 ∧
      { t with sched := s.sched } = s) ∧
  (∀ (frame : List Byte) (s : State),
    (ethMatch frame s = none → exec (.tenantEthRx frame) s = .next (addN O.LF_ETH_DROPS 1 s)) ∧
    ∀ e, ethMatch frame s = some e → frame.length ≤ 8048 →
      let tenant := e / 2 ^ 14 % 64
      let port := e / 2 ^ 11 % 4
      let cls := if bitOf e 13 then 7 else 5
      let pol := getN (inst128 O.POLICER (tenant * 4 + port)) s
      (bitOf s.sched.tornDown tenant = false → bitOf pol 1 = false → queueRoom (queueOf cls port tenant) (ethSegment tenant port cls frame s) s = true →
        ∃ t x, exec (.tenantEthRx frame) s = .next t ∧
          (getQueue (queueOf cls port tenant) t).segs = (getQueue (queueOf cls port tenant) s).segs ++ [x] ∧ x.seg.data = frame) ∧
      (bitOf pol 1 = true → policerTokens (tenant * 4 + port) s < frame.length * 65536 →
        ∃ t, exec (.tenantEthRx frame) s = .next t ∧ t.sched.queues = s.sched.queues ∧
          getN (inst128 O.POL_DROPS (tenant * 4 + port)) t =
            (getN (inst128 O.POL_DROPS (tenant * 4 + port)) s + 1) % 2 ^ objBits (inst128 O.POL_DROPS (tenant * 4 + port))))
/-! ### The dictionary and the Rovik Object Protocol -/

/-- A request a session may make that is new and well formed: its session is open or its mailbox busy, firmware answers, the session is
served, no kept response has its number, and the header holds no error. -/
def Sys2Proof.Machine.State.hears (r : RopReq) (s : State) : Prop :=
  reaches r s = true ∧ answererDown s = false ∧ sourceServed r.sess s = true ∧ headerError r = 0 ∧
    (getSess r.sess s).kept.find? (fun k => k.requestId == r.requestId) = none

/-- R40, R46 to R48, R62: a handshake R46 supports opens the lowest free session as its chain's anchor says; another is refused and logged;
a session that closes, or stays idle too long, is closed and logged, the OPEN shadows it owned are discarded; an unlock ends. R50 to R56:
a new request is answered once and its response kept; a repeated one gets the kept response and has no effect; an operation that is not
known is answered with E-0x03; a READ of one number answers its value; a response that arrives is discarded. -/
def Obligations.RopSessionsAndReading : Prop :=
  (∀ (h : Handshake) (s : State), sourceServed 0 s = true → mgtUp s = true → h.dstPort = getN O.ROP_UDP_PORT s →
    (∀ n, freeSession s = some n → handshakeOk h s = true →
      ∃ t, exec (.dtlsHandshake h) s = .next t ∧ (getSess n t).isOpen = true ∧ (getSess n t).admin = (h.anchor == 0) ∧
        s.logged t 0x0410 n ∧ t.sent = s.sent ++ [.dtlsAnswer (some n)]) ∧
    (handshakeOk h s = false → ∃ t, exec (.dtlsHandshake h) s = .next t ∧ (∀ n, (getSess n t).isOpen = (getSess n s).isOpen) ∧
      s.logged t 0x0412 (h.srcAddr % 2 ^ 64) ∧ t.sent = s.sent ++ [.dtlsAnswer none])) ∧
  (∀ (sess : Fin 8) (s : State), (getSess sess.val s).isOpen = true →
    ∃ t, exec (.dtlsClose sess) s = .next t ∧ exec (.ropIdleExpiry sess) s = .next t ∧ getSess sess.val t = Session.closed ∧
      s.logged t 0x0411 sess.val ∧ (∀ id ∈ cgIds, (getCg id t).cgState = 0 ∨ (getCg id t).owner ≠ sess.val) ∧
      t.dict.objs = s.dict.objs ∧ t.sent = s.sent) ∧
  (∀ (sess : Fin 73) (s : State),
    exec (.unlockExpiry sess) s = .next (setSess sess.val { getSess sess.val s with unlocked := false } s)) ∧
  (∀ (r : RopReq) (s : State), s.hears r →
    (∀ op, op % 128 = 0 ∨ 4 < op % 128 → ∃ t, exec (.ropOpNotKnown op r) s = .next t ∧ t.dict.objs = s.dict.objs ∧
      t.dict.groups = s.dict.groups ∧ .ropResponse r.sess ⟨op % 128 + 128, 3, r.requestId, []⟩ ∈ t.sent) ∧
    (∀ (i : RopItem) (d : ObjDesc), r.items = [i] → i.length = 0 → i.offset = false → eventLogItem i = false →
      readCheck r.sess i.index i.sub s = .ok d → d.ty ≠ .str → d.ty ≠ .blob →
      ∃ t, exec (.read r) s = .next t ∧ t.dict.objs = s.dict.objs ∧ t.dict.groups = s.dict.groups ∧
        .ropResponse r.sess ⟨129, 0, r.requestId, [⟨i.index, i.sub, d.ty.code, false, false, 0,
          d.encode (sessBe r.sess) (readVal r.sess i.index i.sub r.shadow d s)⟩]⟩ ∈ t.sent ∧
        (getSess r.sess t).kept.head?.map (·.requestId) = some r.requestId)) ∧
  (∀ (r : RopReq) (s : State) (k : RopResp), reaches r s = true → answererDown s = false →
    (getSess r.sess s).kept.find? (fun k => k.requestId == r.requestId) = some k →
    ∃ t, exec (.write r) s = .next t ∧ exec (.read r) s = .next t ∧ exec (.commit r) s = .next t ∧ exec (.abort r) s = .next t ∧
      exec (.subscribe r) s = .next t ∧ t.dict = s.dict ∧ .ropResponse r.sess k ∈ t.sent) ∧
  (∀ (r : RopReq) (s : State), exec (.ropResponseIn r) s = .next s)

/-- R57, R62: a WRITE any of whose items fails its checks takes no effect, and each item answers its own error; a WRITE of a member of a
CLEAN commit group opens the group for the session: the shadow takes the value, the live values stand. -/
def Obligations.RopWriting : Prop :=
  ∀ (r : RopReq) (s : State), s.hears r → observer r.sess s = false →
    let cs := checkItems r.sess (afterWrite r s) s r.items (getSess r.sess s).staging
    ((cs.any fun c => c.err != 0) = true →
      ∃ t is, exec (.write r) s = .next t ∧ is = (r.items.zip cs).map (fun p => plainItem p.1 p.2.err) ∧
        .ropResponse r.sess ⟨130, firstStatus is, r.requestId, is⟩ ∈ t.sent ∧
        t.dict.objs = s.dict.objs ∧ t.dict.groups = s.dict.groups ∧ t.devState = s.devState ∧ t.comp = s.comp ∧ t.line = s.line) ∧
    (∀ (i : RopItem) (d : ObjDesc) (id : Nat), r.items = [i] → i.offset = false → findDesc i.index i.sub = some d → i.sub < 256 →
      let key := objKey i.index i.sub
      let v := itemVal (sessBe r.sess) d i.value
      groupOfKey key = id → id ≠ 0 → (getCg id s).cgState = 0 → s.quiet →
      stdCheck r.sess i.index i.sub i.type i.length v s = 0 → memberCheck key v s = 0 →
      ∃ t, exec (.write r) s = .next t ∧ .ropResponse r.sess ⟨130, 0, r.requestId, [plainItem i 0]⟩ ∈ t.sent ∧
        (getCg id t).cgState = 1 ∧ (getCg id t).owner = r.sess ∧ shadowVal (getCg id t) key t = dropReserved key v ∧
        (∀ k, k ≠ key → shadowVal (getCg id t) k t = getObj k s) ∧ t.dict.objs = s.dict.objs ∧
        ∀ j, j ≠ id → getCg j t = getCg j s)

/-- R62, R64, R65, R67: COMMIT by its owner of an OPEN group that keeps its rules arms it and answers its status, or applies it where its
boundary has come; with a rule broken it stays OPEN and the rule is logged; ABORT makes it CLEAN; a lease that ends discards an OPEN shadow;
in READY every boundary comes at arming; once the boundary of an ARMED group has come, every member takes its value and the group is CLEAN
with the next ticket. -/
def Obligations.CommitGroups : Prop :=
  (∀ (r : RopReq) (i : RopItem) (s : State), s.hears r → observer r.sess s = false → r.items = [i] →
    let id := i.sub
    let g := getCg id s
    (commitError r.sess i.index id false s = 0 → g.stale = [] →
      let v := cgRule id (fun k => shadowVal g k s) s
      (v.1 = 0 → boundaryCome id (setCg id { g with cgState := 2 } s) = false → cgBoundary id ≠ 1 → s.quiet →
        ∃ t, exec (.commit r) s = .next t ∧ getCg id t = { g with cgState := 2 } ∧ t.dict.objs = s.dict.objs ∧
          .ropResponse r.sess ⟨131, 0, r.requestId, [⟨i.index, id, ObjType.u32.code, false, false, 0,
            bytesOrd (sessBe r.sess) 4 (g.ticket * 2 ^ 16 + 2 * 2 ^ 12 + g.outcome * 2 ^ 8 + g.lastError)⟩]⟩ ∈ t.sent) ∧
      (v.1 = 0 → boundaryCome id (setCg id { g with cgState := 2 } s) = true → (g.shadow.map (·.1)).Nodup →
        ∃ u w, w = settle (cgEffect id (setCg id { g with cgState := 2 } s) u) ∧
          exec (.commit r) s = .next (respond r.sess true ⟨131, 0, r.requestId, [⟨i.index, id, ObjType.u32.code, false, false, 0,
            bytesOrd (sessBe r.sess) 4 (cgStatus id w)⟩]⟩ w) ∧
          (getCg id u).cgState = 0 ∧ (getCg id u).ticket = (g.ticket + 1) % 65536 ∧ ∀ p ∈ g.shadow, getObj p.1 u = p.2) ∧
      (v.1 ≠ 0 → ∃ t, exec (.commit r) s = .next t ∧ (getCg id t).cgState = g.cgState ∧ (getCg id t).shadow = g.shadow ∧
        (getCg id t).outcome = 2 ∧ (getCg id t).lastError = 0x21 ∧ (getCg id t).ruleId = v.1 ∧ s.logged t 0x0402 v.1 ∧
        t.dict.objs = s.dict.objs)) ∧
    (commitError r.sess i.index id true s = 0 → s.quiet → g.loaded = false → ∃ t, exec (.abort r) s = .next t ∧ (getCg id t).cgState = 0 ∧
      (getCg id t).outcome = 3 ∧ (getCg id t).ticket = g.ticket ∧ s.logged t 0x0403 id ∧ t.dict.objs = s.dict.objs)) ∧
  (∀ (id : Nat) (s : State), s.devState = .ready → boundaryCome id s = true) ∧
  (∀ (id : Fin 255) (s : State), let g := getCg id.val s
    (g.cgState = 1 → ∃ t, exec (.cgLeaseExpiry id) s = .next t ∧ (getCg id.val t).cgState = 0 ∧ (getCg id.val t).outcome = 3 ∧
      s.logged t 0x0403 id.val ∧ t.dict.objs = s.dict.objs) ∧
    (g.cgState = 2 → exec (.cgLeaseExpiry id) s = .next (setCg id.val { g with owner := 0xFF } s)) ∧
    ∀ part : Fin 8, g.cgState = 2 → g.loaded = false → boundaryCome id.val s = true → (g.shadow.map (·.1)).Nodup →
      ∃ u, exec (.cgApply id part) s = .next (settle (cgEffect id.val s u)) ∧ (getCg id.val u).cgState = 0 ∧
        (getCg id.val u).outcome = 1 ∧ (getCg id.val u).ticket = (g.ticket + 1) % 65536 ∧
        s.logged u 0x0401 ((g.ticket + 1) % 65536) ∧ (∀ p ∈ g.shadow, getObj p.1 u = p.2) ∧
        ∀ k, (∀ p ∈ g.shadow, p.1 ≠ k) → getObj k u = getObj k s)

/-- R59, R60: SUBSCRIBE of a readable object in a mode and at an interval allowed enters the subscription; a period that ends queues the
object's value; a NOTIFY carries the oldest waiting notifications, numbered one after the last, and takes them from the queue. -/
def Obligations.SubscriptionsAndNotify : Prop :=
  (∀ (r : RopReq) (i : RopItem) (d : ObjDesc) (b : Subscr) (s : State), s.hears r → r.items = [i] → i.index ≠ 0 →
    readCheck r.sess i.index i.sub s = .ok d → i.type = ObjType.blob.code → i.value.length = 8 → s.devState = .ready →
    subOf (sessBe r.sess) i.index i.sub i.value = some b → (getSess r.sess s).subs.length < 64 → subsTotal s < 512 →
    (∀ c ∈ (getSess r.sess s).subs, c.idx ≠ i.index ∨ c.sub ≠ i.sub) →
    ∃ t v, exec (.subscribe r) s = .next t ∧ (getSess r.sess t).subs = (getSess r.sess s).subs ++ [{ b with lastSent := some v }] ∧
      .ropResponse r.sess ⟨132, 0, r.requestId, [plainItem i 0]⟩ ∈ t.sent ∧ t.dict.objs = s.dict.objs) ∧
  (∀ (sess : Fin 73) (k : Nat) (b : Subscr) (v : ObjVal) (s : State), (getSess sess.val s).subs[k]? = some b → b.mode = 2 →
    answererDown s = false → subVal sess.val b s = some v → (getSess sess.val s).queue.length < 256 →
    ∃ t, exec (.subscriptionTimer sess k) s = .next t ∧
      (getSess sess.val t).queue = (getSess sess.val s).queue ++ [.value b.idx b.sub v] ∧ t.sent = s.sent ∧
      t.dict.objs = s.dict.objs) ∧
  (∀ (sess : Fin 73) (s : State), let x := getSess sess.val s
    mayNotify sess.val s = true → x.queue ≠ [] → x.overflow = false → (∀ b ∈ x.subs, b.mode ≠ 1) →
    ∃ t k, exec (.notify sess) s = .next t ∧ 1 ≤ k ∧ k ≤ 32 ∧ (getSess sess.val t).queue = x.queue.drop k ∧
      (getSess sess.val t).notifySeq = (x.notifySeq + 1) % 2 ^ 32 ∧ t.dict.objs = s.dict.objs ∧
      .ropNotify sess.val ((x.notifySeq + 1) % 2 ^ 32) false 0 ((x.queue.take k).map (clipNotif (msgLimit sess.val - 16))) ∈ t.sent)

/-- R41 to R43: CFG_SAVE in READY, with no save running and fewer than 100,000 before, starts writing the copy that is not the newest, with
the live values of every object flagged to persist; at 100,000 saves it is rejected with E-0x31; the erase code starts an erasure; a save
that is whole makes that copy the newest and valid, and is counted and logged. -/
def Obligations.ConfigurationSave : Prop :=
  (∀ (sess : Fin 73) (s : State), s.devState = .ready → s.dict.cfgBusy = 0 →
    (ownCheck sess.val O.CFG_SAVE (.num 0x53415645) s = 0 → getN O.CFG_SAVE_COUNT s < 100000 →
      ∃ t, exec (.cfgSave sess) s = .next t ∧ t.dict.cfgBusy = 1 ∧
        (if s.dict.cfgNewest = 0 then t.dict.cfgA = s.dict.cfgA ∧ t.dict.cfgB.valid = false ∧ t.dict.cfgB.saved = cfgSnapshot s
          else t.dict.cfgB = s.dict.cfgB ∧ t.dict.cfgA.valid = false ∧ t.dict.cfgA.saved = cfgSnapshot s) ∧
        t.sent = s.sent ++ [.writeAnswer sess.val O.CFG_SAVE 0] ∧ { t with dict := s.dict, sent := s.sent } = s) ∧
    (ownCheck sess.val O.CFG_SAVE (.num 0x53415645) s = 0 → 100000 ≤ getN O.CFG_SAVE_COUNT s →
      exec (.cfgSave sess) s = .next (emit (.writeAnswer sess.val O.CFG_SAVE 0x31) s)) ∧
    (ownCheck sess.val O.CFG_SAVE (.num 0x45524153) s = 0 →
      ∃ t, exec (.cfgErase sess) s = .next t ∧ t.dict.cfgBusy = 2 ∧ t.dict.objs = s.dict.objs ∧
        t.sent = s.sent ++ [.writeAnswer sess.val O.CFG_SAVE 0] ∧ { t with dict := s.dict, sent := s.sent } = s)) ∧
  (∀ s : State,
    (s.dict.cfgBusy = 1 → ∃ t, exec .cfgWriteDone s = .next t ∧ t.dict.cfgBusy = 0 ∧ t.dict.cfgNewest = 1 - s.dict.cfgNewest ∧
      (s.dict.cfgNewest = 0 → t.dict.cfgB = { s.dict.cfgB with valid := true } ∧ t.dict.cfgA = s.dict.cfgA) ∧
      (s.dict.cfgNewest = 1 → t.dict.cfgA = { s.dict.cfgA with valid := true } ∧ t.dict.cfgB = s.dict.cfgB) ∧
      getN O.CFG_SAVE_COUNT t = (getN O.CFG_SAVE_COUNT s + 1) % 2 ^ objBits O.CFG_SAVE_COUNT ∧
      s.logged t 0x0420 (getN O.CFG_SAVE_COUNT t)) ∧
    (s.dict.cfgBusy = 2 → ∃ t, exec .cfgWriteDone s = .next t ∧ t.dict.cfgBusy = 0 ∧ t.dict.cfgA.saved = [] ∧ t.dict.cfgB.saved = [] ∧
      t.dict.objs = s.dict.objs))
/-! ### Collective groups and collectives. After each of these commands `settle` carries every collective on as far as it goes; the
statements give the state before it does. -/

/-- R79 to R83: with commit group 0x40 armed for it and its boundary come, OPEN makes the target OPENING with epoch 0, or OPEN at once where
this gateway only relays or is a spare that serves no place; MODIFY changes the relay map and the wait and timeout values and no other field
of the descriptor; CLOSE ends every collective and closes the group. A HELLO whose digests agree makes its sender present and the group OPEN
once all are; one that does not fails it. -/
def Obligations.GroupLifecycle : Prop :=
  (∀ s : State, let g := cgShadowN 0x40 O.GD_TARGET s
    (getCg 0x40 s).cgState = 2 → boundaryCome 0x40 s = true → ((getCg 0x40 s).shadow.map (·.1)).Nodup →
    (cgShadowN 0x40 O.GD_ACTION s = 1 → ∃ u, exec .groupOpen s = .next (settle u) ∧ (getCg 0x40 u).cgState = 0 ∧
      (getGroup g u).members = cgShadowN 0x40 O.GD_MEMBERS s ∧ (getGroup g u).tenant = cgShadowN 0x40 O.GD_TENANT s ∧
      (getGroup g u).epoch = 0 ∧ (getGroup g u).chunk = cgShadowN 0x40 O.GD_CHUNK s ∧
      (getGroup g u).ring = ringOf (shadowVal (getCg 0x40 s) O.GD_RING s).toBytes ∧
      (getGroup g u).gstate = if relayOnly g u then 2 else 1) ∧
    (cgShadowN 0x40 O.GD_ACTION s = 2 → ∃ u, exec .groupModify s = .next (settle u) ∧ (getCg 0x40 u).cgState = 0 ∧
      (getGroup g u).relay = relayOf (shadowVal (getCg 0x40 s) O.GD_RELAY s).toBytes ∧
      (getGroup g u).waitMs = cgShadowN 0x40 O.GD_UNEXP_WAIT_MS s ∧ (getGroup g u).timeoutMs = cgShadowN 0x40 O.GD_TIMEOUT_MS s ∧
      (getGroup g u).chunkWaitMs = cgShadowN 0x40 O.GD_CHUNK_WAIT_MS s ∧
      (getGroup g u).members = (getGroup g s).members ∧ (getGroup g u).ring = (getGroup g s).ring ∧
      (getGroup g u).chunk = (getGroup g s).chunk ∧ (getGroup g u).crossover = (getGroup g s).crossover ∧
      (getGroup g u).dirs = (getGroup g s).dirs ∧ (getGroup g u).tenant = (getGroup g s).tenant ∧
      (getGroup g u).quotaMib = (getGroup g s).quotaMib) ∧
    (cgShadowN 0x40 O.GD_ACTION s = 3 → ∃ u, exec .groupClose s = .next (settle u) ∧ (getCg 0x40 u).cgState = 0 ∧
      getGroup g u = Group.closed0 ∧ ∀ seq ep c, findColl g seq ep u = some c → c.isFinal = true)) ∧
  (∀ (h : CtlHdr) (b : HelloBody) (s : State), let x := getGroup h.group s
    x.isOpen = true → relayOnly h.group s = false → h.epoch = x.epoch → bitOf x.members h.src = true →
    (b.descDigest = descDigest h.group x → b.rangeDigest = rangeDigest s →
      ∃ u, exec (.hello h b) s = .next (settle u) ∧ (getGroup h.group u).present = setBit x.present h.src ∧
        (getGroup h.group u).gstate = if x.members &&& setBit x.present h.src = x.members then 2 else x.gstate) ∧
    (b.descDigest ≠ descDigest h.group x → ∃ u, exec (.hello h b) s = .next (settle u) ∧ (getGroup h.group u).gstate = 3 ∧
      s.logged u 0x4017 h.src)) ∧
  (∀ (g : Fin 1024) (s : State), let x := getGroup g.val s
    x.isOpen = true → relayOnly g.val s = false → helloHeld g.val s = false →
    ∃ t, exec (.helloRetry g) s = .next t ∧ t.coll.groups = s.coll.groups ∧
      t = ((x.others (selfSite s)).filter fun d => !bitOf x.helloFrom d).foldl (fun u d => sendCtl (helloMsg g.val d false u) u) s)

/-- A posting of `n` collectives that R84 to R89 accept for operation `op`. -/
def Sys2Proof.Machine.State.takesPosting (op n : Nat) (p : Posting) (src : JobSrc) (s : State) : Prop :=
  mayConsume 0 src s = true ∧ takesNoWork s = false ∧ p.group < 1024 ∧ (getGroup p.group s).isOpen = true ∧
  relayOnly p.group s = false ∧ (fromVf src = true → (getGroup p.group s).tenant = srcTenant src s) ∧
  armedAction p.group s ≠ some 3 ∧ badParam op p src s = false ∧
  (∃ g, findProgram p.program s = some g ∧ bitOf g.tenantMask (getGroup p.group s).tenant = true) ∧
  (openColls p.group s).length + n ≤ 16 ∧ collOpenCount s + n ≤ 4096 ∧
  (∀ m, (getGroup p.group s).maxSeq = some m → m < p.seq) ∧ ∀ k < n, seqTaken p.group (p.seq + k) s = false

/-- R84 to R89: an accepted posting enters its collectives: one, or for an all-reduce a reduce-scatter and an all-gather of the next
number; its status byte 1 is written and the ring's head advances. A cancel ends a collective that has not sent its CONFIRM. -/
def Obligations.CollectivePosting : Prop :=
  (∀ (p : Posting) (src : JobSrc) (s : State), let taken (u : State) := settle (entryTaken src 1 u)
    (s.takesPosting 1 1 p src → ∃ u, exec (.postReduceScatter p src) s = .next (taken u) ∧
      (getGroup p.group u).maxSeq = some p.seq ∧ ∃ c ∈ u.coll.colls, c.group = p.group ∧ c.seq = p.seq ∧ c.op = 1 ∧ c.src = src) ∧
    (s.takesPosting 2 1 p src → ∃ u, exec (.postAllGather p src) s = .next (taken u) ∧
      (getGroup p.group u).maxSeq = some p.seq ∧ ∃ c ∈ u.coll.colls, c.group = p.group ∧ c.seq = p.seq ∧ c.op = 2 ∧ c.src = src) ∧
    (s.takesPosting 3 2 p src → ∃ u, exec (.postAllReduce p src) s = .next (taken u) ∧
      (getGroup p.group u).maxSeq = some (p.seq + 1) ∧
      (∃ c ∈ u.coll.colls, c.group = p.group ∧ c.seq = p.seq ∧ c.op = 1 ∧ c.allReduce = true) ∧
      ∃ c ∈ u.coll.colls, c.group = p.group ∧ c.seq = p.seq + 1 ∧ c.op = 2 ∧ c.allReduce = true) ∧
    (∀ (c : Coll) (m : Nat), mayConsume 0 src s = true → takesNoWork s = false → (getGroup p.group s).isOpen = true →
      relayOnly p.group s = false → (fromVf src = true → (getGroup p.group s).tenant = srcTenant src s) →
      (getGroup p.group s).maxSeq = some m → p.seq ≤ m →
      findColl p.group p.seq (getGroup p.group s).epoch s = some c → (c.cstate = .posted ∨ c.cstate = .active) →
      ∃ u d, exec (.postCancel p src) s = .next (taken u) ∧
        findColl p.group p.seq (getGroup p.group s).epoch u = some d ∧ d.cstate = .cancelled ∧ d.cause = 4)) ∧
  (∀ (src : JobSrc) (st : Nat) (u : State), src.fn ≠ fnSequencer →
    (getRing (ringKey src.fn src.ring) (entryTaken src st u)).subHead = (src.entry + 1) % (getRing (ringKey src.fn src.ring) u).size ∧
    (entryTaken src st u).sent =
      u.sent ++ [.hostWrite src.fn ((getRing (ringKey src.fn src.ring) u).statusBase + src.entry) [BitVec.ofNat 8 st]])

/-- R97 to R106: a placed collective of a group that is OPEN with every member present becomes ACTIVE; a chunk this member holds is sent
again to a member that asks; a chunk that waits, or a collective that lasts, too long fails it and is logged; the last CONFIRM that
agrees confirms it, one that does not fails it; CANCEL and END_STATUS end it; a held arrival that waits too long is recorded. -/
def Obligations.CollectiveProgress : Prop :=
  (∀ (g : Fin 1024) (seq : Nat) (s : State) (c : Coll), let x := getGroup g.val s
    findColl g.val seq x.epoch s = some c →
    (c.cstate = .posted → c.placement.isSome → x.gstate = 2 → x.allPresent = true → armedAction g.val s = none →
      ∃ u, exec (.collActivate g seq) s = .next (settle u) ∧ findColl g.val seq x.epoch u = some { c with cstate := .active } ∧
        (syncResidual c s = false → { u with coll := s.coll } = s)) ∧
    (∀ k i, c.cstate = .active → i ∈ c.expected x (selfSite s) → i.1 = k → (c.item i.1 i.2).complete = false →
      (c.item i.1 i.2).begun = true → ∃ u d, exec (.chunkWaitExpiry g seq k) s = .next (settle u) ∧
        findColl g.val seq x.epoch u = some d ∧ d.cstate = .failed ∧ d.cause = 2 ∧ s.logged u 0x4013 k) ∧
    ((c.cstate = .posted ∨ c.cstate = .active) → ∃ u d, exec (.collTimeout g seq) s = .next (settle u) ∧
      findColl g.val seq x.epoch u = some d ∧ d.cstate = .failed ∧ d.cause = 1 ∧
      s.logged u 0x4014 (g.val * 2 ^ 48 + seq * 2 ^ 16)) ∧
    (c.cstate = .localDone → exec (.confirmResend g seq) s = .next
      (sendEach ((x.others (selfSite s)).filter fun d => !(c.confirms.any fun p => p.1 == d)) (fun d => confirmMsg c d s) s))) ∧
  (∀ (h : CtlHdr) (s : State) (c : Coll), arrivalClass h.group h.seq h.epoch s = .process →
    bitOf (getGroup h.group s).members h.src = true → findColl h.group h.seq h.epoch s = some c →
    (∀ k attempt bs v, keptChunk h.group h.seq h.epoch k s = [] → heldChunk c k s = some (bs, v) →
      exec (.chunkReq h k attempt) s = .next (settle (sendChunk c k v bs [h.src] s))) ∧
    (∀ b, c.cstate = .active → ∃ u, exec (.confirm h b) s = .next (settle u) ∧ findColl h.group h.seq h.epoch u =
      some { c with confirms := c.confirms.filter (fun p => p.1 != h.src) ++ [(h.src, b)] } ∧ { u with coll := s.coll } = s) ∧
    (∀ b, c.cstate = .localDone → c.differs b = false → (∀ p ∈ c.confirms, p.1 ≠ h.src → c.differs p.2 = false) →
      (∀ d ∈ (getGroup h.group s).others (selfSite s), d = h.src ∨ ∃ p ∈ c.confirms, p.1 = d) →
      ∃ u d, exec (.confirm h b) s = .next (settle u) ∧ findColl h.group h.seq h.epoch u = some d ∧ d.cstate = .confirmed) ∧
    (∀ b, c.cstate = .localDone → c.differs b = true → h.src ∈ (getGroup h.group s).others (selfSite s) →
      ∃ u d, exec (.confirm h b) s = .next (settle u) ∧ findColl h.group h.seq h.epoch u = some d ∧ d.cstate = .failed ∧ d.cause = 3) ∧
    ((c.cstate = .posted ∨ c.cstate = .active) → ∃ u d, exec (.cancel h) s = .next (settle u) ∧
      findColl h.group h.seq h.epoch u = some d ∧ d.cstate = .cancelled ∧ d.cause = 4) ∧
    (∀ cause, ∃ u d, exec (.endStatus h 1 cause) s = .next (settle u) ∧ findColl h.group h.seq h.epoch u = some d ∧
      d.cstate = .failed ∧ d.cause = cause)) ∧
  (∀ (g : Fin 1024) (seq : Nat) (s : State), let ep := (getGroup g.val s).epoch
    (∃ h ∈ s.coll.held ++ s.coll.backlog, h.group = g.val ∧ h.seq = seq ∧ h.epoch = ep) → s.coll.stalledPairs.contains (g.val, seq, ep) = false →
    ∃ t, exec (.unexpWaitExpiry g seq) s = .next t ∧ (g.val, seq, ep) ∈ t.coll.stalledPairs ∧ t.coll.held = s.coll.held ∧
      t.coll.backlog = s.coll.backlog ∧
      getN O.STALL_PAIR_A t = g.val * 2 ^ 48 + seq * 2 ^ 16 + ep ∧ ∃ arg, s.logged t 0x4010 arg)

/-- R110 to R112: an EPOCH_ADV of a member to a later epoch is adopted: the group takes the epoch, no number has been posted in it, and its
resolution is open; an EPOCH_ACK for that epoch is recorded with it; after the wait the collectives of earlier epochs are final and the
resolution is closed and logged. -/
def Obligations.PlacementEpochs : Prop :=
  (∀ (h : CtlHdr) (ch : EpochChange) (s : State), let x := getGroup h.group s
    x.isOpen = true → relayOnly h.group s = false → bitOf x.members h.src = true → x.awaitAdv = false →
    0 < epochDiff ch.newEpoch x.epoch →
    ∃ u r, exec (.epochAdv h ch) s = .next (settle (tryResolve h.group u)) ∧ (getGroup h.group u).epoch = ch.newEpoch ∧
      (getGroup h.group u).maxSeq = none ∧ (getGroup h.group u).resolution = some r ∧ r.newEpoch = ch.newEpoch ∧ r.kind = ch.kind ∧
      r.announcer = h.src ∧ (getGroup h.group u).members = x.members ∧
      ((∀ a ∈ s.coll.held ++ s.coll.backlog, a.group = h.group → a.epoch ≠ ch.newEpoch) → u.coll.colls = s.coll.colls) ∧
      ∀ a ∈ u.coll.held ++ u.coll.backlog, a.group = h.group → 0 ≤ epochDiff a.epoch ch.newEpoch) ∧
  (∀ (h : CtlHdr) (n : Nat) (es : List (Nat × Nat)) (s : State) (r : Resolution), let x := getGroup h.group s
    x.isOpen = true → relayOnly h.group s = false → bitOf x.members h.src = true → x.resolution = some r → r.newEpoch = n →
    ∃ u, exec (.epochAck h n es) s = .next (settle (tryResolve h.group u)) ∧ (getGroup h.group u).resolution =
      some { r with acks := r.acks.filter (fun a => a.1 != h.src) ++ [(h.src, es)] } ∧ { u with coll := s.coll } = s) ∧
  (∀ (g : Fin 1024) (s : State) (r : Resolution), let x := getGroup g.val s
    x.resolution = some r → x.ownChange = none →
    ∃ u, exec (.epochResolveTimeout g) s = .next (settle u) ∧ (getGroup g.val u).resolution = none ∧
      (getGroup g.val u).epoch = x.epoch ∧ s.logged u 0x4016 r.newEpoch ∧
      (∀ seq ep c, ep ≠ x.epoch → findColl g.val seq ep u = some c → c.isFinal = true) ∧
      ∀ seq c, findColl g.val seq x.epoch s = some c → findColl g.val seq x.epoch u = some c)
/-! ### The outer step -/

/-- A door on the bound queue pair while the outer step is in mode ASYNC. -/
def Sys2Proof.Machine.State.doorOpen (d : Door) (s : State) : Prop := doorQp d.qp s = true ∧ getN O.OS_MODE s = 1

/-- No HBM error has taken a page of the shard or of the committed record (R141). -/
def Sys2Proof.Machine.State.undamaged (s : State) : Prop := s.os.damaged = [] ∧ s.os.recDamaged = []

/-- R126, R127, R130, Table 4.8: the first WEIGHTS_DONE for the expected step and attempt starts the step and announces its entry, which is
formed unless a damaged page keeps it waiting; a later one announces its own entry once; one for another step or attempt, for an entry
already announced, in state HALTED, with no entry of its number or in mode SYNC is refused and logged, as is every kind that is not
listed; with the outer step off a door has no effect. -/
def Obligations.WeightsDoors : Prop :=
  (∀ (d : Door) (s : State), s.doorOpen d → let n := doorTensor d
    let refused := exec (.weightsDone d) s = .next (logEvent 0x4809 (2 ^ 28 + d.imm.toNat) s)
    (doorEntryOk d s = false → refused) ∧
    (doorEntryOk d s = true →
      (getN O.OS_STEP_STATE s = 0 →
        (doorStep d = (getN O.OS_COMMITTED_STEP s + 1) % 16384 → doorAttempt d = getN O.OS_ATTEMPT s →
          ∃ u, exec (.weightsDone d) s = .next (settle u) ∧ getN O.OS_STEP_STATE u = 1 ∧
            getN O.OS_CUR_STEP u = getN O.OS_COMMITTED_STEP s + 1 ∧ announced n u = true ∧ u.os.parts = [] ∧
            (s.undamaged → u.os.formed.map (·.1) = [n])) ∧
        (doorStep d ≠ (getN O.OS_COMMITTED_STEP s + 1) % 16384 ∨ doorAttempt d ≠ getN O.OS_ATTEMPT s → refused)) ∧
      (getN O.OS_STEP_STATE s = 1 →
        (doorStep d = getN O.OS_CUR_STEP s % 16384 → doorAttempt d = getN O.OS_ATTEMPT s → announced n s = false →
          ∃ u, exec (.weightsDone d) s = .next (settle u) ∧ getN O.OS_STEP_STATE u = 1 ∧ announced n u = true ∧ u.os.parts = s.os.parts ∧
            (s.undamaged → u.os.formed.map (·.1) = s.os.formed.map (·.1) ++ [n])) ∧
        (doorStep d ≠ getN O.OS_CUR_STEP s % 16384 ∨ doorAttempt d ≠ getN O.OS_ATTEMPT s ∨ announced n s = true → refused)) ∧
      (getN O.OS_STEP_STATE s = 2 → refused))) ∧
  (∀ (kind : Fin 16) (d : Door) (s : State), doorQp d.qp s = true →
    (getN O.OS_MODE s ≠ 0 → exec (.doorKindRejected kind d) s = .next (logEvent 0x4809 (kind.val * 2 ^ 28 + d.imm.toNat) s)) ∧
    (getN O.OS_MODE s = 0 → exec (.doorKindRejected kind d) s = .next s ∧ exec (.weightsDone d) s = .next s) ∧
    (getN O.OS_MODE s = 2 → exec (.weightsDone d) s = .next (logEvent 0x4809 (2 ^ 28 + d.imm.toNat) s)))

/-- R134 to R138: where state may be loaded, LOAD_ANCHOR and LOAD_MOMENTUM fill an entry from the window, elsewhere they are refused;
LOAD_COMMIT makes the loaded step the committed one with its fingerprints; the READ doors write one entry to the return buffer on a window
data queue pair, and OUTCOME_QUERY the last record; each of these doors is refused in mode SYNC. ABANDON cancels what can be cancelled,
and decides the step RETRY, or FAILED at the attempt limit, if a part could be. -/
def Obligations.LoadAndReadDoors : Prop :=
  (∀ (d : Door) (s : State) (e : OsEntry), s.doorOpen d → doorAttempt d = 0 → doorStep d = 0 → (osEntries s)[doorTensor d]? = some e →
    (mayLoad s = true →
      (∃ t, exec (.loadAnchor d) s = .next t ∧ memRead (4 * e.offset) (4 * e.size) t.os.anchor = windowBytes e s) ∧
      ∃ t, exec (.loadMomentum d) s = .next t ∧ memRead (4 * e.offset) (4 * e.size) t.os.mom = windowBytes e s ∧
        ∀ p ∈ pagesOf (doorTensor d) s, p ∈ t.os.momLoaded) ∧
    (mayLoad s = false → exec (.loadAnchor d) s = .next (logEvent 0x4809 (2 * 2 ^ 28 + d.imm.toNat) s) ∧
      exec (.loadMomentum d) s = .next (logEvent 0x4809 (3 * 2 ^ 28 + d.imm.toNat) s)) ∧
    (pendingPages s = [] → s.os.damaged = [] → let place := elemBytes (getN O.OS_SITE_FMT s) * e.offset
      (∀ q, returnQp (doorTensor d) s = some q →
        exec (.anchorRead d) s = .next (qpSend q (.returnWrite q place (siteBytes s (f32Run s.os.anchor e.offset e.size))) s) ∧
        exec (.momentumRead d) s = .next (qpSend q (.returnWrite q place (siteBytes s (f32Run s.os.mom e.offset e.size))) s)) ∧
      (returnQp (doorTensor d) s = none → exec (.anchorRead d) s = .next s ∧ exec (.momentumRead d) s = .next s))) ∧
  (∀ (d : Door) (s : State), doorQp d.qp s = true → getN O.OS_MODE s = 2 →
    let refused (kind : Nat) : Host.Outcome State Fault Refusal := .next (logEvent 0x4809 (kind * 2 ^ 28 + d.imm.toNat) s)
    exec (.loadAnchor d) s = refused 2 ∧ exec (.loadMomentum d) s = refused 3 ∧ exec (.outcomeQuery d) s = refused 4 ∧
      exec (.anchorRead d) s = refused 5 ∧ exec (.momentumRead d) s = refused 6) ∧
  (∀ (d : Door) (s : State) (o : Outcome), s.doorOpen d → d.imm = 0 → s.os.decided = some o →
    exec (.outcomeQuery d) s = .next (emitOutcome o s)) ∧
  (∀ (sess : Fin 73) (s : State), ownCheck sess.val O.OS_CMD (.num 2) s = 0 → mayLoad s = true →
    ∃ t, exec (.loadCommit sess) s = .next t ∧ getN O.OS_COMMITTED_STEP t = getN O.OS_LOAD_STEP s ∧ getN O.OS_STEP_STATE t = 0 ∧
      getN O.OS_ATTEMPT t = 0 ∧ getN O.OS_ANCHOR_FP t = crc64 (memRead 0 (4 * osParams s) t.os.anchor) ∧
      getN O.OS_MOMENTUM_FP t = crc64 (memRead 0 (4 * osParams s) t.os.mom) ∧ t.os.slotEmpty = true ∧ t.os.momLoaded = [] ∧
      t.undamaged ∧ pendingPages t = [] ∧ .writeAnswer sess.val O.OS_CMD 0 ∈ t.sent) ∧
  (∀ (sess : Fin 73) (s : State), ownCheck sess.val O.OS_CMD (.num 1) s = 0 → getN O.OS_STEP_STATE s = 1 →
    ∃ u, exec (.abandon sess) s = .next (emit (.writeAnswer sess.val O.OS_CMD 0) (settle u)) ∧
      (∀ p ∈ s.os.parts, ∀ c, findColl (osGroup s) p.seq (getGroup (osGroup s) s).epoch u = some c →
        c.cstate ≠ .posted ∧ c.cstate ≠ .active) ∧
      ((∃ k ∈ stepParts s, partCancellable k s = true) →
        if getN O.OS_ATTEMPT s + 1 < getN O.OS_ATTEMPT_LIMIT s then
          getN O.OS_STEP_STATE u = 0 ∧ getN O.OS_ATTEMPT u = getN O.OS_ATTEMPT s + 1
        else getN O.OS_STEP_STATE u = 2))

/-- R121, R133 to R135: the sweep rolls the first pending page forward by the arithmetic of the step, into a free page pair that its entry
then names with the committed step; the next anchor of an entry goes to the return buffer once it is known; the outcome record is written
once its step is decided and, of a COMMITTED one, all has landed. -/
def Obligations.SweepAndReturn : Prop :=
  (∀ (s : State) (p n first : Nat) (rest : List Nat) (e : OsEntry), s.undamaged → pendingPages s = p :: rest →
    (osPages (osEntries s))[p]? = some (n, first) → (osEntries s)[n]? = some e →
    ∃ u, exec .sweepPage s = .next (settle u) ∧ pendingPages u = rest ∧ getN O.OS_SWEEP_PENDING u = rest.length ∧
      (∀ f r x, s.os.freePairs = f :: r → pageEntry p s = some x →
        pageEntry p u = some ⟨f, getN O.OS_COMMITTED_STEP s⟩ ∧ u.os.freePairs = r ++ [x.pair]) ∧
      ∀ k, k < 262144 → first + k < e.size →
        let i := e.offset + first + k
        let v := nesterov s.os.etaC s.os.betaC (f32At s.os.anchor i) (f32At s.os.mom i)
          (gAt (osEntries s) n e (s.os.slotOf s.os.slot) (first + k))
        memRead (4 * i) 4 u.os.anchor = bytesLE 4 v.1 ∧ memRead (4 * i) 4 u.os.mom = bytesLE 4 v.2) ∧
  (∀ (n : Fin 4096) (s : State) (e : OsEntry) (q : Nat), (osEntries s)[n.val]? = some e → returnQp n.val s = some q →
    s.os.returned.contains n.val = false → entryHeld n.val s = false →
    getN O.OS_STEP_STATE s = 1 → (if e.lr then s.os.qDone else s.os.pDone) = true →
    ∃ t, exec (.nextAnchorReturn n) s = .next t ∧
      t.os = { s.os with returned := s.os.returned ++ [n.val], retWaits := s.os.retWaits.filter (· != q) ++ [q] } ∧
      { t with os := s.os } = qpSend q (.returnWrite q (elemBytes (getN O.OS_SITE_FMT s) * e.offset)
        (siteBytes s (nextAnchor (osEntries s) n.val e s))) s) ∧
  (∀ (s : State) (o : Outcome), s.os.decided = some o → s.os.recordDue = true →
    (o.outcome = 1 → s.os.retWaits = [] ∧ ∀ n < (osEntries s).length, s.os.returned.contains n = true) →
    exec .outcomeRecord s = .next (emitOutcome o { s with os := { s.os with recordDue := false } }))

/-- R140, R141, R236: a source serves its share of the pages and the committed record as a state transfer; sources that agree let the
refill go on, ones that do not are asked again, and in time halt the step; pages that land are counted, and a refill whose fingerprints
are those of the source is committed, another begins again in HALTED; an uncorrectable HBM error poisons a word, loses handles of a ring,
has a page asked for, which is whole again as it lands, or zeroes a residual page, and is logged. -/
def Obligations.RefillAndHbmErrors : Prop :=
  (∀ (site : Fin 32) (k i : Nat) (s : State), let x := getGroup (osGroup s) s
    x.isOpen = true → x.resolution = none → i < k → bitOf x.members site.val = true → pendingPages s = [] → s.undamaged →
    ∃ e number, exec (.refillServe site k i) s = .next (xferStart ⟨fnSequencer, 0, 0⟩ x.tenant e (shareBytes k i s)
        (emit (.refillShare site.val k i (sourceStatement s) number) s)) ∧
      e.site = site.val ∧ e.number = number ∧ e.group = osGroup s ∧ e.fmt = 0 ∧ e.length = (shareBytes k i s).length) ∧
  (∀ (answers : List SourceAnswer) (s : State), getN O.OS_REFILL_STATE s = 1 → answers.length = s.os.sources.length →
    ((∀ a ∈ answers, answers.head? = some a) → ∀ expired, ∃ t, exec (.refillRetry answers expired) s = .next t ∧
      getN O.OS_REFILL_STATE t = 2 ∧ getN O.OS_REFILL_PAGES t = (osPages (osEntries s)).length ∧ { t with dict := s.dict } = s) ∧
    ((∃ a ∈ answers, answers.head? ≠ some a) → exec (.refillRetry answers false) s = .next (askSources s) ∧
      ∃ t, exec (.refillRetry answers true) s = .next t ∧ getN O.OS_REFILL_STATE t = 4 ∧
      getN O.OS_STEP_STATE t = 2 ∧ s.logged t 0x4805 (getN O.OS_COMMITTED_STEP s * 2 ^ 32 + 2))) ∧
  (∀ (pages : List RefillPage) (record : List Byte) (src : SourceAnswer) (s : State), getN O.OS_REFILL_STATE s = 2 →
    let v := pages.foldl (fun u r => landPage r u) s
    let left := (List.range (osPages (osEntries s)).length).filter fun p => !(s.os.landed ++ pages.map (·.page)).contains p
    ∃ u, exec (.refillComplete pages record src) s = .next (settle u) ∧ u.os.anchor = v.os.anchor ∧ u.os.mom = v.os.mom ∧
      getN O.OS_REFILL_PAGES u = left.length ∧
      (left ≠ [] → getN O.OS_REFILL_STATE u = 2) ∧
      (left = [] → crc64 (memRead 0 (4 * osParams s) v.os.anchor) = src.anchorFp →
        crc64 (memRead 0 (4 * osParams s) v.os.mom) = src.momFp →
        u.os.refilled = true ∧ pendingPages u = [] ∧ getN O.OS_COMMITTED_STEP u = src.committed ∧ getN O.OS_REFILL_STATE u = 0 ∧
          s.logged u 0x4806 src.committed) ∧
      (left = [] → crc64 (memRead 0 (4 * osParams s) v.os.anchor) ≠ src.anchorFp →
        getN O.OS_STEP_STATE u = 2 ∧ getN O.OS_REFILL_STATE u = 1 ∧ s.logged u 0x4805 (getN O.OS_COMMITTED_STEP s * 2 ^ 32 + 1))) ∧
  (∀ (r : RefillPage) (src : SourceAnswer) (s : State) (b n : Nat), getN O.OS_REFILL_STATE s ≠ 2 → s.os.damaged = [r.page] →
    s.os.waitForm = [] → s.os.waitReads = [] → pageSpan r.page s = some (b, n) → r.anchor.length = 4 * n → r.mom.length = 4 * n →
    ∃ u, exec (.refillComplete [r] [] src) s = .next (settle u) ∧ u.os.damaged = [] ∧ s.logged u 0x4807 r.page ∧
      memRead (4 * b) (4 * n) u.os.anchor = r.anchor ∧ memRead (4 * b) (4 * n) u.os.mom = r.mom) ∧
  (∀ (s : State),
    (∀ a, ∃ t, exec (.hbmUncorrectable (.word a)) s = .next t ∧ poisonAt (a / 8) t.poison = true ∧ t.mem = s.mem ∧
      (∀ w, w ≠ a / 8 → poisonAt w t.poison = poisonAt w s.poison) ∧
      ∀ c, crateOfAddr a s = some c → (getCrate c t).poison = true) ∧
    (∀ cls a, ∃ t hs, exec (.hbmUncorrectable (.ring cls a)) s = .next t ∧ s.logged t 0x5804 a ∧ t.mem = s.mem ∧
      t.pools.lost = s.pools.lost ++ hs ∧ (4 ≤ cls.val → classFree cls.val t + hs.length = classFree cls.val s)) ∧
    (∀ n, n < (osPages (osEntries s)).length → n ∉ s.os.damaged → ∃ t, exec (.hbmUncorrectable (.page n)) s = .next t ∧
      t.os = { s.os with damaged := s.os.damaged ++ [n] } ∧ { t with os := s.os, sent := s.sent } = s ∧
      ∀ a, (refillSources s).head? = some a → t.sent = s.sent ++ [.pageRequest a.1 a.2 false n]) ∧
    (∀ n, n ∉ s.os.recDamaged → ∃ t, exec (.hbmUncorrectable (.record n)) s = .next t ∧
      t.os = { s.os with recDamaged := s.os.recDamaged ++ [n] } ∧ { t with os := s.os, sent := s.sent } = s ∧
      ∀ a, (refillSources s).head? = some a → t.sent = s.sent ++ [.pageRequest a.1 a.2 true n]) ∧
    (∀ b n, ∃ t, exec (.hbmUncorrectable (.residual b n)) s = .next t ∧ s.logged t 0x4808 n ∧
      getN O.OS_RESID_ZEROED t = (getN O.OS_RESID_ZEROED s + 1) % 2 ^ objBits O.OS_RESID_ZEROED ∧
      ∀ first k, pageSpan n s = some (first, k) → ∀ i, i < 2 * k →
        memRead (2 * first + i) 1 (if b.val = 0 then t.os.resA else t.os.resB) = [0#8]))
/-! ### Frames, defects, FEC and loss reports. `lineSettle` recomputes the rates, shares and switching requests of the ports, and `settle` the
collectives; the statements give the state before they do. -/

/-- R279, R298 to R310, R312, R314, R326: a carrier that sends begins a frame whose header fits its check and carries its FSEQ and carrier
number, and its body goes into the FEC blocks it fills; one in Z4 sends the Ethernet segment at its port's head as it is;
a header found in HUNT makes a candidate, and one that follows it by one at the same place counts for it, up to SYNC; a frame position
in SYNC advances the expected FSEQ and counts by its outcome; IDENT names the far end. -/
def Obligations.FramesSentAndReceived : Prop :=
  (∀ (c : Fin 8) (s : State), carSends c.val s = true →
    (∃ u body, exec (.frameStart c) s = .next (settle u) ∧ .frame c.val body ∈ u.sent ∧ headerFits (body.take 16) = true ∧
      hdrFseq body = (getCar c.val s).fseq % 2 ^ 48 ∧ hdrCar body = c.val ∧
      (getCar c.val u).fseq = ((getCar c.val s).fseq + 1) % 2 ^ 48 ∧
      (let fill := fecFill 2 ((if (getCar c.val s).firstFrame then [] else (getCar c.val s).fecTx) ++ body)
       (getCar c.val u).fecTx = fill.2 ∧ ∀ b ∈ fill.1, .fecBlock c.val (fecEncode b) ∈ u.sent)) ∧
    exec (.identSend c) s = .next (setCar c.val { getCar c.val s with identDue := true } s)) ∧
  (∀ (c : Fin 8) (n : Nat) (x : TxSeg) (rest : List TxSeg) (s : State), (getCar c.val s).runMode = modeZ4 → portOfCar c.val s = some n →
    carInActive c.val s = true → getPicked n s = x :: rest → x.seg.kind = kEth →
    ∃ t, exec (.frameStart c) s = .next t ∧ .z4Frame c.val x.seg.data ∈ t.sent) ∧
  (∀ (c : Fin 8) (off : Nat) (w : List Byte) (s : State), let x := getCar c.val s
    x.runMode ≠ modeZ4 → x.raw % 4 = 0 → headerFits w = true →
    (x.fa = 0 → x.cands = [] → ∃ u, exec (.alignerWindow c off w) s = .next (settle u) ∧ (getCar c.val u).fa = 1 ∧
      (getCar c.val u).cands = [⟨off % 65536, hdrFseq w, hdrFseq w, hdrCar w, 1⟩] ∧ getN (O.FA_STATE + c.val) u = 1) ∧
    (∀ a, x.fa = 1 → x.cands = [a] → a.offset = off % 65536 → hdrFseq w = (a.last + 1) % 2 ^ 48 → hdrCar w = a.carrier →
      (a.good + 1 < getN O.FA_PRESYNC_N s → ∃ u, exec (.alignerWindow c off w) s = .next (settle u) ∧
        (getCar c.val u).cands = [{ a with last := hdrFseq w, good := a.good + 1 }]) ∧
      (getN O.FA_PRESYNC_N s ≤ a.good + 1 → (x.cstate = .acquiring → x.test.verify = false → x.runMode = probeMode c.val s) →
        ∃ u, exec (.alignerWindow c off w) s = .next (settle (lineSettle u)) ∧
        (getCar c.val u).fa = 2 ∧ (getCar c.val u).expFseq = a.first ∧ (getCar c.val u).rxCar = a.carrier ∧
        bitOf (getCar c.val u).raw 2 = false))) ∧
  (∀ (c : Fin 8) (body : List Byte) (uncorr : Bool) (poisoned : List Nat) (s : State), let x := getCar c.val s
    let f := rxFrame body
    let after (u : State) := settle (settleAligner c.val (lineSettle u))
    x.fa = 2 → headerGood x f = false →
    ∃ u, exec (.frameReceived c ⟨body, poisoned⟩ uncorr) s = .next (after u) ∧ (getCar c.val u).expFseq = (x.expFseq + 1) % 2 ^ 48 ∧
      (getCar c.val u).badCount = x.badCount + 1 ∧ (getCar c.val u).ledger.uncorr = x.ledger.uncorr + ofBool uncorr ∧
      (getCar c.val u).ledger.badHdr = x.ledger.badHdr + ofBool (!uncorr)) ∧
  (∀ (c : Fin 8) (body : List Byte) (poisoned : List Nat) (s : State), let x := getCar c.val s
    let f := rxFrame body
    x.fa = 2 → headerGood x f = true → f.isData = false → natOfBE (f.ctrl.take 1) = 0 →
    ∃ u, exec (.frameReceived c ⟨body, poisoned⟩ false) s = .next (settle (settleAligner c.val (lineSettle u))) ∧
      (getCar c.val u).expFseq = (x.expFseq + 1) % 2 ^ 48 ∧ (getCar c.val u).badCount = 0 ∧
      (getCar c.val u).lastGood = some x.expFseq ∧ (getCar c.val u).ledger.probeRx = x.ledger.probeRx + 1) ∧
  (∀ (c : Fin 8) (i : IdentInfo) (s : State) (n : Nat), portOfCar c.val s = some n →
    ∃ u, exec (.ident c i) s = .next (settle (lineSettle (tryProbing c.val u))) ∧ (getCar c.val u).ident = some i ∧
      (getCar c.val u).peer = isPeer i s ∧ (getPort n u).farSite = some (i.site, i.group, i.place) ∧
      getN (O.LP_FAR_ID + n) u = farId i ∧
      (isPeer i s = false → getN (O.LP_FAR_ID + n) s ≠ farId i → s.logged u 0x2021 (n * 2 ^ 56 + farId i)))

/-- R319, R320, R326, R329, R330: LOS and a lost lock are raw at once with LOF, and hunting halts; each clears when its condition does; a FEC block
gives the framer the bodies its codewords hold and counts the uncorrectable ones, the third good one in a row locks the boundary and the
sixteenth bad one loses it; an interval's bit error ratio is that of its corrected bits. -/
def Obligations.DefectsAndFec : Prop :=
  (∀ (c : Fin 8) (s : State), let x := getCar c.val s
    (∃ u, exec (.losDeclare c) s = .next (settle (lineSettle u)) ∧ bitOf (getCar c.val u).raw 0 = true ∧
      bitOf (getCar c.val u).raw 2 = true ∧ (getCar c.val u).fa = 0 ∧ (getCar c.val u).cands = []) ∧
    (∃ u, exec (.lockLost c) s = .next (settle (lineSettle u)) ∧ bitOf (getCar c.val u).raw 1 = true ∧
      bitOf (getCar c.val u).raw 2 = true ∧ (getCar c.val u).fa = 0 ∧ (getCar c.val u).fecLock = false ∧
      getN (O.FEC_STATE + c.val) u = 1) ∧
    (∃ u, exec (.losClear c) s = .next (settle (lineSettle u)) ∧ bitOf (getCar c.val u).raw 0 = false ∧
      (x.cstate ≠ .acquiring → ∀ k, k ≠ 0 → bitOf (getCar c.val u).raw k = bitOf x.raw k)) ∧
    (x.fecLock = true → (x.locked = true ∨ x.cstate = .dark) →
      (x.cstate = .acquiring → x.test.verify = false → x.runMode = probeMode c.val s) →
      ∃ u, exec (.lockClear c) s = .next (settle (lineSettle u)) ∧
      bitOf (getCar c.val u).raw 1 = false)) ∧
  (∀ (c : Fin 8) (inner : List (List Nat)) (uncorr : List Bool) (corr bits : Nat) (s : State), let x := getCar c.val s
    let n := (uncorr.filter id).length
    let run := exec (.fecBlock c ⟨inner, uncorr⟩ corr bits) s
    (x.runMode = 0 → run = .next (settle s)) ∧ (x.runMode ≠ 0 →
    (n = 0 → ∃ u, (run = .next (settle u) ∨ run = .next (settle (lineSettle u))) ∧ (getCar c.val u).fecCorr = x.fecCorr + corr ∧
      (getCar c.val u).fecBits = x.fecBits + bits ∧ (x.runMode ≠ modeZ4 → (getCar c.val u).fecRx = fecDecode inner) ∧
      (x.cstate ≠ .acquiring → (getCar c.val u).fecLock = (x.fecLock || decide (2 ≤ x.fecGood))) ∧
      (x.fecLock = false → 2 ≤ x.fecGood → s.logged u 0x2202 (c.val * 2 ^ 56 + x.runMode))) ∧
    (n ≠ 0 → (x.fecLock = false ∨ x.fecBad < 15) → ∃ t, run = .next (settle t) ∧
      getN (O.FEC_UNCORR_CW + c.val) t = (getN (O.FEC_UNCORR_CW + c.val) s + n) % 2 ^ objBits (O.FEC_UNCORR_CW + c.val) ∧
      (getCar c.val t).fecGood = 0 ∧ (getCar c.val t).fecBad = (if x.fecLock then x.fecBad + 1 else 0)) ∧
    (n ≠ 0 → x.fecLock = true → 15 ≤ x.fecBad → ∃ u, run = .next (settle (lineSettle u)) ∧
      (getCar c.val u).fecLock = false ∧ bitOf (getCar c.val u).raw 1 = true ∧ s.logged u 0x2201 (c.val * 2 ^ 56)))) ∧
  (∀ (c : Fin 8) (s : State), let x := getCar c.val s
    x.fecBits ≠ 0 → ∃ u, (exec (.degInterval c) s = .next (settle u) ∨ exec (.degInterval c) s = .next (settle (lineSettle u))) ∧
      getN (O.FEC_PRE_BER + c.val) u = (encodeElem 0 .tiesToEven (FVal.div (.fin false x.fecCorr 0) (.fin false x.fecBits 0)).1).1 ∧
      (getCar c.val u).fecCorr = 0 ∧ (getCar c.val u).fecBits = 0 ∧ (getCar c.val u).berN = x.berN + 1)

/-- R335, R339 to R342: the first loss due is reported again, an open range while its defect lasts; a loss report taken on the port of its
carrier is counted and the frames it names and the store keeps are marked re-sent; one that does not fit its port is only counted;
entries past the hold time are released. -/
def Obligations.LossReportsAndResend : Prop :=
  (∀ (port : Fin 4) (s : State) (d : LossDue) (rest : List LossDue), let p := getPort port.val s
    p.lrDue = d :: rest → p.lrQ.length < 256 →
    ∃ t r, exec (.lossReportRepeat port) s = .next t ∧ (getPort port.val t).lrQ = p.lrQ ++ [r] ∧ r.carrier = d.carrier ∧
      r.base = d.base ∧ r.range = decide (d.count ≠ 0) ∧ (d.count ≠ 0 → r.map = d.count) ∧ (d.count = 0 → r.map % 2 = 1) ∧
      { t with line := s.line } = s) ∧
  (∀ (c : Fin 8) (s : State) (base n : Nat), let x := getCar c.val s
    x.openRange = some base → portOfCar c.val s = some n → x.reported % 16 ≠ 0 → (getPort n s).lrQ.length < 256 →
    exec (.openRangeRepeat c) s = .next (setPort n { getPort n s with lrQ := (getPort n s).lrQ ++ [⟨x.rxCar, true, base, 0⟩] } s)) ∧
  (∀ (c : Fin 8) (r : LossReport) (s : State) (n : Nat), portOfCar c.val s = some n →
    (bitOf (lpCarriers n s) r.carrier = true → carSends r.carrier s = true → (r.range = true ∨ r.map % 2 = 1) →
      lncUp r.carrier s = true → ∃ t, exec (.lossReport c r) s = .next t ∧
        getN (O.LR_RX + n) t = (getN (O.LR_RX + n) s + 1) % 2 ^ objBits (O.LR_RX + n) ∧
        (getPort n t).kept = (getPort n s).kept.map (fun k => if reportNames r k then { k with resent := true } else k) ∧
        ((∀ k f, f ∈ (getPort k s).kept → reportNames r f = true → f.resent = true) → t.mem = s.mem)) ∧
    (bitOf (lpCarriers n s) r.carrier = false → exec (.lossReport c r) s =
      .next (modLedger c.val (fun l => { l with clUnknown := l.clUnknown + 1 }) s))) ∧
  (∀ (port : Fin 4) (s : State), ∃ t, exec (.resendHoldExpiry port) s = .next t ∧
    (getPort port.val t).kept = (getPort port.val s).kept.filter (fun k => (s.time.clocks - k.clk) * 4 < holdNs port.val s * 5) ∧
    getN (O.RS_USED_BYTES + port.val) t = keptBytes (getPort port.val t).kept ∧
    { t with line := s.line, dict := s.dict } = s)
/-! ### Line keys and cipher jobs -/

/-- R356, R358, R362, R366: a key record that passes R358 is LOADED into the slot it names, one that fails it is answered and logged with the
reason; CHANGE_NOW, and a change that falls due, announce the next key; ERASE_NEXT empties its slot; an announcement is repeated, and
after its time the change is abandoned and the slot is LOADED again. -/
def Obligations.KeyLoadingAndChange : Prop :=
  (∀ (w : BlobWrite) (s : State), ownCheck w.sess O.KEY_LOAD (.bytes w.bytes) s = 0 → keyLoadServed s = true → w.bytes.length = 64 →
    (∀ k, openRecord w.bytes s = .ok k → keyLoadReason w.bytes s = 0 → (targetSlot k s).kstate < 2 →
      ∃ t, exec (.keyLoad w) s = .next t ∧ t.sent = s.sent ++ [.writeAnswer w.sess O.KEY_LOAD 0] ∧
        targetSlot k t = { kstate := 1, keyId := k.keyId, key := k.key, salt := k.salt } ∧
        { t with line := s.line, sent := s.sent } = s) ∧
    (keyLoadReason w.bytes s ≠ 0 → ∃ t, exec (.keyLoad w) s = .next t ∧ t.sent = s.sent ++ [.writeAnswer w.sess O.KEY_LOAD 0x14] ∧
      s.logged t 0x2801 (recordId w.bytes * 2 ^ 32 + keyLoadReason w.bytes s) ∧ t.line = s.line)) ∧
  (∀ (port : Fin 4) (s : State), let p := getPort port.val s
    let k := nextTx p
    let announced (u : State) : Prop := ((getPort port.val u).txSlot k).kstate = 2 ∧ ((getPort port.val u).txSlot k).key = (p.txSlot k).key ∧
      (getPort port.val u).changeTo = k ∧ (getPort port.val u).switchAt = 0 ∧
      (portLnc port.val s = true → (getPort port.val u).kcQ = p.kcQ ++ [⟨1, k, (p.txSlot k).keyId, 0, 0⟩])
    ((p.txSlot k).kstate = 1 → procUp 0 s = true →
      (∀ sess : Fin 73, ownCheck sess.val O.KEY_CMD (.num (256 + port.val)) s = 0 →
        ∃ t, exec (.changeNow sess port) s = .next t ∧ announced t ∧ t.sent = s.sent ++ [.writeAnswer sess.val O.KEY_CMD 0]) ∧
      (p.changeDue = true → ∃ t, exec (.keyChangeRetry port) s = .next t ∧ announced t) ∧
      (getN O.KEY_AUTO s = 1 → p.curTx.isSome → p.changeDue = false →
        ∃ t, exec (.keyChangeDue port) s = .next t ∧ announced t ∧ (getPort port.val t).changeDue = true)) ∧
    (∀ sess : Fin 73, ownCheck sess.val O.KEY_CMD (.num (512 + port.val)) s = 0 → (p.txSlot k).kstate = 1 →
      ∃ t, exec (.eraseNext sess port) s = .next t ∧ (getPort port.val t).txSlot k = KeySlot.empty ∧
        (getPort port.val t).txSlot (1 - k) = p.txSlot (1 - k) ∧ t.sent = s.sent ++ [.writeAnswer sess.val O.KEY_CMD 0]) ∧
    (announcing p = true → portLnc port.val s = true →
      exec (.announceRetry port) s = .next (setPort port.val { p with
        kcQ := p.kcQ ++ [⟨1, p.changeTo, (p.txSlot p.changeTo).keyId, 0, 0⟩] } s) ∧
      ∃ t, exec (.announceTimeout port) s = .next t ∧ ((getPort port.val t).txSlot p.changeTo).kstate = 1 ∧
        s.logged t 0x2804 (port.val * 2 ^ 56)))

/-- R362, R363: an ANNOUNCE is answered by ACK or by NACK with its reason; the ACK of the change that runs sets the time of the switch and
announces it three times, its NACK abandons the change; once that time has come and no carrier has still to switch, the slot is CURRENT
and the other one empty; a RETIRING receive slot is zeroised when the overlap ends; BOUNDARY is only counted. -/
def Obligations.KeyChangeMessages : Prop :=
  (∀ (c : Fin 8) (m : KeyMsg) (n : Nat) (s : State), portOfCar c.val s = some n → portLnc n s = true →
    let p := getPort n s
    let x := p.rxSlot (m.slot % 2)
    let asked (u : State) (ty st : Nat) : Prop := (getPort n u).kcQ = p.kcQ ++ [⟨ty, m.slot % 2, m.keyId, 0, st⟩]
    (∃ t, exec (.announce c m) s = .next t ∧
      (x.kstate = 0 → asked t 3 1 ∧ (getPort n t).rxSlot (m.slot % 2) = x) ∧
      (x.kstate = 4 → asked t 3 3 ∧ (getPort n t).rxSlot (m.slot % 2) = x) ∧
      ((x.kstate = 1 ∨ x.kstate = 2) → x.keyId ≠ m.keyId → asked t 3 2 ∧ (getPort n t).rxSlot (m.slot % 2) = x) ∧
      ((x.kstate = 1 ∨ x.kstate = 2) → x.keyId = m.keyId → asked t 2 0 ∧ (getPort n t).rxSlot (m.slot % 2) = { x with kstate := 2 }) ∧
      (x.kstate = 3 → x.keyId = m.keyId → asked t 2 0 ∧ (getPort n t).rxSlot (m.slot % 2) = x)) ∧
    (answersChange n m s = true →
      (let b : KeyMsg := ⟨4, p.changeTo, (p.txSlot p.changeTo).keyId, (timeBase s + getN O.KEY_LEAD_US s * 1000 * 65536) % 2 ^ 48, 0⟩
        ∃ t, exec (.ack c m) s = .next t ∧ (getPort n t).switchAt = timeBase s + getN O.KEY_LEAD_US s * 1000 * 65536 ∧
          (getPort n t).kcQ = p.kcQ ++ [b, b, b] ∧ (getPort n t).toSwitch = switchers n s) ∧
      ∃ t, exec (.nack c m) s = .next t ∧ ((getPort n t).txSlot p.changeTo).kstate = 1 ∧
        s.logged t 0x2804 (n * 2 ^ 56 + m.status))) ∧
  (∀ (c : Fin 8) (m : KeyMsg) (s : State), exec (.boundary c m) s =
    .next (modLedger c.val (fun l => { l with clMsgsRx := l.clMsgsRx + 1 }) s)) ∧
  (∀ (port : Fin 4) (s : State), let p := getPort port.val s
    (switching p = true → (∀ c ∈ p.toSwitch, carSends c s = false) → p.changeTo ≤ 1 →
      ∃ t, exec (.keySwitchT port) s = .next t ∧
        (getPort port.val t).txSlot p.changeTo = { p.txSlot p.changeTo with kstate := 3 } ∧
        (getPort port.val t).txSlot (1 - p.changeTo) = KeySlot.empty ∧ (getPort port.val t).switchAt = 0 ∧
        getN (O.KEY_CHANGES + port.val) t = (getN (O.KEY_CHANGES + port.val) s + 1) % 2 ^ objBits (O.KEY_CHANGES + port.val) ∧
        s.logged t 0x2802 (port.val * 2 ^ 56 + (p.txSlot p.changeTo).keyId)) ∧
    (p.rx0.kstate = 4 → ∃ t, exec (.keyOverlapExpiry port) s = .next t ∧ getPort port.val t = { p with rx0 := KeySlot.empty } ∧
      s.logged t 0x2805 (port.val * 2 ^ 56 + p.rx0.keyId)) ∧
    (p.rx0.kstate ≠ 4 → p.rx1.kstate = 4 → ∃ t, exec (.keyOverlapExpiry port) s = .next t ∧
      getPort port.val t = { p with rx1 := KeySlot.empty } ∧ s.logged t 0x2805 (port.val * 2 ^ 56 + p.rx1.keyId)))

/-- A cipher job the engines take: an entry of a CIPHER ring at its head, with a pool free to run it. -/
def Sys2Proof.Machine.State.takesJob (src : JobSrc) (s : State) : Prop :=
  mayConsume 1 src s = true ∧ src.fn ≠ fnSequencer ∧ poolsHeld s = false ∧ ∀ e ∈ s.host.jobCrates, e.1 ≠ src

/-- A cipher job the engines take whose record, addresses and key are good, and whose host memory answers. -/
def Sys2Proof.Machine.State.takesCipher (op : Nat) (src : JobSrc) (r : List Byte) (d : CipherData) (k : KeyRec) (s : State) : Prop :=
  s.takesJob src ∧ cipherParamsOk (srcTenant src s) op (cipherJob r) s = true ∧ (bitOf (cipherJob r).flags 0 = true → d.ok = true) ∧
  cipherKey (srcTenant src s) (cipherReads (cipherJob r) d s).key s = .ok k

/-- R368 to R371, R464: ENCRYPT makes the ciphertext and the tag of AES-256-GCM under the job's key, DECRYPT the plaintext, TAG_CHECK writes
nothing; a tag that does not fit ends the job with status 0x10, counted; a bad record ends it with 0x12, a key refused with 0x11 and its
reason, and host memory that does not answer with EV-0x3804 (the status, 1, is the model's, log entry 170). Each job ends with its entry.
What goes to host addresses is stated byte for byte, and leaves memory alone. -/
def Obligations.CipherJobs : Prop :=
  ∀ (src : JobSrc) (r : List Byte) (d : CipherData) (k : KeyRec) (s : State), let j := cipherJob r
    let x := cipherReads j d s
    let toHost := bitOf j.flags 0 = true
    let ends (st : Nat) (t : State) : Prop := ∃ e ∈ t.host.done, e.src = src ∧ e.bytes[4]? = some (BitVec.ofNat 8 st)
    (j.textLen ≠ 0 →
    (s.takesCipher 1 src r d k → ∃ t, exec (.encrypt src r d) s = .next t ∧ ends 0 t ∧ (toHost → t.mem = s.mem ∧
      .hostWrite src.fn j.outAt (padTo (toBlocks j.textLen) (gcmCrypt k.key j.iv x.text)) ∈ t.sent ∧
      .hostWrite src.fn j.tagAt (gcmTag k.key j.iv x.aad (gcmCrypt k.key j.iv x.text)) ∈ t.sent)) ∧
    (s.takesCipher 2 src r d k → ∃ t, exec (.decrypt src r d) s = .next t ∧
      (toHost → t.mem = s.mem ∧ .hostWrite src.fn j.outAt (padTo (toBlocks j.textLen) (gcmCrypt k.key j.iv x.text)) ∈ t.sent) ∧
      (gcmTag k.key j.iv x.aad x.text = x.tag → ends 0 t) ∧
      (gcmTag k.key j.iv x.aad x.text ≠ x.tag → ends 0x10 t ∧
        getN O.HC_AUTH_FAIL t = (getN O.HC_AUTH_FAIL s + 1) % 2 ^ objBits O.HC_AUTH_FAIL)) ∧
    (s.takesCipher 3 src r d k → ∃ t, exec (.tagCheck src r d) s = .next t ∧ (toHost → t.mem = s.mem) ∧
      (gcmTag k.key j.iv x.aad x.text = x.tag → ends 0 t) ∧ (gcmTag k.key j.iv x.aad x.text ≠ x.tag → ends 0x10 t))) ∧
    (s.takesJob src → ∀ p ∈ [(1, Instr.encrypt src r d), (2, .decrypt src r d), (3, .tagCheck src r d)],
      (toHost → d.ok = false → ∃ t, exec p.2 s = .next t ∧ ends 1 t ∧
        s.logged t 0x3804 (src.fn % 2 ^ 16 * 2 ^ 48 + j.addrOf d.bad % 2 ^ 48)) ∧
      ((toHost → d.ok = true) →
        (cipherParamsOk (srcTenant src s) p.1 j s = false → ∃ t, exec p.2 s = .next t ∧ ends 0x12 t) ∧
        (∀ e, cipherParamsOk (srcTenant src s) p.1 j s = true → j.textLen ≠ 0 → cipherKey (srcTenant src s) x.key s = .error e →
          ∃ t, exec p.2 s = .next t ∧ ends 0x11 t ∧ s.logged t 0x2801 (recordId x.key * 2 ^ 32 + e))))
/-! ### Carriers, lasers and margins -/

/-- R25, R26, R379 to R382: the module's status is taken as read and a laser whose bit is set takes its registers; a module that does not answer, or
not as it should, is faulty and the shutter line low; a locked carrier acquires, one that drifts or locks in a wrong order closes its shutter,
and a carrier that does not tune or lock in time goes DOWN and later retunes. -/
def Obligations.LaserModuleAndLocking : Prop :=
  (∀ (m : ModuleRead) (s : State),
    (m.id = 0x4C4D → m.ver = 1 → bitOf m.status 1 = false → bitOf m.status 2 = false →
      (∀ r, m.lasers = [r] → bitOf m.int r.pos = true → r.pos < 10 → bitOf r.stat 2 = false → bitOf r.stat 3 = false →
        getI O.LASER_IN_MIN_CDBM s ≤ r.power → (getLaser r.pos s).fault = false →
        ∃ u, exec (.laserInt m) s = .next (lineSettle u) ∧ u.line.lmFault = false ∧ u.line.lmStatus = m.status ∧
          getLaser r.pos u = { getLaser r.pos s with stat := r.stat, power := r.power, bias := r.bias, biasEol := r.biasEol, fmon := r.fmon } ∧
          ∀ p, p ≠ r.pos → getLaser p u = getLaser p s) ∧
      (m.lasers = [] → ∃ u, exec (.laserInt m) s = .next (lineSettle u) ∧ u.line.lmFault = false ∧ u.line.lmStatus = m.status ∧
        getN O.LM_IDENT u = m.id % 65536 * 65536 + m.ver % 256 * 256 + m.count % 256 ∧
        .i2cRead (getN O.LASER_I2C_ADDR s % 128) 0 7 ∈ u.sent)) ∧
    (m.id ≠ 0x4C4D → s.line.lmFault = false → ∃ t, exec (.laserInt m) s = .next t ∧ t.line.lmFault = true ∧
      t.line.laserShutLow = true ∧ s.logged t 0x2044 m.status) ∧
    (s.line.lmFault = false → ∃ t, exec .laserModuleSilent s = .next t ∧ t.line.lmFault = true ∧ t.line.laserShutLow = true ∧
      s.logged t 0x2044 s.line.lmStatus) ∧
    exec (.i2cRetry (some m)) s = exec (.laserInt m) (addN O.LM_I2C_ERRS 1 s) ∧
    ∃ t, exec (.i2cRetry none) s = .next t ∧ getN O.LM_I2C_ERRS t = (getN O.LM_I2C_ERRS s + 2) % 2 ^ objBits O.LM_I2C_ERRS ∧
      (∀ k, k ≠ O.LM_I2C_ERRS → getObj k t = getObj k s) ∧ s.sameBeyondDict t) ∧
  (∀ (c : Fin 8) (s : State), let x := getCar c.val s
    (x.cstate = .tuning → x.laserMove = 0 → ∃ u, exec (.lmTuneExpiry c) s = .next (lineSettle u) ∧ (getCar c.val u).cstate = .down ∧
      (getCar c.val u).downCause = 1 ∧ s.logged u 0x2002 (c.val * 2 ^ 56 + 1)) ∧
    (x.cstate = .locking → ∃ u, exec (.lockTimeout c) s = .next (lineSettle u) ∧ (getCar c.val u).cstate = .down ∧
      (getCar c.val u).downCause = 2 ∧ (getCar c.val u).shutter = true ∧ s.logged u 0x2002 (c.val * 2 ^ 56 + 2)) ∧
    (x.cstate = .acquiring → x.raw % 4 ≠ 0 → x.acquireLogged = false → exec (.acquireTimeout c) s =
      .next (logEvent 0x2002 (c.val * 2 ^ 56 + 6) (setCar c.val { x with acquireLogged := true } s))) ∧
    (x.cstate = .down → carEnabled c.val s = true → mayLight s = true → ∃ t, exec (.downRetry c) s = .next t ∧
      (getCar c.val t).cstate = .tuning ∧ (getCar c.val t).shutter = true ∧
      (getLaser (laserPos c.val s) t).targetMhz = slotMhz (carFreqN c.val s) ∧ (getLaser (laserPos c.val s) t).ctrl = 3) ∧
    (lncUp c.val s = true → x.locked = true → ∃ t, exec (.lfFineSteer c) s = .next t ∧ -300 ≤ (getLaser (laserPos c.val s) t).fine ∧
      (getLaser (laserPos c.val s) t).fine ≤ 300 ∧ { t with line := s.line, freeCtr := s.freeCtr, sent := s.sent } = s ∧
      t.sent = s.sent ++ [.i2cWrite (getN O.LASER_I2C_ADDR s % 128)
        (bytesBE 1 (lfReg (laserPos c.val s) 6) ++ bytesBE 2 (ofSigned 16 (getLaser (laserPos c.val s) t).fine))])) ∧
  (∀ (c : Fin 8) (err fmon : Int) (s : State), let x := getCar c.val s
    (x.cstate = .locking → x.locked = false → wrongOrder true fmon = false → -50 ≤ err → err ≤ 50 →
      (x.lockRun + 1 < lockNeeds x → exec (.lockerSample c err true fmon) s =
        .next (setCar c.val { x with freqErr := err, lockRun := x.lockRun + 1 } s)) ∧
      (lockNeeds x ≤ x.lockRun + 1 → ∃ u, exec (.lockerSample c err true fmon) s = .next (lineSettle u) ∧
        (getCar c.val u).cstate = .acquiring ∧ (getCar c.val u).shutter = false ∧ (getCar c.val u).locked = true)) ∧
    (x.cstate = .active → wrongOrder true fmon = false → x.locked = true →
      (-200 ≤ err → err ≤ 200 → exec (.lockerSample c err true fmon) s = .next (setCar c.val { x with freqErr := err } s)) ∧
      (200 < err → ∃ u, exec (.lockerSample c err true fmon) s = .next (lineSettle u) ∧ (getCar c.val u).locked = false ∧
        (getCar c.val u).shutter = true ∧ bitOf (getCar c.val u).raw 1 = true)) ∧
    (x.cstate = .active → x.wrongOrders = [] → ∃ u, exec (.lockerSample c err false fmon) s = .next (lineSettle u) ∧
      (getCar c.val u).cstate = .shuttered ∧ (getCar c.val u).shutter = true ∧
      s.logged u 0x2004 (c.val * 2 ^ 56 + ofSigned 32 fmon)) ∧
    (x.cstate = .shuttered → ∃ t, exec (.lockerSample c err true fmon) s = .next t ∧ (getCar c.val t).cstate = .tuning))

/-- R384 to R390: a MARGIN message that differs from the last is taken in PROBING: an OFFER keeps the far end's modes and fails the test where
none is common; a REPORT is kept; a SET makes the follower answer SET_ACK and the leader's SET_ACK changes the mode; JOIN makes the carrier
ACTIVE; a measurement gives this end's REPORT, and in service the margin shown. -/
def Obligations.MarginTests : Prop :=
  (∀ (c : Fin 8) (m : MarginMsg) (s : State), let x := getCar c.val s
    let far (ty : Nat) : MarginMsg := { m with mgType := ty }
    lncUp c.val s = true → x.cstate = .probing →
    (x.test.msg.isSome → exec (.marginSend c) s = .next (setCar c.val { x with test := { x.test with msgDue := true } } s)) ∧
    (x.test.lastFar ≠ some (far 1) →
      (Nat.land (sentModes c.val s) m.modes ≠ 0 → ∃ t, exec (.offer c m) s = .next t ∧ (getCar c.val t).test =
        { x.test with lastFar := some (far 1), farModes := some m.modes, farTarget := m.target } ∧ { t with line := s.line } = s) ∧
      (Nat.land (sentModes c.val s) m.modes = 0 → ∃ u, exec (.offer c m) s = .next (lineSettle u) ∧
        (getCar c.val u).cstate = .down ∧ (getCar c.val u).downCause = 3)) ∧
    (x.test.lastFar ≠ some (far 2) → m.verify = x.test.verify → (m.verify = false → m.round = x.round) → x.test.ownRep = none →
      ∃ t, exec (.marginReport c m) s = .next t ∧ (getCar c.val t).test.farRep = some (far 2) ∧
        (getCar c.val t).test.farModes = some m.modes ∧ { t with line := s.line } = s) ∧
    (x.test.lastFar ≠ some (far 3) → leads c.val s = false → bitOf (sentModes c.val s) m.mode = true →
      ∃ t a, exec (.set c m) s = .next t ∧ (getCar c.val t).test.msg = some a ∧ a.mgType = 4 ∧ a.mode = m.mode ∧ a.round = m.round ∧
        (getCar c.val t).test.setPending = true ∧ (getCar c.val t).test.ackLeft = 3 ∧ { t with line := s.line } = s) ∧
    (x.test.lastFar ≠ some (far 4) → leads c.val s = true → x.test.setPending = true → m.mode = x.test.setMode →
      m.round = (x.round + 1) % 256 → ∃ t, exec (.setAck c m) s = .next t ∧ (getCar c.val t).runMode = m.mode ∧
        (getCar c.val t).round = m.round ∧ (getCar c.val t).test.setPending = false ∧
        (x.runMode = m.mode → { t with line := s.line } = s) ∧
        (x.runMode ≠ m.mode → x.runMode ≠ 0 → (getCar c.val t).fecLock = false ∧ bitOf (getCar c.val t).raw 1 = true)) ∧
    (x.test.lastFar ≠ some (far 5) → m.mode = x.runMode → holdsKey c.val s = true →
      ∃ u, exec (.join c m) s = .next (lineSettle u) ∧ (getCar c.val u).cstate = .active ∧ (getCar c.val u).mode = x.runMode ∧
        s.logged u 0x2001 (c.val * 2 ^ 56 + x.runMode))) ∧
  (∀ (c : Fin 8) (snr : Int) (s : State), let x := getCar c.val s
    let key := O.CAR_SNR_CDB + c.val
    lncUp c.val s = true →
    (x.cstate = .probing → acquiredNow x = true → x.test.ownRep = none → x.test.farRep = none →
      (∀ off skew, x.test.verify = false → otherSlot c.val off s = false →
        ∃ t a, exec (.mgMeasEnd c snr off skew) s = .next t ∧ (getCar c.val t).test.ownRep = some a ∧ a.mgType = 2 ∧ a.snr = snr ∧
          (getCar c.val t).test.msg = some a ∧ getN key t = ofSigned (objBits key) snr) ∧
      (∀ off, x.test.verify = false → otherSlot c.val off s = true →
        exec (.mgMeasEnd c snr off true) s = .next (logEvent 0x2008 (c.val * 2 ^ 56) s)) ∧
      (x.test.verify = true → ∃ t a, exec (.mgVerifyEnd c snr) s = .next t ∧ (getCar c.val t).test.ownRep = some a ∧ a.verify = true ∧
        a.snr = snr ∧ getN key t = ofSigned (objBits key) snr)) ∧
    (x.cstate = .probing → x.test.verify = false → x.round ≠ 0 → acquiredNow x = false → x.test.ownRep0 = none →
      ∃ t, exec (.mgAcqTimeout c) s = .next t ∧ (getCar c.val t).runMode = probeMode c.val s ∧
        bitOf (getCar c.val t).test.excluded x.runMode = true ∧
        (x.runMode = probeMode c.val s → { t with line := s.line } = s) ∧
        (x.runMode ≠ probeMode c.val s → x.runMode ≠ 0 → (getCar c.val t).fecLock = false ∧ bitOf (getCar c.val t).raw 1 = true)) ∧
    (x.cstate = .active → ∃ t, exec (.qmarginUpdate c snr) s = .next t ∧ getN key t = ofSigned (objBits key) snr))

/-- R391 to R398: a drain that ends moves the carrier on as it was begun for; the lasers in use are sampled; a spare that has settled starts
the drain of the carrier it is for, a failed laser is marked; RETEST, LASER_SPARE and LASER_RETURN begin their moves where R390 and R395 allow
them; a calibration out of its range is logged and one within it changes nothing. -/
def Obligations.DrainsAndSpareLasers : Prop :=
  (∀ (c : Fin 8) (s : State), let x := getCar c.val s
    (x.cstate = .draining → ∃ u, exec (.drainWaitExpiry c) s = .next (lineSettle u) ∧
      (x.drainNext = 1 → (getCar c.val u).cstate = .locking) ∧ (x.drainNext = 2 → (getCar c.val u).cstate = .tuning) ∧
      (x.drainNext = 3 → (getCar c.val u).cstate = .probing ∧ (getCar c.val u).runMode = probeMode c.val s) ∧
      (x.drainNext = 4 → (getCar c.val u).cstate = .dark)) ∧
    (x.laserMove = 1 → (getLaser (8 + c.val / 4) s).tuned = true → x.cstate = .active → x.mode ≠ modeZ4 →
      ∃ u, exec (.spareSettle c) s = .next (lineSettle u) ∧ (getCar c.val u).cstate = .draining ∧ (getCar c.val u).laserMove = 2 ∧
        s.logged u 0x2005 (c.val * 2 ^ 56 + 1))) ∧
  (∀ (pos : Fin 10) (power : Int) (s : State),
    (power < getI O.LASER_IN_MIN_CDBM s → ∃ u, exec (.laserFail pos power) s = .next (lineSettle u) ∧
      (getLaser pos.val u).fault = true ∧ (getLaser pos.val u).power = power) ∧
    (getI O.LASER_IN_MIN_CDBM s ≤ power → bitOf (getLaser pos.val s).stat 2 = false →
      exec (.laserFail pos power) s = .next (setLaser pos.val { getLaser pos.val s with power := power } s))) ∧
  (∀ (r : LaserRead) (s : State), r.pos < 10 → laserInUse r.pos s = true → (∃ c < 8, laserPos c s = r.pos ∧ lncUp c s = true) →
    ∃ u, exec (.laserTrendSample [r]) s = .next (lineSettle u) ∧ u.line.trendMin = s.line.trendMin + 1 ∧
      (s.line.trendMin + 1, r.power, r.bias) ∈ (getLaser r.pos u).samples) ∧
  (∀ (sess : Fin 73) (c : Fin 8) (s : State), let x := getCar c.val s
    let answer (u : State) := emit (.writeAnswer sess.val O.CAR_CMD 0) u
    (ownCheck sess.val O.CAR_CMD (.num (0x100 + c.val)) s = 0 → x.cstate = .active → x.mode ≠ modeZ4 →
      ∃ u, exec (.retest sess c) s = .next (answer (lineSettle u)) ∧ (getCar c.val u).cstate = .draining ∧
        (getCar c.val u).drainNext = 3 ∧ s.logged u 0x2005 (c.val * 2 ^ 56 + 3)) ∧
    (ownCheck sess.val O.CAR_CMD (.num (0x200 + c.val)) s = 0 → x.cstate ≠ .dark → x.spareIn = false → x.laserMove = 0 →
      spareUser (c.val / 4) s = none → (getLaser (8 + c.val / 4) s).fault = false →
      ∃ u, exec (.laserSpare sess c) s = .next (answer u) ∧ (getCar c.val u).laserMove = 1 ∧ spareUser (c.val / 4) u = some c.val ∧
        (getLaser (8 + c.val / 4) u).targetMhz = slotMhz (carFreqN c.val s) ∧ (getLaser (8 + c.val / 4) u).ctrl = 3) ∧
    (ownCheck sess.val O.CAR_CMD (.num (0x300 + c.val)) s = 0 → x.spareIn = true → x.laserMove = 0 →
      (getLaser c.val s).tuned = true → bitOf (getLaser c.val s).stat 2 = false → getI O.LF_FLOOR_CDBM s ≤ (getLaser c.val s).power →
      ∃ u, exec (.laserReturn sess c) s = .next (answer u) ∧ (getCar c.val u).laserMove = 4 ∧ (getLaser c.val u).ctrl = 3)) ∧
  (∀ (c : Fin 8) (d : Int) (s : State), lncUp c.val s = true → (getCar c.val s).cstate ≠ .dark →
    (-10 ≤ d → d ≤ 10 → exec (.biasDither c d) s = .next s) ∧
    (10 < d → exec (.biasDither c d) s = .next (logEvent 0x2051 (c.val * 2 ^ 56 + 1) s)) ∧
    ((getCar c.val s).shutter = false → let e := d - getI (carKey c.val 5) s
      (-50 ≤ e → e ≤ 50 → exec (.launchPowerLoop c d) s = .next s) ∧
      (50 < e → exec (.launchPowerLoop c d) s = .next (logEvent 0x2051 (c.val * 2 ^ 56 + 2) s))) ∧
    (-50 ≤ d → d ≤ 50 → ∃ t, exec (.lockerCalCheck c d) s = .next t ∧ (getCar c.val t).lockerOff = (getCar c.val s).lockerOff ∧
      t.dict = s.dict) ∧
    (50 < d → ∃ t, exec (.lockerCalCheck c d) s = .next t ∧ (getCar c.val t).lockerOff = (getCar c.val s).lockerOff - 10 ∧
      (150 < d → s.logged t 0x2051 (c.val * 2 ^ 56 + 3))))
/-! ### The time base and time transfer -/

/-- R402, R405 to R408: an update of the servo selects the first qualified source (the one held while HELD), moves the servo as Table 15.3
says, and keeps TB continuous unless it steps it; a new second latches every carrier's ledger without moving TB; TS_SET steps TB only while
FREE is selected; the 10 MHz input and a 1PPS edge are recorded. -/
def Obligations.TimeBaseAndServo : Prop :=
  (∀ s : State, let src := srcNext s
    let err := srcError src s
    let st := getN O.TIME_STATE s
    let lim (k : Nat) : Nat := getN k s * 2 ^ 48 / 1000000000
    (procUp 4 s = false → exec .servoUpdate s = .next s) ∧
    (procUp 4 s = true → ∃ t, exec .servoUpdate s = .next t ∧ getN O.TIME_SRC t = src ∧ (st ≠ 1 → t.line = s.line) ∧
      (getN O.TIME_SRC s ≠ src → s.logged t 0x6002 src) ∧
      (st = 0 → timeBase t = timeBase s ∧ t.time.adj = s.time.adj ∧ getN O.TIME_STATE t = if src = 0 then 0 else 1) ∧
      (st = 1 → src = 0 → getN O.TIME_STATE t = 0 ∧ t.time.adj = s.time.adj ∧ getN O.TIME_ERR_EST_NS t = 0xFFFFFFFF) ∧
      (st = 2 → src = 0 → getN O.TIME_STATE t = 3 ∧ t.time.adj = max (-adjMax) (min adjMax (adjMean s)) ∧ timeBase t = timeBase s ∧
        s.logged t 0x6001 0x203) ∧
      (st = 2 → src ≠ 0 → src = getN O.TIME_SRC s → (err.natAbs : Int) ≤ 10 * nsUnits (getN O.TS_LOCK_NS s) →
        -adjMax ≤ adjMean s → adjMean s ≤ adjMax → getN O.TIME_STATE t = 2 ∧ timeBase t = timeBase s ∧
        (t.time.adj - adjMean s).natAbs ≤ lim O.TS_SLEW_LOCKED_PPB) ∧
      (st = 3 → src ≠ 0 → getN O.TIME_STATE t = (if (err.natAbs : Int) ≤ nsUnits (getN O.TS_LOCK_NS s) then 2 else 1)) ∧
      (st = 3 → src = 0 → getN O.TIME_STATE t = 3 ∧ t.time.adj = s.time.adj ∧ getN O.TIME_ERR_EST_NS t =
        min (2 ^ 32 - 1) (s.time.holdBase + getN O.TS_HOLD_DRIFT_NS_H s * (s.time.holdN + 1) / 36000))) ∧
    (procUp 4 s = true → st = 1 → src ≠ 0 → nsUnits (getN O.TS_STEP_NS s) < err.natAbs → ∃ t, exec .servoUpdate s = .next t ∧
      getN O.TIME_STATE t = 1 ∧ getN O.TB_STEP_GEN t = (getN O.TB_STEP_GEN s + 1) % 2 ^ objBits O.TB_STEP_GEN ∧
      timeBase t = ((timeBase s : Int) + err).toNat % 2 ^ 96 ∧ ∀ c < 8, (getCar c t).tt.n = 0)) ∧
  (∀ s : State, let sec := timeSec s
    (getCar 0 s).records = [] ∨ getN O.LEDGER_TICK s < sec →
    ∃ t, exec .secondTick s = .next t ∧ timeBase t = timeBase s ∧ .ppsOut ∈ t.sent ∧
      (∀ c < 8, (getCar c t).records = ((getCar c s).records ++ [ledgerRecord sec (getCar c s).ledger]).drop
        ((getCar c s).records.length - 63)) ∧
      ((getCg 0x60 s).cgState ≠ 2 → getN O.LEDGER_TICK t = sec) ∧
      ((getCg 0x60 s).cgState = 2 → (getCg 0x60 t).cgState = 0)) ∧
  (∀ (w : ObjWrite) (s : State), ownCheck w.sess O.TS_SET (.num w.value) s = 0 →
    (getN O.TIME_SRC s = 0 → ∃ t, exec (.tsSet w) s = .next t ∧ t.sent = s.sent ++ [.writeAnswer w.sess O.TS_SET 0] ∧
      timeBase t = (w.value / 2 ^ 32 * 1000000000 + w.value % 2 ^ 32) * 65536 % 2 ^ 96 ∧ t.time.adj = s.time.adj ∧
      getN O.TB_STEP_GEN t = (getN O.TB_STEP_GEN s + 1) % 2 ^ objBits O.TB_STEP_GEN) ∧
    (getN O.TIME_SRC s ≠ 0 → exec (.tsSet w) s = .next (emit (.writeAnswer w.sess O.TS_SET 0x30) s))) ∧
  ∀ s : State,
    (∃ t, exec .ref10mPresent s = .next t ∧ bitOf (getN O.TIME_FLAGS t) 11 = true ∧
      bitOf (getN O.TIME_FLAGS t) 10 = (getN O.TS_10M_EN s == 1) ∧ s.sameBeyondDict t) ∧
    (∃ t, exec .ref10mLost s = .next t ∧ bitOf (getN O.TIME_FLAGS t) 11 = false ∧ bitOf (getN O.TIME_FLAGS t) 10 = false ∧
      (bitOf (getN O.TIME_FLAGS s) 11 = true → s.logged t 0x6004 1) ∧
      (bitOf (getN O.EMERG_FLAGS s) 10 = false → s.sameBeyondDict t)) ∧
    ∃ t, exec .ppsPulse s = .next t ∧ t.time.ppsEdges = (s.time.clocks :: s.time.ppsEdges).take 3 ∧ timeBase t = timeBase s ∧
      getN O.TS_PPS_TOD t = (if s.time.ppsTodSet then (getN O.TS_PPS_TOD s + 1) % 2 ^ 48 else getN O.TS_PPS_TOD s) ∧
      { t with time := s.time, dict := s.dict } = s

/-- R410, R412, R414, R415: a window's close publishes every carrier's counts and means and starts a new window; a settled delay step makes
the new path the reference; CALIBRATE measures, and its end sets A_c or is refused; CLEAR, ACCEPT and a write set A_c and its state; a
master answers a delay request, a slave forms its offset; both answer on their fabric port. -/
def Obligations.TimeTransferAndPtp : Prop :=
  (∀ s : State, ∃ t, exec .ttWindow s = .next t ∧ ∀ c < 8, let x := (getCar c s).tt
    let f := meanPs x.sumF x.n
    let r := meanPs x.sumR x.n
    getN (O.TT_SAMPLES + c) t = x.n ∧ (getCar c t).tt.n = 0 ∧ (getCar c t).tt.sumF = 0 ∧ (getCar c t).tt.sumR = 0 ∧
    (x.n ≠ 0 → getN (O.TT_RTT_PS + c) t = (meanPs x.sumRtt x.n).toNat ∧ getN (O.TT_FWD_PS + c) t = ofSigned 64 f ∧
      getN (O.TT_REV_PS + c) t = ofSigned 64 r ∧ getN (O.TT_OFS_PS + c) t = ofSigned 64 ((f - r - getI (O.TT_ASYM_PS + c) s) / 2))) ∧
  (∀ (c : Fin 8) (s : State), let x := getCar c.val s
    (x.tt.held = false → exec (.delaySettleExpiry c) s = .next s) ∧
    (x.tt.held = true → ∃ t, exec (.delaySettleExpiry c) s = .next t ∧ (getCar c.val t).tt.held = false ∧
      (getCar c.val t).tt.refs = x.tt.pendingRefs ∧ s.logged t 0x6012 (c.val * 2 ^ 56)) ∧
    let a := meanPs x.tt.calSum x.tt.calN
    (x.tt.calOn = true →
      (calAllowed false c.val s = true → 1000000 ≤ x.tt.calN → -2147483648 ≤ a → a ≤ 2147483647 →
        ∃ t, exec (.calibrationEnd c) s = .next t ∧ getI (O.TT_ASYM_PS + c.val) t = a ∧ getN (O.TT_ASYM_STATE + c.val) t = 2 ∧
          s.logged t 0x6020 (c.val * 2 ^ 56 + ofSigned 32 a)) ∧
      (calAllowed false c.val s = true → x.tt.calN < 1000000 → ∃ t, exec (.calibrationEnd c) s = .next t ∧ t.dict.objs = s.dict.objs ∧
        s.logged t 0x6021 (c.val * 2 ^ 56 + 2)))) ∧
  (∀ (sess : Fin 73) (wide : Bool) (target : Fin 8) (s : State), let cs := calTargets wide target.val s
    let answer (e : Nat) : List Sent := s.sent ++ [.writeAnswer sess.val O.TT_CAL_CMD e]
    (ownCheck sess.val O.TT_CAL_CMD (.num (calCode 1 wide target.val)) s = 0 →
      (calAllowed wide target.val s = true → ∃ t, exec (.calibrate sess wide target) s = .next t ∧ t.sent = answer 0 ∧
        { t with line := s.line, sent := s.sent } = s ∧ ∀ c ∈ cs, (getCar c t).tt =
          { (getCar c s).tt with calOn := true, calSum := 0, calN := 0 }) ∧
      (calAllowed wide target.val s = false → ∃ t, exec (.calibrate sess wide target) s = .next t ∧ t.sent = answer 0x30 ∧
        t.line = s.line ∧ ∀ c ∈ cs, s.logged t 0x6021 (c * 2 ^ 56 + 1))) ∧
    (ownCheck sess.val O.TT_CAL_CMD (.num (calCode 2 wide target.val)) s = 0 → ∃ t, exec (.asymClear sess wide target) s = .next t ∧
      t.sent = answer 0 ∧ s.sameBeyondDict t ∧ ∀ c ∈ cs, getN (O.TT_ASYM_PS + c) t = 0 ∧ getN (O.TT_ASYM_STATE + c) t = 0) ∧
    (ownCheck sess.val O.TT_CAL_CMD (.num (calCode 3 wide target.val)) s = 0 → ∃ t, exec (.accept sess wide target) s = .next t ∧
      t.sent = answer 0 ∧ t.line = s.line ∧ ∀ c ∈ cs, getN (O.TT_ASYM_STATE + c) t = 1 ∧
        let a := getI (O.TT_ASYM_PS + c) s + (getCar c s).tt.lastStep.1 - (getCar c s).tt.lastStep.2
        (-2147483648 ≤ a → a ≤ 2147483647 → getI (O.TT_ASYM_PS + c) t = a))) ∧
  (∀ (c : Fin 8) (w : ObjWrite) (s : State), ownCheck w.sess (O.TT_ASYM_PS + c.val) (.num w.value) s = 0 →
    ∃ t, exec (.ttAsymPs c w) s = .next t ∧ t.sent = s.sent ++ [.writeAnswer w.sess (O.TT_ASYM_PS + c.val) 0] ∧
      getN (O.TT_ASYM_PS + c.val) t = w.value ∧ getN (O.TT_ASYM_STATE + c.val) t = 1 ∧ s.sameBeyondDict t) ∧
  ∀ (port : Fin 16) (domain : Nat) (s : State), let k := port.val
    let p := getPtp k s
    bitOf (getN O.PTP_PORTS s) k = true → domain = getN O.PTP_DOMAIN s → procUp 4 s = true →
    (∀ r, bitOf (getN O.PTP_MASTER s) k = true →
      exec (.ptpMessage port domain (.delayReq r)) s =
        .next (fabSend ⟨k, false, clsCtrl, .ptpSend k (.delayResp r (timeBase s))⟩ s)) ∧
    (bitOf (getN O.PTP_MASTER s) k = false →
      (∀ rank cc, (p.slave = true → rank ≤ p.rank) → exec (.ptpMessage port domain (.announce rank cc)) s =
        .next (setPtp k { p with slave := true, rank := rank, clockClass := cc } s)) ∧
      (∀ o, p.slave = true → ∃ u, exec (.ptpMessage port domain (.sync o false)) s =
          .next (fabSend ⟨k, false, clsCtrl, .ptpSend k (.delayReq k)⟩ u) ∧
        (getPtp k u).offset = some ((timeBase s : Int) - o - p.delay) ∧ { u with time := s.time } = s) ∧
      (∀ (t1 t4 : Nat), p.slave = true → p.t1 = some t1 → let d : Int := (((p.t2 : Int) - t1) + ((t4 : Int) - p.t3)) / 2
        exec (.ptpMessage port domain (.delayResp k t4)) s =
          .next (setPtp k { p with delay := d, offset := some ((p.t2 : Int) - t1 - d) } s)))
/-! ### The crier and protection -/

/-- R418 to R422, R424: a heartbeat goes out on every link that carries crier traffic, with the next SEQ; a valid one ends or starts a
suspicion by its FAILED bit, and one that names the own place displaces a waiting gateway; missed heartbeats start a suspicion; too few
members heard fences a serving member; the failure of one lane of a link halves it, that of both takes it down. -/
def Obligations.HeartbeatsAndSuspicion : Prop :=
  (∀ s : State, crierRuns s = true → ∃ t, exec .heartbeatSend s = .next t ∧ { t with sent := s.sent, crier := s.crier } = s ∧
    { t.crier with seq := s.crier.seq } = s.crier ∧
    t.sent = s.sent ++ ((List.range 8).filter fun i => crierLink i s).map fun i =>
      .heartbeat i (heartbeatWord ((smGet (fun _ => 0) i s.crier.seq + 1) % 65536) s)) ∧
  (∀ (link : Fin 8) (w : BitVec 64) (s : State), let p := linkPlace link.val s
    let sym := w.toNat
    let fits : Prop := crc8 (bytesBE 7 (sym / 256)) = sym % 256 ∧ field sym 63 48 = getN O.BG_GROUP_ID s ∧ field sym 47 44 = p
    crierRuns s = true → crierLink link.val s = true →
    ((field sym 63 48 ≠ getN O.BG_GROUP_ID s ∨ field sym 47 44 ≠ p) →
      exec (.heartbeat link w) s = .next (addN (O.CR_HB_MISSED + link.val) 1 s)) ∧
    (fits → p ≠ 8 → s.crier.spareServes ≠ some p → ∃ t, exec (.heartbeat link w) s = .next t ∧ bitOf t.crier.current p = true ∧
      bitOf (getN O.CR_SUSPECT t) p = bitOf sym 15 ∧ t.line = s.line ∧ t.devState = s.devState ∧
      (bitOf sym 15 = true → suspected p s = false → s.logged t 0x8801 (p * 256 + 2)) ∧
      (bitOf sym 15 = false → suspected p s = true → s.logged t 0x8802 (p * 256))) ∧
    (fits → p = 8 → bitOf sym 15 = false → field sym 43 40 = getN O.BG_PLACE s → s.devState = .ready → getN O.CR_STATE s = 1 →
      getN O.BG_PLACE s ≠ 15 →
      ∃ t, exec (.heartbeat link w) s = .next t ∧ getN O.CR_STATE t = 5 ∧ t.crier.spareServes = some (getN O.BG_PLACE s) ∧
        s.logged t 0x8806 (getN O.BG_PLACE s))) ∧
  (∀ (place : Fin 9) (s : State) (i : Nat), crierRuns s = true → fitted place.val s = true → linkOf place.val s = some i →
    ∃ t, exec (.heartbeatMissExpiry place) s = .next t ∧ bitOf t.crier.current place.val = false ∧
      getN (O.CR_HB_MISSED + i) t = (getN (O.CR_HB_MISSED + i) s + getN O.CR_MISS_N s) % 2 ^ objBits (O.CR_HB_MISSED + i) ∧
      (s.crier.spareServes ≠ some place.val → suspected place.val s = false → suspected place.val t = true ∧
        s.logged t 0x8801 (place.val * 256 + 1) ∧
        (place.val ≠ 8 → fitted 8 s = false → s.logged t 0x8804 (place.val * 256 + 1))) ∧
      (∀ v, place.val = 8 → s.crier.spareServes = some v → v < 8 → v ≠ getN O.BG_PLACE s → fitted v s = true → suspected v t = true)) ∧
  (∀ (heard : Nat) (s : State), guarded s = true → (s.devState = .service ∨ s.devState = .lineHold) →
    ((otherMembers heard s).length < bgMajority s → ∃ t, exec (.isolationFence heard) s = .next t ∧ t.devState = .safe ∧
      t.crier.fencedSelf = true ∧ getN O.CR_STATE t = 4 ∧ s.logged t 0x8805 1) ∧
    (bgMajority s ≤ (otherMembers heard s).length → exec (.isolationFence heard) s = .next s)) ∧
  ∀ (link : Fin 8) (s : State), let k := getN (O.BL_STATUS + link.val) s
    (k = 2 → ∃ t, exec (.blLaneFail link) s = .next t ∧ getN (O.BL_STATUS + link.val) t = 3 ∧ s.logged t 0x8808 link.val ∧
      s.sameBeyondDict t) ∧
    (k = 3 → ∃ t, exec (.blLaneFail link) s = .next t ∧ getN (O.BL_STATUS + link.val) t = 0 ∧ s.logged t 0x3052 link.val ∧
      { t with dict := s.dict, sent := s.sent, host := s.host } = s ∧
      t.host = { s.host with blTxWait := s.host.blTxWait.filter (·.1 != link.val) }) ∧
    (k < 2 → exec (.blLaneFail link) s = .next s)

/-- R426 to R429: a crier message that fits and is for this gateway is taken: suspicions of others start and end, PROMOTE fences the place it
names and tells the others whom the spare serves, WITHDRAW takes that back, FENCED and REPORT are recorded; one that does not fit is only
counted. A message leaves once it has a control crate (R228), and waits for one until then. A working gateway sends REPORT to the spare; a
place profile is kept by the spare alone. -/
def Obligations.CrierMessages : Prop :=
  (∀ (link : Fin 8) (msg : List Byte) (s : State), let i := link.val
    let src := linkPlace i s
    let p (b : List Byte) : Nat := natOfBE (b.take 1)
    crierRuns s = true → crierLink i s = true →
    ((crierBody i 1 16 msg s = none → exec (.suspect link msg) s = .next (missedOn i s)) ∧
      (crierBody i 2 16 msg s = none → exec (.clear link msg) s = .next (missedOn i s)) ∧
      (crierBody i 3 16 msg s = none → exec (.promote link msg) s = .next (missedOn i s)) ∧
      (crierBody i 4 16 msg s = none → exec (.fenced link msg) s = .next (missedOn i s)) ∧
      (crierBody i 5 112 msg s = none → exec (.crierReport link msg) s = .next (missedOn i s)) ∧
      (crierBody i 6 16 msg s = none → exec (.withdraw link msg) s = .next (missedOn i s))) ∧
    (crierForMe msg s = true →
      (∀ b, crierBody i 1 16 msg s = some b → ∃ t, exec (.suspect link msg) s = .next t ∧
        smGet (fun _ => 0) (p b) t.crier.suspectedBy = setBit (smGet (fun _ => 0) (p b) s.crier.suspectedBy) src ∧
        { t with crier := s.crier, dict := s.dict } = s ∧ getN O.CR_SUSPECT t = getN O.CR_SUSPECT s) ∧
      (∀ b, crierBody i 2 16 msg s = some b → ∃ t, exec (.clear link msg) s = .next t ∧ { t with crier := s.crier } = s ∧
        smGet (fun _ => 0) (p b) t.crier.suspectedBy = clrBit (smGet (fun _ => 0) (p b) s.crier.suspectedBy) src) ∧
      (∀ b, crierBody i 3 16 msg s = some b → (p b = getN O.BG_PLACE s → s.devState = .ready → ∃ t, exec (.promote link msg) s = .next t ∧
          t.devState = .safe ∧ t.crier.fencedSelf = true ∧ getN O.CR_STATE t = 4 ∧ s.logged t 0x8805 2) ∧
        (p b ≠ getN O.BG_PLACE s → ∃ t, exec (.promote link msg) s = .next t ∧ t.crier = { s.crier with spareServes := some (p b) } ∧
          getN O.CR_PROMO_GEN t = natOfBE ((b.drop 2).take 2) ∧ { t with crier := s.crier, dict := s.dict } = s)) ∧
      (∀ b, crierBody i 4 16 msg s = some b → ∃ t h, exec (.fenced link msg) s = .next t ∧ { t with crier := s.crier } = s ∧
        smGet (fun _ => none) src t.crier.lastHb = some h ∧ h.fenced = true) ∧
      (∀ b, crierBody i 5 112 msg s = some b → isSpareGw s = true → ∃ t, exec (.crierReport link msg) s = .next t ∧
        { t with crier := s.crier } = s ∧ smGet (fun _ => none) src t.crier.reports = some (s.time.clocks, msg)) ∧
      (∀ b, crierBody i 6 16 msg s = some b → ∃ t, exec (.withdraw link msg) s = .next t ∧ t.crier.spareServes ≠ some (p b) ∧
        getN O.CR_PROMO_GEN t = natOfBE ((b.drop 2).take 2) ∧ { t with crier := s.crier, dict := s.dict } = s))) ∧
  (∀ s : State, (∀ i, isSpareGw s = false → crierRuns s = true → linkOf 8 s = some i → crierLink i s = true →
      exec .reportSend s = .next (crierSend i (crierFrame 5 8 (reportBody s) s) s)) ∧
    (isSpareGw s = true → exec .reportSend s = .next s)) ∧
  (∀ (i : Nat) (msg : List Byte) (s : State), let t := crierSend i msg s
    let q : CrateReq := { size := msg.length, loc := 3, prio := 1, spill := true, nowait := false, die := 0, owner := 0x3000, tenant := 0 }
    (∀ h u, tryCrate q s = (.served h, u) → t.sent = s.sent ++ [.crierMsg i msg]) ∧
    (∀ cls u, tryCrate q s = (.wait cls, u) → t = { s with pools := { s.pools with waiting := s.pools.waiting ++ [⟨cls, q, .crier i msg⟩] } })) ∧
  ∀ (place : Fin 8) (w : BlobWrite) (s : State), let key := O.PLACE_PROFILE + place.val
    ownCheck w.sess key (.bytes w.bytes) s = 0 →
    (isSpareGw s = false → exec (.placeProfile place w) s = .next (emit (.writeAnswer w.sess key 0x19) s)) ∧
    (isSpareGw s = true → profItems (w.bytes.length / 8 + 1) w.bytes = none →
      exec (.placeProfile place w) s = .next (emit (.writeAnswer w.sess key 0x13) s)) ∧
    (profileCheck w.sess w.bytes s = 0 → exec (.placeProfile place w) s =
      .next (emit (.writeAnswer w.sess key 0) (setB key w.bytes s)))

/-- R421, R428, R431 to R438: a vote that carries promotes the READY spare: PROMOTE goes to every member, at once or as it gets a crate, and
the shuffle is driven; one short of the majority, or of a place that did not serve, is logged; SHUF_ACK brings SERVICE, its absence the
withdrawal; PROMOTED is repeated until its ACK and answered three times by the far end; a release gives the place back. -/
def Obligations.PromotionAndRelease : Prop :=
  (∀ (place : Fin 8) (s : State), let p := place.val
    isSpareGw s = true → crierRuns s = true → fitted p s = true → getN O.CR_ADOPTED_PLACE s = 0xFF → bitOf s.crier.givenUp p = false →
    suspected p s = true → bitOf s.crier.current p = false →
    (suspecters p s + 1 < bgMajority s → exec (.voteConfirmExpiry place) s = .next (logEvent 0x8804 (p * 256 + 4) s)) ∧
    (bgMajority s ≤ suspecters p s + 1 → 3 ≤ bgCount s →
      (s.devState ≠ .ready → exec (.voteConfirmExpiry place) s = .next (logEvent 0x8804 (p * 256 + 6) s)) ∧
      (s.devState = .ready → featActive 0 s = true → ∀ h, smGet (fun _ => none) p s.crier.lastHb = some h →
        (h.serving = false → exec (.voteConfirmExpiry place) s = .next (logEvent 0x8804 (p * 256 + 5) s)) ∧
        (h.serving = true → let gen := (getN O.CR_PROMO_GEN s + 1) % 65536
          ∃ t, exec (.voteConfirmExpiry place) s = .next t ∧ t.crier.waitingAck = true ∧ t.crier.shufSel = 2 ^ p ∧
            t.crier.genBefore = getN O.CR_PROMO_GEN s ∧
            (∀ i < 8, crierLink i s = true → let msg := crierFrame 3 0xF (promoteBody p gen) s
              .crierMsg i msg ∈ t.sent ∨ ∃ w ∈ t.pools.waiting, w.waiter = .crier i msg) ∧
            (getB (O.PLACE_PROFILE + p) s = [] → getN O.CR_ADOPTED_PLACE t = p ∧ getN O.SHUF_STATE t = 2 ^ p ∧
              getN O.CR_PROMO_GEN t = gen))))) ∧
  (∀ s : State,
    (s.crier.waitingAck = true →
      (∃ u, exec .shufAck s = .next (lineSettle u) ∧ u.devState = .service ∧ getN O.CR_STATE u = 3 ∧
        getN O.SHUF_STATE u = 256 + s.crier.shufSel ∧ u.crier.waitingAck = false ∧ u.crier.served = true ∧
        u.crier.unacked = (List.range 4).filter fun n => lpCarriers n s ≠ 0) ∧
      ∃ u, exec .shufAckTimeout s = .next (lineSettle u) ∧ u.crier.waitingAck = false ∧ u.crier.shufSel = 0 ∧
        s.logged u 0x8821 (getN O.CR_ADOPTED_PLACE s) ∧
        u.crier.givenUp = setBit s.crier.givenUp (getN O.CR_ADOPTED_PLACE s) ∧
        (s.crier.saved = [] → getN O.CR_ADOPTED_PLACE u = 0xFF ∧ getN O.SHUF_STATE u = 0 ∧ getN O.CR_PROMO_GEN u = s.crier.genBefore) ∧
        ∀ n < 4, (getPort n u).tx0 = KeySlot.empty ∧ (getPort n u).tx1 = KeySlot.empty ∧ (getPort n u).rx0 = KeySlot.empty ∧
          (getPort n u).rx1 = KeySlot.empty) ∧
    (s.crier.waitingAck = false → exec .shufAck s = .next (setObjBit O.SHUF_STATE 8 true s) ∧ exec .shufAckTimeout s = .next s) ∧
    (getN O.CR_STATE s = 3 → ∃ t, exec .promotionRelease s = .next t ∧ getN O.CR_STATE t = 2 ∧ getN O.CR_ADOPTED_PLACE t = 0xFF ∧
      t.crier.shufSel = 0 ∧ t.crier.unacked = [] ∧ (s.devState = .service → t.devState = .ready)) ∧
    (getN O.CR_STATE s ≠ 3 → exec .promotionRelease s = .next s)) ∧
  ∀ (c : Fin 8) (m : CrierMsg) (s : State) (n : Nat), portOfCar c.val s = some n →
    (getN O.CR_STATE s = 3 → n ∈ s.crier.unacked → carSends c.val s = true → (getCar c.val s).fa = 2 →
      (s.crier.promoLogged = true → exec (.promotedSend c) s = .next (setCar c.val { getCar c.val s with crierDue := true } s)) ∧
      (s.crier.promoLogged = false → ∃ t, exec (.promotedSend c) s = .next t ∧ t.crier = { s.crier with promoLogged := true } ∧
        t.line = (setCar c.val { getCar c.val s with crierDue := true } s).line ∧
        (let us := (s.time.clocks - s.crier.promoSince) / 1250 % 2 ^ 32
         getN O.CR_PROMO_TIME_US t = us ∧ s.logged t 0x8803 (getN O.CR_ADOPTED_PLACE s * 2 ^ 56 + us)))) ∧
    (let ack : CrierMsg := { m with clType := 2 }
     ((getPort n s).promotedTaken = some m.gen → ∃ t, exec (.promoted c m) s = .next t ∧ (getPort n t).promotedTaken = some m.gen ∧
        (getPort n t).crierQ = (getPort n s).crierQ ++ [ack, ack, ack] ∧ { t with line := s.line } = s) ∧
      ((getPort n s).promotedTaken ≠ some m.gen → ∃ u, exec (.promoted c m) s = .next (settle u) ∧
        (getPort n u).promotedTaken = some m.gen ∧ s.logged u 0x8807 (n * 2 ^ 56 + m.gen))) ∧
    (n ∈ s.crier.unacked → ∃ t, exec (.promotedAck c m) s = .next t ∧ t.crier.unacked = s.crier.unacked.filter (· ≠ n) ∧
      ∀ k ∈ carsOf n s, (getCar k t).crierDue = false) ∧
    (n ∉ s.crier.unacked → exec (.promotedAck c m) s = .next (laneCount c.val s))

/-- R440 to R444: FORCE_OUT and CLEAR_FORCE change the carriers that are forced out; LOCKOUT and CLEAR_LOCKOUT act on the two ports of a
pair and on no other; when a carrier's wait to restore ends its hold ends; a port that has been without carriers for its time is withdrawn. -/
def Obligations.ProtectionCommands : Prop :=
  (∀ (sess : Fin 73) (mask : Fin 256) (s : State), let answer (u : State) := emit (.writeAnswer sess.val O.PROT_CMD 0) u
    (ownCheck sess.val O.PROT_CMD (.num (256 + mask.val)) s = 0 →
      ∃ u, exec (.forceOut sess mask) s = .next (answer (lineSettle u)) ∧ { u with line := s.line } = s ∧
        ∀ n < 4, (getPort n u).forced = ((getPort n s).forced ||| mask.val) &&& lpCarriers n s) ∧
    (ownCheck sess.val O.PROT_CMD (.num (512 + mask.val)) s = 0 →
      ∃ u, exec (.clearForce sess mask) s = .next (answer (lineSettle u)) ∧ { u with line := s.line } = s ∧
        ∀ n < 4, (getPort n u).forced = (getPort n s).forced &&& (255 - mask.val))) ∧
  (∀ (sess : Fin 73) (port : Fin 4) (s : State), let answer (e : Nat) (u : State) := emit (.writeAnswer sess.val O.PROT_CMD e) u
    let locked (b : Bool) (m : Nat) (u : State) : Prop := { u with line := s.line } = s ∧
      ∀ n < 4, (getPort n u).lockoutCmd = if n = port.val ∨ n = m then b else (getPort n s).lockoutCmd
    (ownCheck sess.val O.PROT_CMD (.num (768 + port.val)) s = 0 →
      (∀ m, pairOf port.val s = some (port.val, m) → ∃ u, exec (.lockout sess port) s = .next (answer 0 (lineSettle u)) ∧ locked true m u) ∧
      (pairOf port.val s = none → exec (.lockout sess port) s = .next (answer 0x14 s))) ∧
    (ownCheck sess.val O.PROT_CMD (.num (1024 + port.val)) s = 0 →
      (∀ m, pairOf port.val s = some (port.val, m) → ∃ u, exec (.clearLockout sess port) s = .next (answer 0 (lineSettle u)) ∧
        locked false m u) ∧
      (pairOf port.val s = none → exec (.clearLockout sess port) s = .next (answer 0x14 s)))) ∧
  (∀ (c : Fin 8) (s : State), exec (.wtrExpiry c) s =
    .next (lineSettle (setCar c.val { getCar c.val s with sfHold := false } s))) ∧
  ∀ (port : Fin 4) (s : State),
    ((getPort port.val s).withdrawn = false → mayWithdraw port.val s = true → ∃ u, exec (.portWithdrawExpiry port) s =
      .next (settle (lineSettle u)) ∧ (∀ k ∈ pairPorts port.val s, (getPort k u).withdrawn = true) ∧
      s.logged u 0x8812 (workingPort port.val s * 2 ^ 56 + 1)) ∧
    (mayWithdraw port.val s = false → exec (.portWithdrawExpiry port) s = .next (settle (lineSettle s)))
/-! ### The local fabric, RDMA, the management port and the host -/

/-- A board link's receive FIFO at rest: empty, at a packet boundary, both sides seeing both pointers. -/
def Sys2Proof.Machine.Fifo.atRest (f : Fifo) : Prop :=
  f.words = [] ∧ f.part = [] ∧ f.midPacket = false ∧ f.dropping = false ∧ f.overrun = false ∧ f.rdSeen = f.rd ∧ f.wrSeen = f.wr ∧
  f.wr = f.rd ∧ f.wr < 128

/-- R10, R420, R452 to R455, R462, R463: a port that locks is UP; one that loses a lane is DOWN, and what it carries moves to its partner where
that is UP; it takes its identity back at failback. What a queue pair sends waits while its class is paused, and leaves when that ends. A board
link comes up with the exchange and check of both ends, and goes down. Messages of the board group are sent to a fitted place and the last 16
received are kept; one that meets a full FIFO is lost and counted, and one whose first word is poisoned is not delivered. -/
def Obligations.FabricPortsAndBoardLinks : Prop :=
  (∀ (port : Fin 16) (s : State), let k := port.val
    let x := getFab k s
    let fallen (u : Nat) : FabricPort := { x with lst := 3, downs := (x.downs + 1) % 2 ^ 32, paused := 0, uncorr := (x.uncorr + u) % 2 ^ 64 }
    let announced (p ids : Nat) (t : State) : Prop := ∀ j ∈ bitsSet 16 ids, let mac := getN (O.LF_PORT_MAC + j) s
      (getN (O.LF_PORT_IPV4 + j) s / 2 ^ 32 ≠ 0 → .arpAnnounce p mac (getN (O.LF_PORT_IPV4 + j) s / 2 ^ 32) ∈ t.sent) ∧
      (getB (O.LF_PORT_IPV6 + j) s ≠ [] → .neighbourAdvert p mac (natOfBE ((getB (O.LF_PORT_IPV6 + j) s).take 16)) ∈ t.sent)
    (fabExists k s = true → fabFenced k s = false → (x.lst = 1 ∨ x.lst = 3 ∨ x.lst = 4) →
      (∃ t, exec (.portUp port) s = .next t ∧ (getFab k t).lst = 2 ∧ (getFab k t).paused = 0 ∧ s.logged t 0x3001 k ∧
        { t with host := s.host, dict := s.dict, sent := s.sent, fabWait := s.fabWait } = s) ∧
      ∀ lane, exec (.portBringupTimeout port lane) s =
        .next (logEvent 0x3002 (k * 256 + lane.val) (setFab k { x with retried := true } s))) ∧
    (x.lst = 2 → exec (.portUp port) s = .next s ∧
      (∀ lane u, fabPartner k s = none → exec (.portDown port ⟨lane, u⟩) s =
        .next (logEvent 0x3002 (k * 256 + lane.val) (fabLose k (setFab k (fallen u) s)))) ∧
      (∀ lane u p, fabPartner k s = some p → (getFab p s).lst = 2 → x.serving ≠ 0 → ∃ t, exec (.portDown port ⟨lane, u⟩) s = .next t ∧
        getFab k t = { fallen u with lst := 4, serving := 0 } ∧ (getFab p t).serving = (getFab p s).serving ||| x.serving ∧
        s.logged t 0x3002 (k * 256 + lane.val) ∧ s.logged t 0x3003 (k * 256 + p) ∧ announced p x.serving t) ∧
      (∀ p, fabCarrier k s = some p → p ≠ k → ∃ t, exec (.failback port) s = .next t ∧
        getFab k t = { x with serving := setBit x.serving k } ∧ (getFab p t).serving = clrBit (getFab p s).serving k ∧
        announced k (2 ^ k) t ∧ s.logged t 0x3003 (p * 256 + k)) ∧
      ∀ cls : Fin 2, exec (.pfcPause port cls true) s =
          .next (fabRelease (setFab k { x with paused := putBit x.paused cls.val true } s)) ∧
        ∃ t, exec (.pfcPause port cls false) s = .next t ∧ bitOf (getFab k t).paused cls.val = false ∧
          ∀ w ∈ s.fabWait, w.byId = false → w.port = k → w.cls = cls.val → w.msg ∈ t.sent ∧ w ∉ t.fabWait) ∧
    (x.lst ≠ 2 → (∀ lane u, exec (.portDown port ⟨lane, u⟩) s = .next s) ∧ ∀ cls on, exec (.pfcPause port cls on) s = .next s)) ∧
  (∀ (q p : Nat) (o : Sent) (x : QueuePair) (s : State), findQp q s = some x → fabCarrier x.port s = some p →
    ((getFab p s).lst = 2 → bitOf (getFab p s).paused x.cls = false → qpSend q o s = emit o s) ∧
    (((getFab p s).lst ≠ 2 ∨ bitOf (getFab p s).paused x.cls = true) →
      qpSend q o s = { s with fabWait := s.fabWait ++ [⟨x.port, true, x.cls, o⟩] })) ∧
  (∀ (link : Fin 8) (s : State), let i := link.val
    let key := O.BL_STATUS + i
    (linksRun s = true → getN key s < 2 → s.dev.bist.fenced.contains (62 + i) = false →
      ∀ group place, ∃ t, exec (.boardLinkUp link group place) s = .next t ∧ getN key t = 2 ∧ s.logged t 0x3051 i ∧
        t.sent = s.sent ++ [.linkIdentity i (getN O.BG_GROUP_ID s) (getN O.BG_PLACE s)] ∧ s.sameBeyondDict t ∧
        bitOf (getN O.BL_PEER_FAULT t) i = !(group == getN O.BG_GROUP_ID s && place == linkPlace i s) ∧
        ((group ≠ getN O.BG_GROUP_ID s ∨ place ≠ linkPlace i s) → s.logged t 0x3050 i)) ∧
    (2 ≤ getN key s → ∃ t, exec (.boardLinkDown link) s = .next t ∧ getN key t = 0 ∧ s.logged t 0x3052 i ∧
      t.host = { s.host with blTxWait := s.host.blTxWait.filter (·.1 != i) } ∧ s.sameBeyondDict { t with host := s.host }) ∧
    (getN key s < 2 → exec (.boardLinkDown link) s = .next s) ∧
    (linkUsable i s = true → ∀ body : List Byte, 1 ≤ body.length → body.length ≤ 1024 → let ms := s.host.blMsgs ++ [(linkPlace i s, body)]
      let f := getFifo (0x100 + i) s
      (f.atRest →
        (∃ t, exec (.blMsg link ⟨body, []⟩ []) s = .next t ∧ t.host = { s.host with blMsgs := ms.drop (ms.length - 16) } ∧
          (∀ k, k ≠ 0x100 + i → getFifo k t = getFifo k s) ∧ (getFifo (0x100 + i) t).words = [] ∧
          { t with host := s.host, pools := s.pools, sent := s.sent } = s) ∧
        ∃ t, exec (.blMsg link ⟨body, [0]⟩ []) s = .next t ∧ t.host = s.host) ∧
      (f.writeLevel 64 = 64 → f.overrun = false → f.wrMid = false → f.dropping = false →
        ∃ t, exec (.blMsg link ⟨body, []⟩ (List.replicate 16 [])) s = .next t ∧ t.host = s.host ∧ s.logged t 0x5806 i ∧
          (getFifo (0x100 + i) t).words = f.words ∧
          getN (O.BL_RX_OVERFLOW + i) t = (getN (O.BL_RX_OVERFLOW + i) s + 1) % 2 ^ objBits (O.BL_RX_OVERFLOW + i)))) ∧
  ∀ (w : BlobWrite) (s : State), ownCheck w.sess O.BL_MSG_TX (.bytes w.bytes) s = 0 →
    ((w.bytes.length < 2 ∨ 1024 < w.bytes.length) → exec (.blMsgTx w) s = .next (emit (.writeAnswer w.sess O.BL_MSG_TX 0x14) s)) ∧
    (2 ≤ w.bytes.length → w.bytes.length ≤ 1024 → ∀ i, linkOf (w.bytes.headD 0).toNat s = some i → fitted (linkPlace i s) s = true →
      linkUsable i s = true →
      (bitOf s.pools.fcIn i = false → exec (.blMsgTx w) s =
        .next (emit (.writeAnswer w.sess O.BL_MSG_TX 0) (emit (.blMessage i w.bytes) s))) ∧
      (bitOf s.pools.fcIn i = true → exec (.blMsgTx w) s = .next (emit (.writeAnswer w.sess O.BL_MSG_TX 0)
        { s with host := { s.host with blTxWait := s.host.blTxWait ++ [(i, w.bytes)] } })))

/-- R457 to R461, R470: a CM REQ for a service of Table 17.4 gets a queue pair, another is rejected; a WRITE lands in the shard window and is
acknowledged, a READ answered from it, a request beyond it refused; a marked packet brings a CNP, one in 50 µs at most, and a CNP halves the
rate; a packet of no connection is refused by a promoted spare alone (the NAK codes are the model's, log entry 170). The management port
answers for its own addresses and takes those that DHCP and router advertisements give it. -/
def Obligations.RdmaAndManagementPort : Prop :=
  (∀ (port : Fin 16) (service remote : Nat) (b : DoorBufs) (s : State), let k := port.val
    let svc := serviceOf service
    fabReached k s = true →
    (svc = 0 → exec (.cmReq port service remote b) s = .next (freeNext (fabSend ⟨k, true, clsCtrl, .cmRej k⟩ s))) ∧
    (∀ q, svc ≠ 0 → bitOf (getN O.LF_WIN_PORTS s) k = true → s.host.qps.length < 4096 →
      (s.host.qps.filter fun p => p.2.service == svc).length < serviceLimit svc → (svc ≠ 3 → windowLen s ≠ 0) →
      (svc = 3 → featActive 5 s = true) → newQpn svc s = some q →
      ∃ u x priv, exec (.cmReq port service remote b) s = .next (freeNext (fabSend ⟨k, true, clsCtrl, .cmRep k q priv⟩ u)) ∧
        u.host.qps = s.host.qps ++ [(q, x)] ∧ x.service = svc ∧ x.port = k ∧ getN O.LF_QP_USED u = s.host.qps.length + 1 ∧ u.sent = s.sent ∧
        (svc = 3 → priv = [] ∧ u.host.rkey = s.host.rkey) ∧ (svc ≠ 3 → u.host.rkey = some (windowRkey s) ∧
          priv = bytesBE 4 (windowRkey s) ++ bytesBE 8 (windowLen s) ++ bytesBE 4 (doorQpn s)))) ∧
  (∀ (qp va : Nat) (bytes : List Byte) (len : Nat) (ce : Bool) (s : State),
    (∀ x, findQp qp s = some x → fabReached x.port s = true →
      let u := if ce then ceMarked qp x s else s
      (x.service = 1 → va + bytes.length ≤ windowLen s → exec (.rdmaWrite ⟨qp, ce⟩ va bytes) s =
        .next (qpSend qp (.rdmaAck qp) { u with os := { u.os with window := memWrite va bytes u.os.window } })) ∧
      (((x.service = 1 ∧ windowLen s < va + bytes.length) ∨ x.service = 2) →
        exec (.rdmaWrite ⟨qp, ce⟩ va bytes) s = .next (qpSend qp (.rdmaNak qp nakAccess) u)) ∧
      (x.service = 3 → exec (.rdmaWrite ⟨qp, ce⟩ va bytes) s = .next (qpSend qp (.rdmaAck qp) u)) ∧
      (x.service = 1 → va + len ≤ windowLen s → exec (.rdmaRead ⟨qp, ce⟩ va len) s =
        .next (qpSend qp (.rdmaReadData qp (memRead va len u.os.window)) u)) ∧
      ((x.service ≠ 1 ∨ windowLen s < va + len) → exec (.rdmaRead ⟨qp, ce⟩ va len) s = .next (qpSend qp (.rdmaNak qp nakAccess) u)) ∧
      exec (.rdmaSend ⟨qp, ce⟩ bytes) s = .next (qpSend qp (.rdmaAck qp) u) ∧
      (∀ t, x.cnpSent = some t → s.time.clocks < t + 62500 → u = s) ∧
      ((x.cnpSent = none ∨ ∃ t, x.cnpSent = some t ∧ t + 62500 ≤ s.time.clocks) → ce = true →
        ∃ v, u = qpSend qp (.cnp qp) v ∧ findQp qp v = some { x with cnpSent := some s.time.clocks } ∧ { v with host := s.host } = s)) ∧
    (∀ x, findQp qp s = some x →
      (x.service = 1 → exec (.rcAcknowledgement qp true) s =
        .next { s with os := { s.os with retWaits := s.os.retWaits.filter (· != qp) } }) ∧
      (x.service ≠ 1 → exec (.rcAcknowledgement qp true) s = .next s) ∧ exec (.rcAcknowledgement qp false) s = .next s ∧
      ∃ t, exec (.cnp qp) s = .next t ∧
        findQp qp t = some { x with cnpRate := x.rate s.time.clocks / 2, cnpClk := some s.time.clocks } ∧ { t with host := s.host } = s) ∧
    (findQp qp s = none → getN O.LF_QPN_BASE s ≤ qp → qp ≤ getN O.LF_QPN_BASE s + 4095 →
      (getN O.CR_STATE s = 3 → exec (.rdmaWrite ⟨qp, ce⟩ va bytes) s =
        .next (emit (.rdmaNak qp nakOperational) (addN O.LF_NAK_UNCONNECTED 1 s))) ∧
      (getN O.CR_STATE s ≠ 3 → exec (.rdmaWrite ⟨qp, ce⟩ va bytes) s = .next s))) ∧
  (∀ (a : Nat) (data : List Byte) (s : State), mgmtServed s = true →
    let mac := getN O.MGMT_MAC s % 2 ^ 48
    exec (.mgmtArp a) s = .next (if mgmtHas false a s = true then emit (.mgmtAddress false a mac) s else s) ∧
    exec (.mgmtNeighbourDiscovery a) s = .next (if mgmtHas true a s = true then emit (.mgmtAddress true a mac) s else s) ∧
    (∀ v6, exec (.mgmtIcmpEcho v6 a data) s = .next (if mgmtHas v6 a s = true then emit (.mgmtEcho v6 a data) s else s)) ∧
    (bitOf (getN O.MGMT_IP_FLAGS s) 0 = true → ∀ plen, a < 2 ^ 32 → plen < 256 →
      (∃ t, exec (.dhcpv4Message 5 a plen) s = .next t ∧ mgmtIpv4 t = a ∧ { t with host := s.host } = s) ∧
      ∃ t, exec (.dhcpv4Message 6 a plen) s = .next t ∧ mgmtIpv4 t = 0 ∧ { t with host := s.host } = s) ∧
    (bitOf (getN O.MGMT_IP_FLAGS s) 1 = true → ∃ t, exec (.routerAdvertisement a 64 true) s = .next t ∧
      mgmtIpv6 t / 2 ^ 64 = a / 2 ^ 64 % 2 ^ 64 ∧ { t with host := s.host } = s))

/-- R464 to R467, R472: a doorbell hands a request to the mailbox unless it is BUSY or the length is out of range; the acknowledgements
empty it; ring indices and settings change as Table 17.7 allows, an offset of BAR0 reaches the same registers, and in the part of it that
shows the shard window the window; the next completion goes to a ring with room, and a transfer's segments are sent again as its far end
asks, or it ends; a function's reset, the loss of the link and the enabling of VFs. -/
def Obligations.HostRegistersAndFunctions : Prop :=
  (∀ (fn : Fin 256) (v : Nat) (s : State), let b := getBox (fnSess fn.val) s
    let counted : State := addN O.HOST_RING_ERRS 1 s
    fnLive fn.val s = true →
    (b.busy = false → 16 ≤ v → v ≤ 4096 → exec (.mbDoorbell fn v) s = .next (setBox (fnSess fn.val) { b with busy := true, reqLen := v } s)) ∧
    ((b.busy = true ∨ v < 16 ∨ 4096 < v) → exec (.mbDoorbell fn v) s = .next counted) ∧
    (v % 2 = 1 → exec (.respAck fn v) s = .next (setBox (fnSess fn.val) { b with respReady := false } s) ∧
      exec (.noteAck fn v) s = .next (setBox (fnSess fn.val) { b with noteReady := false } s)) ∧
    (v % 2 = 0 → exec (.respAck fn v) s = .next s ∧ exec (.noteAck fn v) s = .next s) ∧
    exec (.registerWrite fn 0 v) s = exec (.mbDoorbell fn v) s ∧ exec (.registerWrite fn 8 v) s = exec (.respAck fn v) s ∧
    exec (.registerWrite fn 0xC v) s = exec (.noteAck fn v) s ∧
    ∀ ring : Fin 32, ring.val < fnRings fn.val → let r := getRing (ringKey fn.val ring.val) s
      let put (y : Ring) : State := setRing (ringKey fn.val ring.val) y s
      let base := 0x10000 + ring.val * 0x100
      let w := ringCtrlMask fn.val v
      (r.on = true → v < r.size → exec (.subTail fn ring v) s = .next (put { r with subTail := v }) ∧
        exec (.compHead fn ring v) s = .next (put { r with compHead := v })) ∧
      ((r.on = false ∨ r.size ≤ v) → exec (.subTail fn ring v) s = .next counted ∧ exec (.compHead fn ring v) s = .next counted) ∧
      ((bitOf w 0 = false ∨ (ringCtrlOk fn.val w = true ∧ (r.on = false ∨ r.ctrl = w))) →
        exec (.ringCtrl fn ring v) s = .next (put { r with ctrl := w })) ∧
      (bitOf w 0 = true → (ringCtrlOk fn.val w = false ∨ (r.on = true ∧ r.ctrl ≠ w)) → exec (.ringCtrl fn ring v) s = .next counted) ∧
      exec (.registerWrite fn (base + 0x20) v) s = exec (.ringCtrl fn ring v) s ∧
      exec (.registerWrite fn (base + 0x24) v) s = exec (.subTail fn ring v) s ∧
      exec (.registerWrite fn (base + 0x2C) v) s = exec (.compHead fn ring v) s ∧
      (r.on = false → v % 4096 = 0 → v < 2 ^ 64 → exec (.registerWrite fn base v) s = .next (put { r with subBase := v }) ∧
        exec (.registerWrite fn (base + 8) v) s = .next (put { r with compBase := v }))) ∧
  (∀ (fn : Fin 256) (off v : Nat) (w : Bool × Nat) (s : State), fnLive fn.val s = true → fn.val = fnPf → 0x12000 ≤ off → off < fnBar fnPf →
    Config.hostWindow off = some w → exec (.registerWrite fn off v) s = .next (hostWindowWrite w.1 w.2 v s)) ∧
  (∀ (fn : Fin 256) (ring : Fin 32) (s : State), let mine (d : JobDone) : Bool := d.src.fn == fn.val && d.src.ring == ring.val
    let k := ringKey fn.val ring.val
    let r := getRing k s
    (∀ d, s.host.done.find? mine = some d → r.hasRoom = true → fnLive fn.val s = true → let tail := (r.compTail + 1) % r.size
      ∃ t, exec (.jobCompletion fn ring none) s = .next t ∧ getRing k t = { r with compTail := tail } ∧
        t.host.done.length + 1 = s.host.done.length ∧
        t.sent = s.sent ++ [.hostWrite fn.val (r.compBase + 32 * r.compTail) d.bytes, .hostWrite fn.val r.tailWb (bytesLE 8 tail),
          .interrupt fn.val (field r.ctrl 23 16)]) ∧
    (s.host.done.find? mine = none ∨ r.hasRoom = false → exec (.jobCompletion fn ring none) s = .next s) ∧
    ∀ (e : XferEnd) (x : XferOut),
      s.host.xferOut.find? (fun y => y.site == e.site && y.number == e.number && y.src.fn == fn.val && y.src.ring == ring.val) = some x →
      (∀ o n, e.again = some (o, n) → exec (.jobCompletion fn ring (some e)) s = .next (completeNext fn.val ring.val (xferResend x o n s))) ∧
      (e.again = none → exec (.jobCompletion fn ring (some e)) s = .next (completeNext fn.val ring.val
        (if e.confirmed then xferOutEnds x 0 0 s else xferOutEnds x 1 ccChunkLoss s)))) ∧
  (∀ (fn : Fin 256) (s : State), getN O.HOST_LINK s ≠ 0 → (fn.val = fnPf ∨ (vfTenantOf fn.val s).isSome) →
    ∃ t, exec (.functionLevelReset fn) s = .next t ∧ s.logged t 0x3802 fn.val ∧ getBox (fnSess fn.val) t = Mailbox.new0 ∧
      (∀ ring < 32, getRing (ringKey fn.val ring) t = Ring.new0) ∧
      (fn.val ≠ fnPf → vfTenantOf fn.val t = some (getN (O.HOST_VF_TENANT + fn.val) t))) ∧
  (∀ s : State, getN O.HOST_LINK s ≠ 0 →
    (∃ t, exec .pcieLinkLoss s = .next t ∧ getN O.HOST_LINK t = 0 ∧ getN O.HOST_NUM_VFS t = 0 ∧ (∀ v, vfTenantOf v t = none) ∧
      s.logged t 0x3801 (getN O.HOST_LINK s)) ∧
    ∀ count : Fin 65, ∃ t, exec (.sriovVfEnable count) s = .next t ∧ getN O.HOST_NUM_VFS t = count.val ∧
      ∀ v < 64, (vfTenantOf v t).isSome = decide (v < count.val)) ∧
  ∀ (gen width : Fin 256) (s : State), (endpointUp s = true → gen.val ≠ 0 → width.val ≠ 0 →
      exec (.pcieLinkUp gen width) s = .next (setN O.HOST_LINK (gen.val * 256 + width.val) s)) ∧
    (endpointUp s = false → exec (.pcieLinkUp gen width) s = .next s)

/-- R163, R164, R169, R468, R469, Tables 17.8 and 17.9: the entry at the head of a ring of its kind is taken: a PORTER job runs on a host
channel at its program; TALLY jobs give, return, count and clear the host's tallies; a PLACE job joins the placements that wait; an XFER job
starts a transfer, or awaits one. A job that is not good ends with status 0x12; host memory that does not answer is logged (status 1 and its
cause are the model's, log entry 170). -/
def Obligations.HostJobs : Prop :=
  ∀ (src : JobSrc) (s : State), src.fn ≠ fnSequencer →
    let tenant := srcTenant src s
    let ends (st : Nat) (t : State) : Prop := ∃ e ∈ t.host.done, e.src = src ∧ e.bytes[4]? = some (BitVec.ofNat 8 st)
    (mayConsume 2 src s = true → ∀ c host addr, (List.range 384).find? (fun c => hostChanFree c s) = some c →
      ((addr % 32 = 0 ∧ (host = true ∨ operandReach tenant addr 32 s = true)) → ∃ u x, exec (.porterJobStart src host addr true) s = .next (settle u) ∧
        getChan c u = x ∧ x.cstate = .run ∧ x.owner = .host ∧ x.job = some src ∧ x.prog = addr ∧ x.progHost = host ∧ x.tenant = tenant ∧ x.pc = 0) ∧
      (addr % 32 ≠ 0 → ∃ u, exec (.porterJobStart src host addr true) s = .next (settle u) ∧ ends 0x12 u)) ∧
    (mayConsume 3 src s = true →
      (∀ j, 10 < j → ∃ t, exec (.tallyJobAlloc src j true) s = .next t ∧ ends 0x12 t ∧ t.comp = s.comp) ∧
      (∀ j b u, j ≤ 10 → talliesThere s = true → allocBlock (2 ^ j) tenant 0 1 (.host src.fn) (entryTaken src 1 s) = (some b, u) →
        ∃ t x, exec (.tallyJobAlloc src j true) s = .next t ∧ ends 0 t ∧ x ∈ t.comp.blocks ∧ x.base = b ∧ x.tenant = tenant ∧
          x.size = blockSize (2 ^ j) ∧ getTally b t = { tstate := 1, tenant := tenant, kind := 1 }) ∧
      (∀ tl b, hostBlock tenant tl s = some b → let x := getTally tl s
        (b.base = tl → ∃ u, exec (.tallyJobFree src tl true) s = .next (settle u) ∧ ends 0 u ∧ (∀ y ∈ u.comp.blocks, y.base ≠ tl)) ∧
        (∀ v, x.tstate = 1 → x.count + v < 2 ^ 32 → ∃ u, exec (.tallyJobAdd src tl v true) s = .next (settle u) ∧ ends 0 u ∧
          getTally tl u = { x with count := x.count + v }) ∧
        (x.tstate = 1 → ∃ u, exec (.tallyJobReset src tl true) s = .next (settle u) ∧ ends 0 u ∧ getTally tl u = { x with count := 0 })) ∧
      (∀ tl, hostBlock tenant tl s = none → ∃ u, exec (.tallyJobReset src tl true) s = .next (settle u) ∧ ends 0x12 u ∧ u.comp = s.comp)) ∧
    (∀ (e : PlaceEntry) (d : HostRead) (g : Program) (l : CrateList), mayConsume 4 src s = true → takesNoWork s = false →
      findProgram e.prog s = some g → tenantList tenant e.list s = some l → e.host = true → d.ok = true → e.reservedZero = true →
      tallyBaseOk e.tallyBase tenant g.tallies s = true → (isVendor g.progId = true ∨ featActive 11 s = true) →
      (bitOf g.tenantMask tenant = true → ∃ u, exec (.placeJobStart src e d) s = .next (settle u) ∧
        ∃ q ∈ u.comp.placeQueue, q.owner = .host src ∧ q.tenant = tenant ∧ q.prog = g ∧
          q.argBlock = placeRecord e ++ List.replicate 64 0#8 ++ padTo 128 d.bytes) ∧
      (bitOf g.tenantMask tenant = false → exec (.placeJobStart src e d) s = .next (settle (entryTaken src 4 s)))) ∧
    (∀ (e : PlaceEntry) (d : HostRead), mayConsume 4 src s = true → takesNoWork s = false → e.host = true → d.ok = false →
      ∃ u, exec (.placeJobStart src e d) s = .next (settle u) ∧ ends 1 u ∧ s.logged u 0x3804 (src.fn % 2 ^ 16 * 2 ^ 48 + e.user % 2 ^ 48)) ∧
    ∀ (e : XferEntry) (d : HostRead), mayConsume 5 src s = true → getN O.PWR_STATE s ≠ 2 →
      ((getGroup e.group s).isOpen = false → exec (.xferSend src e d) s = .next (entryTaken src 8 s) ∧
        exec (.xferReceive src e d) s = .next (entryTaken src 8 s)) ∧
      ((getGroup e.group s).isOpen = true → (getGroup e.group s).tenant = tenant → e.host = true → d.ok = true →
        (xferEntryOk true e s = true → d.bytes.length = e.length → ∃ t, exec (.xferSend src e d) s = .next t ∧
          ∃ x ∈ t.host.xferOut, x.src = src ∧ x.site = e.site ∧ x.number = e.number ∧ x.bytes = e.length ∧
            x.data = (xcEncode e.fmt e.table (xcTable e.table s) (64 * e.block64) (codesOf e.fmt d.bytes)).flatMap (·.1) ∧ x.sealV = crc64 x.data) ∧
        (xferEntryOk true e s = false → ∃ t, exec (.xferSend src e d) s = .next t ∧ ends 0x12 t) ∧
        (xferEntryOk false e s = true → findXfer tenant e.site e.number s = none → s.coll.held = [] → s.coll.backlog = [] →
          ∃ t x, exec (.xferReceive src e d) s = .next t ∧
          findXfer tenant e.site e.number t = some x ∧ x.src = some src ∧ x.dest = e.addr ∧ x.length = e.length) ∧
        (xferEntryOk false e s = false → ∃ t, exec (.xferReceive src e d) s = .next t ∧ ends 0x12 t))
/-! ### Start-up, the device states and firmware -/

/-- R474 to R478, R481, R485, R509, R519, Table 18.2: 3.3 V_AUX leads from OFF to AUX, with the place read; the input to BOOT with everything but
fuses, flash and the persistent configuration at its default; a verified stage-1 image to LOAD, and HALT with its cause otherwise; the steps of
INIT to READY; DEV_CMD and the return of the compute dies as Table 18.2 allows, E-0x30 where it does not. -/
def Obligations.StartupAndDeviceCommands : Prop :=
  (∀ (place : Fin 16) (f : FactoryData) (s : State),
    (s.devState = .off → ∃ t, exec (.auxApplied place f) s = .next t ∧ t.devState = .aux ∧ getN O.PWR_STATE t = 3 ∧
      getN O.BG_PLACE t = place.val ∧ getN (O.PROC_STATE + 5) t = 1 ∧ t.dev.auxPresent = true ∧ t.dev.made = true ∧
      (s.dev.made = false → t.dev.slotA = f.slotA ∧ t.dev.slotB = f.slotB ∧ getN O.LC_STATE t = 1) ∧
      (s.dev.made = true → t.dev.slotA = s.dev.slotA ∧ getN O.LC_STATE t = getN O.LC_STATE s)) ∧
    (s.devState ≠ .off → exec (.auxApplied place f) s = .next { s with dev := { s.dev with auxPresent := true } })) ∧
  (∀ s : State,
    (s.devState = .off → exec .auxLost s = .next s) ∧
    (s.devState = .aux → ∃ t, exec .auxLost s = .next t ∧ t.devState = .off ∧ t.mem = [] ∧ t.comp = State.reset.comp ∧
      t.time = State.reset.time ∧ (s.dev.flashing = none → t.dev.slotA = s.dev.slotA) ∧ t.dev.owner = s.dev.owner ∧ t.dev.auxPresent = false) ∧
    (s.devState ≠ .off → s.devState ≠ .aux → emergFlag 11 s = false → ∃ t, exec .auxLost s = .next t ∧ t.dev.auxPresent = false ∧
      emergFlag 11 t = true ∧ s.logged t 0x7001 (11 * 2 ^ 56) ∧ t.devState = s.devState)) ∧
  (∀ (hot : Bool) (s : State), s.devState = .aux → s.dev.keyHold = false → (s.dev.trip = none ∨ hot = false) →
    (∃ t, exec (.bootStart hot none) s = .next t ∧ t.devState = .boot ∧ t.mem = [] ∧ t.comp = State.reset.comp ∧ t.port = State.reset.port ∧
      t.line = State.reset.line ∧ (s.dev.flashing = none → t.dev.slotA = s.dev.slotA) ∧ t.dev.trip = none ∧ getN O.DBG_STATE t = 0 ∧ getN O.PROC_STATE t = 1 ∧
      t.time.clocks = s.time.clocks ∧ s.logged t 0x1001 0x102) ∧
    ∀ r, ∃ t, exec (.bootStart hot (some r)) s = .next t ∧ t.devState = .halt ∧ getN O.DEV_LAST_CAUSE t = 0x17 ∧
      emergFlag 9 t = true ∧ t.crier.active = true) ∧
  (∀ s : State, s.devState = .boot → s.dev.keyHold = false →
    let a := dirSlot s
    (∃ t, exec (.stage1Start false) s = .next t ∧ t.devState = .halt ∧ getN O.DEV_LAST_CAUSE t = 0x16) ∧
    (fwCheck [1] (slotImage a s) s = 0 → getN O.BG_PLACE s ≤ 8 → ∃ t, exec (.stage1Start true) s = .next t ∧ t.devState = .load ∧
      getN O.BOOT_SOURCE t = a ∧ getN (O.PROC_STATE + 1) t = 1 ∧ t.dev.stage1 = slotImage a s ∧ t.crier.active = true) ∧
    ((∀ p ∈ stage1Sources s, fwCheck [p.2.2] p.2.1 s ≠ 0) → ∃ t, exec (.stage1Start true) s = .next t ∧ t.devState = .halt ∧
      getN O.DEV_LAST_CAUSE t = 0x12)) ∧
  (∀ s : State, (s.devState = .halt → ∃ u, exec .pcieFundamentalReset s = .next (settle u) ∧ u.devState = .boot ∧ u.mem = []) ∧
    (s.devState ≠ .halt → ∃ t, exec .pcieLinkLoss s = .next t ∧ exec .pcieFundamentalReset s = .next (settle t))) ∧
  (∀ (sess : Fin 73) (s : State), let held (v : Nat) : Prop := ownCheck sess.val O.DEV_CMD (.num v) s = 0
    let done (u : State) : State := settle (emit (.writeAnswer sess.val O.DEV_CMD 0) u)
    let refused : State := settle (emit (.writeAnswer sess.val O.DEV_CMD 0x30) s)
    (held 1 → s.devState = .ready → (mayServe s = true → ∃ u, exec (.devCmdService sess) s = .next (done u) ∧ u.devState = .service ∧
        u.crier.served = true) ∧ (mayServe s = false → exec (.devCmdService sess) s = .next refused)) ∧
    (held 2 → s.devState = .ready → colActivates s = false → (mayServe s = true → mayHoldLine s = true →
        ∃ u, exec (.devCmdLineHold sess) s = .next (done u) ∧ u.devState = .lineHold ∧ getN O.PWR_STATE u = 1 ∧ u.comp.placements = [] ∧
          u.comp.blocks = [] ∧ getN (O.PROC_STATE + 6) u = 0 ∧ getN (O.PROC_STATE + 7) u = 0) ∧
      (mayHoldLine s = false → exec (.devCmdLineHold sess) s = .next refused)) ∧
    (held 3 → s.devState = .service → (mayLeave s = true → ∃ u, exec (.devCmdReady sess) s = .next (done u) ∧ u.devState = .ready) ∧
      (mayLeave s = false → exec (.devCmdReady sess) s = .next refused)) ∧
    (held 3 → s.devState = .lineHold → s.dev.returning = none → mayLeave s = true → exec (.devCmdReady sess) s =
      .next (done { s with dev := { s.dev with returning := some .ready } })) ∧
    (held 4 → (inService s = true ∨ s.devState = .safe) → s.dev.flashing = none → s.dict.cfgBusy = 0 →
      ∀ z, ∃ u, exec (.devCmdRestart sess z) s = .next (done u) ∧ u.devState = .boot ∧ u.mem = [] ∧ u.dev.keyHold = (s.dev.keyHold || !z) ∧
        s.logged u 0x6805 1) ∧
    (held 5 → inService s = true → ∃ u, exec (.devCmdSafe sess) s = .next (done u) ∧ u.devState = .safe ∧ getN O.DEV_LAST_CAUSE u = 6)) ∧
  (∀ (d : DevState) (s : State), s.devState = .lineHold → s.dev.returning = some d →
    (∃ t, exec (.computeDiesReady none []) s = .next t ∧ t.dev.returning = none ∧ t.devState = (if d = .ready then .ready else .service) ∧
      getN (O.PROC_STATE + 6) t = 1 ∧ getN (O.PROC_STATE + 7) t = 1) ∧
    ∀ r f, ∃ t, exec (.computeDiesReady (some r) f) s = .next t ∧ t.devState = .safe ∧ getN O.DEV_LAST_CAUSE t = 2) ∧
  ∀ (k : Fin 8) (s : State), initRuns k.val s = true →
    (initCond k.val s = true → ∃ t, exec (.initStepComplete k [] []) s = .next t ∧ initDone k.val t = true ∧
      (t.devState = .ready ↔ ∀ j ∈ [5, 6, 7], j = k.val ∨ initDone j s = true)) ∧
    (k.val = 2 → ∀ f x xs, ∃ t, exec (.initStepComplete k f (x :: xs)) s = .next t ∧ t.devState = .halt ∧ getN O.DEV_LAST_CAUSE t = 0x14) ∧
    (k.val = 7 → ∀ f, ∃ t, exec (.initStepLimit k f) s = .next t ∧ initDone 7 t = true ∧ s.logged t 0x100C (getN O.TIME_STATE s)) ∧
    (k.val = 5 ∨ k.val = 6 → ∀ f, ∃ t, exec (.initStepLimit k f) s = .next t ∧ initDone k.val t = true ∧ s.logged t 0x100A k.val)

/-- R482 to R484, R486, R487, R489, R491 to R494, R505, R564: DONE leads to INIT; a fetched image that passes Table 18.7 is loaded or staged, one that
fails is refused with the number of the check; activation, flash, abort and their waits; a processor that fails is restarted, counted and
logged, the third within 600 s leads to SAFE; a debugger's halt and resume; FEAT_ACTIVE follows FEAT_DRIVER. -/
def Obligations.FirmwareAndProcessors : Prop :=
  (∀ (sess : Fin 73) (s : State), let answer (e : Nat) (u : State) : State := emit (.writeAnswer sess.val O.DL_CMD e) u
    let held (v : Nat) : Prop := ownCheck sess.val O.DL_CMD (.num v) s = 0
    let busy (st kind : Nat) : Nat := st * 2 ^ 28 + kind * 2 ^ 20
    let read : Sent := .imageRead (getN O.DL_ADDR s) (getN O.DL_LEN s)
    (held 2 → (sess.val ≠ 8 → exec (.dlCmdDone sess) s = .next (answer 0x19 s)) ∧
      (sess.val = 8 → s.devState = .load → getN O.DL_KINDS s % 128 = 127 → ∃ t, exec (.dlCmdDone sess) s = .next (answer 0 t) ∧
        t.devState = .init ∧ getN O.CRATE_STRICT t = 1 ∧ ∀ p < 6, getN (O.PROC_STATE + p) t = 1) ∧
      (sess.val = 8 → s.devState = .load → getN O.DL_KINDS s % 128 ≠ 127 → exec (.dlCmdDone sess) s = .next (answer 0x14 s))) ∧
    (held 1 → sess.val = 8 → (s.devState = .load ∨ stages s = true) → dlState s ≠ 1 → dlState s ≠ 2 →
      exec (.dlCmdFetch sess) s = .next (answer 0 (setDl 1 (dlKind s) 0 (emit read s)))) ∧
    (held 3 → abortCheck sess.val s = 0 → ∃ t, exec (.dlCmdAbort sess) s = .next (answer 0 t) ∧
      getN O.DL_STATUS t = busy 0 (dlKind s) ∧ t.dev.store = s.dev.store ∧ (stages s = true → t.dev.staged = none ∧ getN O.FW_STAGED t = 0)) ∧
    (held 4 → activateCheck s = 0 → ∀ img, s.dev.staged = some img →
      (getN O.EMERG_FLAGS s ≠ 0 → ∃ t, exec (.dlCmdActivate sess) s = .next (answer 0 t) ∧ t.dev.deferred = true ∧ t.dev.staged = some img ∧
        getN O.DL_STATUS t = busy 7 (imageKind img) ∧ s.logged t 0x1005 (imageKind img * 2 ^ 56 + getN O.EMERG_FLAGS s)) ∧
      (getN O.EMERG_FLAGS s = 0 → imageKind img ∈ storeKinds → ∃ t, exec (.dlCmdActivate sess) s = .next (answer 0 t) ∧
        t.dev.actKind = some (imageKind img) ∧ t.dev.staged = none ∧ storedImage (imageKind img) t = img ∧
        getN O.DL_STATUS t = busy 4 (imageKind img))) ∧
    (held 5 → flashCheck s = 0 → ∀ img, (fwCheck (flashKinds s) img s = 0 → ∃ t, exec (.dlCmdFlash sess (some img)) s = .next (answer 0 t) ∧
        t.dev.flashing = some img ∧ getN O.DL_STATUS t = busy 6 (imageKind img) ∧ t.sent = s.sent ++ [read]) ∧
      (fwCheck (flashKinds s) img s ≠ 0 → ∃ t, exec (.dlCmdFlash sess (some img)) s = .next (answer 0 t) ∧ t.dev.flashing = none ∧
        getN O.DL_STATUS t = busy 5 (imageKind img) + fwCheck (flashKinds s) img s * 2 ^ 12 ∧
        s.logged t 0x1003 (imageKind img * 2 ^ 56 + fwCheck (flashKinds s) img s)))) ∧
  (∀ (img : List Byte) (s : State), (dlState s = 1 ∨ dlState s = 2) → let e := fwCheck storeKinds img s
    (e ≠ 0 → ∃ t, exec (.fetchComplete (some img)) s = .next t ∧ t.dev = s.dev ∧ s.logged t 0x1003 (imageKind img * 2 ^ 56 + e) ∧
      getN O.DL_STATUS t = 5 * 2 ^ 28 + imageKind img * 2 ^ 20 + e * 2 ^ 12) ∧
    (e = 0 → s.devState = .load → ∃ t, exec (.fetchComplete (some img)) s = .next t ∧ storedImage (imageKind img) t = img ∧
      getN O.DL_STATUS t = 3 * 2 ^ 28 + imageKind img * 2 ^ 20) ∧
    (e = 0 → s.devState ≠ .load → ∃ t, exec (.fetchComplete (some img)) s = .next t ∧ t.dev.store = s.dev.store ∧
      ((t.dev.staged = some img ∧ getN O.DL_STATUS t = 3 * 2 ^ 28 + imageKind img * 2 ^ 20) ∨ t.dev.staged = none))) ∧
  (∀ (s : State) (k : Nat),
    (s.dev.deferred = true → getN O.EMERG_FLAGS s = 0 → stages s = true → ∀ img, s.dev.staged = some img →
      ∃ t, exec .activationStart s = .next t ∧ t.dev.actKind = some (imageKind img) ∧ t.dev.deferred = false) ∧
    (s.dev.deferred = true → getN O.EMERG_FLAGS s ≠ 0 → exec .activationStart s = .next s) ∧
    (s.dev.deferred = true → ∀ img, s.dev.staged = some img → ∃ t, exec .activationWaitExpiry s = .next t ∧ t.dev.deferred = false ∧
      t.dev.staged = some img ∧ s.logged t 0x1006 (imageKind img * 2 ^ 56)) ∧
    (s.dev.actKind = some k → s.dev.actLeft = [] → (∀ p < 8, procKind p = k → getN (O.PROC_STATE + p) s ≠ 3) →
      ∃ t, exec .activationSoakExpiry s = .next t ∧ t.dev.actKind = none ∧ t.dev.oldImage = none ∧
        s.logged t 0x1004 (k * 2 ^ 56 + imgVersion (storedImage k s))) ∧
    (∀ img back, s.dev.flashing = some img → imageKind img = 1 → let slot := 1 - dirSlot s
      ∃ t, exec (.flashDone back) s = .next t ∧ t.dev.flashing = none ∧ slotImage slot t = back ∧
        (fwCheck [1] back s = 0 → dirSlot t = slot ∧ s.logged t 0x100D (slot * 2 ^ 56 + imgVersion back)) ∧
        (fwCheck [1] back s ≠ 0 → dirSlot t = dirSlot s))) ∧
  (∀ (p : Fin 8) (s : State), let key := O.PROC_STATE + p.val
    let count := O.PROC_RESTARTS + p.val
    (runtimeRuns p.val s = true → s.dev.actKind = none → s.devState = .service →
      let restarted (c : Nat) (copyOk : Bool) (i : Instr) : Prop := ∃ u, exec i s = .next (settle u) ∧
        getN count u = (getN count s + 1) % 2 ^ objBits count ∧ s.logged u 0x1007 (p.val * 256 + c) ∧
        (copyOk = true → (wdogTimes p.val s).length < 3 → getN key u = 2 ∧ u.devState = .service) ∧
        (copyOk = true → 3 ≤ (wdogTimes p.val s).length → u.devState = .safe ∧ getN O.DEV_LAST_CAUSE u = 3) ∧
        (copyOk = false → u.devState = .safe ∧ getN O.DEV_LAST_CAUSE u = 7)
      ∀ ok, restarted 1 ok (.procWatchdog p ok) ∧ restarted 2 ok (.procTrap p ok)) ∧
    (∀ sess : Fin 73, ownCheck sess.val O.PROC_CMD (.num (256 + p.val)) s = 0 →
      (getN key s ≠ 0 → ∃ t, exec (.procCmdRestart sess p true) s = .next (emit (.writeAnswer sess.val O.PROC_CMD 0) t) ∧ getN key t = 2 ∧
        getN count t = (getN count s + 1) % 2 ^ objBits count ∧ s.logged t 0x1007 (p.val * 256 + 3)) ∧
      (getN key s = 0 → exec (.procCmdRestart sess p true) s = .next (emit (.writeAnswer sess.val O.PROC_CMD 0x30) s))) ∧
    (getN key s = 2 → ∃ u, exec (.procRestartComplete p) s = .next (settle u) ∧ getN key u = 1) ∧
    (mayHalt p.val s = true → bitOf s.dev.halted p.val = false → ∃ t, exec (.debuggerHalt p) s = .next t ∧
      bitOf t.dev.halted p.val = true) ∧
    (mayHalt p.val s = false → exec (.debuggerHalt p) s = .next s) ∧
    (bitOf s.dev.halted p.val = true → ∃ u, exec (.debuggerResume p) s = .next (settle u) ∧ bitOf u.dev.halted p.val = false)) ∧
  ∀ (half : Fin 2) (w : ObjWrite) (s : State), let drv := O.FEAT_DRIVER + half.val
    ownCheck w.sess drv (.num w.value) s = 0 →
    (half.val = 0 → bitOf w.value 1 = true → bitOf w.value 16 = false →
      exec (.featDriver half w) s = .next (emit (.writeAnswer w.sess drv 0x14) s)) ∧
    ((half.val = 1 ∨ bitOf w.value 1 = false ∨ bitOf w.value 16 = true) → ∃ t, exec (.featDriver half w) s = .next t ∧
      getN drv t = w.value ∧ getN (O.FEAT_ACTIVE + half.val) t = w.value &&& getN (O.FEAT_DEVICE + half.val) s ∧
      t.sent = s.sent ++ [.writeAnswer w.sess drv 0])
/-! ### Security and debug -/

/-- R499 to R504, R512, Tables 19.3 to 19.6: a challenge is refused, granted at once or posed by purpose and lifecycle; a good response grants its
purpose, a bad one is logged and the third within 60 s locks it out; the lifecycle commands burn the new state and restart; debug opens and closes
with its zeroisation; fuses only ever advance; LKEK_PEER takes a point of the curve; ATT_NONCE yields this session's report. -/
def Obligations.SecurityCommands : Prop :=
  (∀ (w : ObjWrite) (s : State), ownCheck w.sess O.SEC_CHAL_REQ (.num w.value) s = 0 → secUp s = true → 1 ≤ w.value → w.value ≤ 4 →
    let v := w.value
    let answer (e : Nat) (u : State) : State := emit (.writeAnswer w.sess O.SEC_CHAL_REQ e) u
    (s.dev.locked.contains v = true → exec (.secChalReq w) s = .next (answer 0x30 s)) ∧
    (s.dev.locked.contains v = false →
      (purposeRule v w.sess s = .refused → exec (.secChalReq w) s = .next (answer 0x19 s)) ∧
      (purposeRule v w.sess s = .granted → ∃ t, exec (.secChalReq w) s = .next (answer 0 t) ∧
        (v = 1 → (getSess w.sess t).unlocked = true) ∧ (v ≠ 1 → hasPassed w.sess v t = true)) ∧
      (∀ h, purposeRule v w.sess s = .signed h → ∃ t n, exec (.secChalReq w) s = .next (answer 0 t) ∧
        getChallenge w.sess t = some (v, n, s.time.clocks) ∧ n.length = 32))) ∧
  (∀ (w : BlobWrite) (s : State) (p : Nat) (n : List Byte) (clk : Nat), ownCheck w.sess O.SEC_RESPONSE (.bytes w.bytes) s = 0 → secUp s = true →
    w.bytes.length = 193 → getChallenge w.sess s = some (p, n, clk) →
    let answer (e : Nat) (u : State) : State := emit (.writeAnswer w.sess O.SEC_RESPONSE e) u
    (s.dev.locked.contains p = true → exec (.secResponse w) s = .next (answer 0x30 s)) ∧
    (s.dev.locked.contains p = false →
      (responseGood w.sess w.bytes s = true → ∃ t, exec (.secResponse w) s = .next (answer 0 t) ∧ getChallenge w.sess t = none ∧
        (p = 1 → (getSess w.sess t).unlocked = true) ∧ (p ≠ 1 → hasPassed w.sess p t = true)) ∧
      (responseGood w.sess w.bytes s = false → ∃ t, exec (.secResponse w) s = .next (answer 0 t) ∧ getChallenge w.sess t = none ∧
        s.logged t 0x6803 (w.sess * 2 ^ 56 + p) ∧
        let recent := ((smGet (fun _ => ([] : List Nat)) p s.dev.failures).filter fun c => decide (s.time.clocks < c + 60 * clkSec)).length
        ((2 ≤ recent → p ∈ t.dev.locked ∧ s.logged t 0x6804 p) ∧ (recent < 2 → t.dev.locked = s.dev.locked))))) ∧
  (∀ (p : Fin 5) (s : State), ∃ t, exec (.challengeLockoutExpiry p) s = .next t ∧ p.val ∉ t.dev.locked ∧
    (∀ q, q ≠ p.val → (q ∈ t.dev.locked ↔ q ∈ s.dev.locked)) ∧ { t with dev := s.dev } = s) ∧
  (∀ (sess : Fin 73) (z : Bool) (s : State), let held (v : Nat) : Prop := ownCheck sess.val O.LC_CMD (.num v) s = 0
    let answer (e : Nat) (u : State) : State := emit (.writeAnswer sess.val O.LC_CMD e) u
    let burnt (lc : Nat) (t : State) : Prop := t.devState = .boot ∧ getN O.LC_STATE t = lc ∧
      s.logged t 0x6801 (getN O.LC_STATE s * 256 + lc) ∧ t.dev.keyHold = (s.dev.keyHold || !z)
    (held 1 → (secUp s = true → getN O.LC_STATE s = 0 → getN O.DBG_STATE s = 0 → getB O.FW_KEY_HASH s ≠ [] → getB O.SERIAL s ≠ [] →
        s.dev.vendorDbg ≠ [] → ∃ t, exec (.lcCmdProvision sess true z) s = .next (answer 0 t) ∧ burnt 1 t ∧
          t.dev.secretGen = s.dev.secretGen + 1) ∧
      (getN O.LC_STATE s ≠ 0 → ∀ c, exec (.lcCmdProvision sess c z) s = .next (answer 0x30 s)) ∧
      exec (.lcCmdProvision sess false z) s = .next (answer 0x30 s)) ∧
    (held 2 → secUp s = true → getN O.LC_STATE s = 1 → (getB O.LC_OWNER s).length = 96 → s.devState = .ready →
      ∃ t, exec (.lcCmdField sess z) s = .next (answer 0 t) ∧ burnt 2 t ∧ t.dev.owner = getB O.LC_OWNER s) ∧
    (held 2 → s.devState ≠ .ready → exec (.lcCmdField sess z) s = .next (answer 0x30 s)) ∧
    (held 3 → secUp s = true → (getN O.LC_STATE s = 1 ∨ getN O.LC_STATE s = 2) → s.devState = .ready →
      (hasPassed sess.val 4 s = true → ∃ t, exec (.lcCmdReturn sess z) s = .next (answer 0 t) ∧ burnt 3 t) ∧
      (hasPassed sess.val 4 s = false → exec (.lcCmdReturn sess z) s = .next (answer 0x30 s)))) ∧
  (∀ (sess : Fin 73) (s : State), let held (v : Nat) : Prop := ownCheck sess.val O.DBG_CMD (.num v) s = 0
    let done (e : Nat) (u : State) : State := settle (emit (.writeAnswer sess.val O.DBG_CMD e) u)
    let was := getN O.DBG_STATE s
    let opens (d : Nat) (u : State) : Prop := getN O.DBG_STATE u = d ∧ s.logged u 0x6805 2 ∧
      s.logged u 0x6802 (sess.val * 2 ^ 56 + was * 256 + d)
    (held 1 → secUp s = true → was = 0 → s.devState = .ready →
      (hasPassed sess.val 2 s = true → ∃ u, exec (.authenticate sess) s = .next (done 0 u) ∧ opens 1 u) ∧
      (hasPassed sess.val 2 s = false → exec (.authenticate sess) s = .next (done 0x30 s))) ∧
    (held 2 → secUp s = true → (was = 0 ∨ was = 1) → s.devState ≠ .service → s.devState ≠ .lineHold →
      (hasPassed sess.val 3 s = true → ∃ u, exec (.dbgOpen sess) s = .next (done 0 u) ∧ opens 2 u ∧ u.dev.keyOpen = true) ∧
      (hasPassed sess.val 3 s = false → exec (.dbgOpen sess) s = .next (done 0x30 s))) ∧
    (held 3 → ∃ u, exec (.dbgClose sess) s = .next (done 0 u) ∧ getN O.DBG_STATE u = 0 ∧ (∀ p < 8, bitOf u.dev.halted p = false) ∧
      (was ≠ 0 → s.logged u 0x6802 (sess.val * 2 ^ 56 + was * 256)))) ∧
  (∀ (sess : Fin 73) (s : State), let answer (e : Nat) (u : State) : State := emit (.writeAnswer sess.val O.FUSE_CMD e) u
    (∀ slot : Fin 4, let v := 2 ^ 24 + slot.val
      ownCheck sess.val O.FUSE_CMD (.num v) s = 0 →
      (fuseCheck v s = 0 → ∃ t, exec (.fuseRevoke sess slot) s = .next (answer 0 t) ∧
        getN O.FW_KEY_REVOKED t = setBit (getN O.FW_KEY_REVOKED s) slot.val ∧ s.logged t 0x6806 v ∧ s.sameBeyondDict t) ∧
      ((∃ i ∈ heldImages s, (i.getD 7 0).toNat = slot.val) → exec (.fuseRevoke sess slot) s = .next (answer 0x30 s))) ∧
    (∀ kind svn : Fin 256, let v := 2 * 2 ^ 24 + kind.val * 2 ^ 16 + svn.val
      ownCheck sess.val O.FUSE_CMD (.num v) s = 0 →
      (fuseCheck v s = 0 → (getB O.SVN_MIN s).length = 9 → ∃ t, exec (.fuseSvn sess kind svn) s = .next (answer 0 t) ∧
        svnMin kind.val t = svn.val ∧ s.logged t 0x6806 v ∧ s.sameBeyondDict t) ∧
      ((63 < svn.val ∨ svn.val < svnMin kind.val s) → exec (.fuseSvn sess kind svn) s = .next (answer 0x14 s)))) ∧
  ∀ (w : BlobWrite) (s : State),
    (ownCheck w.sess O.LKEK_PEER (.bytes w.bytes) s = 0 →
      ((w.bytes = [] ∨ (w.bytes.length = 97 ∧ (p384Point w.bytes).isSome)) → exec (.lkekPeer w) s =
        .next (emit (.writeAnswer w.sess O.LKEK_PEER 0) (setB O.LKEK_PEER w.bytes s))) ∧
      (w.bytes.length = 97 → p384Point w.bytes = none → exec (.lkekPeer w) s = .next (emit (.writeAnswer w.sess O.LKEK_PEER 0x14) s))) ∧
    (ownCheck w.sess O.ATT_NONCE (.bytes w.bytes) s = 0 → w.bytes.length = 32 → secUp s = true →
      ∃ t sig, exec (.attNonce w) s = .next (emit (.writeAnswer w.sess O.ATT_NONCE 0) t) ∧ sig.length = 96 ∧
        smGet (fun _ => ([] : List Byte)) w.sess t.dev.reports = reportHead w.bytes s ++ sig ∧ t.dict = s.dict)
/-! ### Supply, temperature, clocks and the PMBus -/

/-- R471, R506 to R508, R519, R521 to R524, R527, Tables 20.6 and 20.10: a reading beyond its limit sets and latches its flag and is logged,
one within it is only kept; the critical ones lead to SAFE; the hard ones open the hot-swap switch, and AUX or OFF follows; a flag whose
condition has gone clears; a throttle step lowers a row by 100 MHz and raises it again; P2 is entered and left by PWR_CMD; the PMBus
answers. -/
def Obligations.SupplyThermalAndPmbus : Prop :=
  (∀ s : State, s.devState ≠ .off →
    let raises (k arg : Nat) (i : Instr) : Prop := emergFlag k s = false → ∃ t, exec i s = .next t ∧ emergFlag k t = true ∧
      bitOf (getN O.EMERG_LATCH t) k = true ∧ s.logged t 0x7001 (k * 2 ^ 56 + arg)
    let toSafe (i : Instr) : Prop := inService s = true → ∃ t, exec i s = .next t ∧ t.devState = .safe ∧ getN O.DEV_LAST_CAUSE t = 2
    (∀ (n : Fin 19) (cc : Int), let arg := n.val * 2 ^ 40 + ofSigned 32 cc
      let lim := tjLimit n.val s
      (lim - 1000 ≤ cc → raises 0 arg (.otWarn n cc)) ∧ (cc < lim - 1000 → exec (.otWarn n cc) s = .next (setTj n.val cc s)) ∧
      (lim - 300 ≤ cc → raises 1 arg (.otThrottle n cc)) ∧ (cc < lim - 300 → exec (.otThrottle n cc) s = .next (setTj n.val cc s)) ∧
      (lim ≤ cc → raises 2 arg (.otCrit n cc) ∧ toSafe (.otCrit n cc)) ∧ (cc < lim → exec (.otCrit n cc) s = .next (setTj n.val cc s)) ∧
      (lim + 1000 ≤ cc → s.devState ≠ .aux → s.dev.switchOpen = false → ∃ t, exec (.thermalTrip n cc) s = .next t ∧
        t.dev.trip = some (n.val, cc) ∧ t.dev.switchOpen = true ∧ t.crier.active = false ∧ t.comp.placements = [])) ∧
    (∀ v : Nat,
      (getN O.PWR_CAP_W s * 10 < v → raises 3 (ofSigned 32 v) (.powerCap v)) ∧
      (v ≤ getN O.PWR_CAP_W s * 10 → exec (.powerCap v) s = .next (setN O.PIN_DW v s)) ∧
      (v < 36000 → raises 4 (ofSigned 32 v) (.vinLow v)) ∧ (36000 ≤ v → exec (.vinLow v) s = .next (setN O.VIN_MV v s)) ∧
      (44000 < v → raises 6 (ofSigned 32 v) (.vinHigh v)) ∧ (v ≤ 44000 → exec (.vinHigh v) s = .next (setN O.VIN_MV v s)) ∧
      (34000 < v → raises 7 (ofSigned 32 v) (.oc v)) ∧ (v ≤ 34000 → exec (.oc v) s = .next (setN O.IIN_MA v s)) ∧
      (v < 3000 → raises 11 (ofSigned 32 v) (.auxLow v)) ∧ (3000 ≤ v → exec (.auxLow v) s = .next (setN O.VAUX_MV v s)) ∧
      (v < 30000 → raises 5 (ofSigned 32 v) (.vinHard v) ∧ (s.devState ≠ .aux → s.dev.switchOpen = false → ∃ t, exec (.vinHard v) s = .next t ∧
        t.dev.switchOpen = true ∧ t.crier.active = false)) ∧
      (46000 < v → s.devState ≠ .aux → s.dev.switchOpen = false → ∃ t, exec (.vinAbove46v v) s = .next t ∧ t.dev.switchOpen = true ∧
        t.crier.active = false ∧ getN O.EMERG_FLAGS t = getN O.EMERG_FLAGS s) ∧
      (v ≤ 46000 → exec (.vinAbove46v v) s = .next (setN O.VIN_MV v s))) ∧
    (∀ i o : Int, ((4500 < i ∨ 2000 < o - i) → raises 8 (ofSigned 32 i) (.coolant i o)) ∧
      (i ≤ 4500 → o - i ≤ 2000 → exec (.coolant i o) s = .next (setI O.COOLANT_OUT_CC o (setI O.COOLANT_IN_CC i s)))) ∧
    (∀ (k : Fin 29) (mv : Nat), let v := getN (O.RAIL_SET_MV + k.val) s
      ((mv * 100 < v * 95 ∨ v * 105 < mv * 100) → raises 9 (k.val * 2 ^ 40 + ofSigned 32 mv) (.rail k mv) ∧ toSafe (.rail k mv) ∧
        ∃ t, exec (.rail k mv) s = .next t ∧ s.logged t 0x7004 (k.val * 2 ^ 56 + mv)) ∧
      (v * 95 ≤ mv * 100 → mv * 100 ≤ v * 105 → exec (.rail k mv) s = .next (setN (O.RAIL_MV + k.val) mv s))) ∧
    raises 10 0 .refclk ∧ (emergFlag 10 s = true → toSafe .refclkHoldExpiry) ∧
    (emergFlag 10 s = false → exec .refclkHoldExpiry s = .next s) ∧
    (∀ k : Fin 12, (k.val ≠ 5 → k.val ≠ 9 → emergFlag k.val s = true → ∃ t, exec (.emergFlagClear k) s = .next t ∧ emergFlag k.val t = false ∧
        s.logged t 0x7002 (k.val * 2 ^ 56)) ∧
      ((k.val = 5 ∨ k.val = 9 ∨ emergFlag k.val s = false) → exec (.emergFlagClear k) s = .next s)) ∧
    ∀ dw ma : Nat, ∃ t, exec (.throttleStep dw ma) s = .next t ∧ ∀ r < 16, let act := getN (O.ROW_FREQ_ACT + r) s
      let act' := getN (O.ROW_FREQ_ACT + r) t
      (rowMigrating r s = true → act' = act) ∧
      (rowMigrating r s = false → (rowDown dw ma r s = true → act' = if 800 < act then max 800 (act - 100) else act) ∧
        (rowDown dw ma r s = false → rowHeld r s = true → act' = act) ∧
        (rowDown dw ma r s = false → rowHeld r s = false → bitOf s.dev.ramping r = true → act' = min (act + 100) (rowLimit r s)))) ∧
  (∀ (z : Bool) (s : State), (s.dev.switchOpen = false → exec (.hotswapAuxEntry z) s = .next s) ∧
    (s.dev.switchOpen = true → (s.dev.auxPresent = true → ∃ t, exec (.hotswapAuxEntry z) s = .next t ∧ t.devState = .aux ∧
        getN O.PWR_STATE t = 3 ∧ t.mem = [] ∧ t.dev.keyHold = (s.dev.keyHold || !z) ∧ s.logged t 0x6805 1) ∧
      (s.dev.auxPresent = false → ∃ t, exec (.hotswapAuxEntry z) s = .next t ∧ t.devState = .off ∧ t.mem = []))) ∧
  (∀ (sess : Fin 73) (s : State), let answer (e : Nat) (u : State) : State := emit (.writeAnswer sess.val O.PWR_CMD e) u
    let held (v : Nat) : Prop := ownCheck sess.val O.PWR_CMD (.num v) s = 0
    (held 1 → (idleCheck s = 0x30 → exec (.pwrCmdIdle sess) s = .next (answer 0x30 s)) ∧
      (getN O.PWR_STATE s = 2 → exec (.pwrCmdIdle sess) s = .next (answer 0 s)) ∧
      (idleCheck s = 0 → getN O.PWR_STATE s ≠ 2 → ∃ t, exec (.pwrCmdIdle sess) s = .next (answer 0 t) ∧ getN O.PWR_STATE t = 2 ∧
        t.comp.blocks = [] ∧ t.line.laserShutLow = true ∧ getN (O.PROC_STATE + 6) t = 0 ∧ getN (O.PROC_STATE + 7) t = 0)) ∧
    (held 2 → (getN O.PWR_STATE s = 2 → exec (.pwrCmdActive sess) s = .next (answer 0 { s with dev := { s.dev with waking := true } })) ∧
      (getN O.PWR_STATE s ≠ 2 → exec (.pwrCmdActive sess) s = .next (answer 0 s)))) ∧
  (∀ s : State, s.dev.waking = true → s.devState = .ready →
    (∃ t, exec (.p0Reached none []) s = .next t ∧ getN O.PWR_STATE t = 0 ∧ t.dev.waking = false ∧ getN (O.PROC_STATE + 6) t = 1 ∧
      getN (O.PROC_STATE + 7) t = 1) ∧
    ∀ r f, ∃ t, exec (.p0Reached (some r) f) s = .next t ∧ t.devState = .safe ∧ getN O.DEV_LAST_CAUSE t = 2) ∧
  ∀ s : State, s.devState ≠ .off →
    (∃ w, exec .statusWord s = .next (freeNext (emit (.pmbusWord 0x79 w) s)) ∧ bitOf w 3 = (emergFlag 4 s || emergFlag 5 s) ∧
      bitOf w 13 = (emergFlag 4 s || emergFlag 5 s || emergFlag 6 s || emergFlag 7 s)) ∧
    (∀ v, (∃ w, exec (.readVin (some v)) s = .next (emit (.pmbusWord 0x88 w) (setN O.VIN_MV v s))) ∧
      (∃ w, exec (.readIin (some v)) s = .next (emit (.pmbusWord 0x89 w) (setN O.IIN_MA v s))) ∧
      ∃ w, exec (.readPin (some v)) s = .next (emit (.pmbusWord 0x97 w) (setN O.PIN_DW v s))) ∧
    exec (.readVin none) s = .next (emit (.pmbusWord 0x88 0) s) ∧ exec (.readIin none) s = .next (emit (.pmbusWord 0x89 0) s) ∧
    exec (.readPin none) s = .next (emit (.pmbusWord 0x97 0) s) ∧
    (∀ c cs, (∃ w, exec (.readTemperature1 (c :: cs)) s = .next (emit (.pmbusWord 0x8D w) (setTjs 0 (c :: cs.take 3) s))) ∧
      (∃ w, exec (.readTemperature2 (c :: cs)) s = .next (emit (.pmbusWord 0x8E w) (setTjs 12 (c :: cs.take 5) s))) ∧
      ∃ w, exec (.readTemperature3 (c :: cs)) s = .next (emit (.pmbusWord 0x8F w) (setTjs 4 (c :: cs.take 7) s))) ∧
    exec (.readTemperature1 []) s = .next (emit (.pmbusWord 0x8D 0) s) ∧
    exec .pmbusRevision s = .next (emit (.pmbusByte 0x98 0x33) s) ∧
    exec .mfrId s = .next (emit (.pmbusBlock 0x99 [0x4E#8, 0x45#8, 0x4C#8, 0x59#8, 0x41#8, 0x53#8, 0x49#8, 0x4C#8]) s) ∧
    exec .mfrModel s = .next (emit (.pmbusBlock 0x9A [0x4A#8, 0x58#8, 0x47#8, 0x2D#8, 0x37#8, 0x34#8, 0x30#8, 0x30#8]) s) ∧
    exec .mfrDevState s = .next (emit (.pmbusByte 0xD0 s.devState.code) s) ∧
    ∀ cmd : Fin 256, exec (.pmbusWrite cmd) s = .next (emit (.pmbusNack cmd.val) s)
/-! ### Self-test, ageing and re-planning -/

/-- R535 to R546: a slice starts in a slot where R535 allows and ends with its result: a passed one counts, the last completes the cycle, one that
fails is repeated and, failing twice, fences its item; ageing samples are kept and judged; a re-plan sets the thresholds from the projected
losses, waits where R543 does not allow it, and raises the rails short of slack by 5 mV, or lowers the row's ceiling at the rail's maximum. -/
def Obligations.SelfTestAgeingAndReplan : Prop :=
  (∀ (slot : Fin 2) (island : Fin 112) (item : BistItem) (room : Int) (s : State), let key := O.BIST_HEADROOM_W
    (supUp s = false → exec (.bistSliceStart slot island item room) s = .next s) ∧
    (supUp s = true → let u := rotateRows (setI key room s)
      (room < 0 → ∃ t, exec (.bistSliceStart slot island item room) s = .next t ∧ t.dev.bist.slices = [] ∧
        getN key t = ofSigned (objBits key) room) ∧
      (sliceMayStart slot.val island.val item room u = true → ∃ t, exec (.bistSliceStart slot island item room) s = .next t ∧
        t.dev.bist.slices = s.dev.bist.slices ++ [{ slot := slot.val, island := island.val, item := item, again := false }]) ∧
      (0 ≤ room → sliceMayStart slot.val island.val item room u = false → exec (.bistSliceStart slot island item room) s = .next u))) ∧
  (∀ (slot : Fin 2) (s : State), let b := s.dev.bist
    (b.slices.find? (fun z => z.slot == slot.val) = none → ∀ pass, exec (.bistSliceEnd slot pass) s = .next s) ∧
    (∀ z k, b.slices.find? (fun z => z.slot == slot.val) = some z → z.item = .part k →
      (∃ t, exec (.bistSliceEnd slot true) s = .next t ∧ t.dev.bist.slices = b.slices.filter (fun y => y.slot ≠ slot.val) ∧
        (b.done + 1 < cycleSlices s → t.dev.bist.done = b.done + 1) ∧
        (cycleSlices s ≤ b.done + 1 → t.dev.bist.done = 0 ∧ s.logged t 0x7804 ((s.time.clocks - b.cycleClk) / 1250000000) ∧
          getN O.BIST_CYCLES t = (getN O.BIST_CYCLES s + 1) % 2 ^ objBits O.BIST_CYCLES)) ∧
      (z.again = false → ∃ t, exec (.bistSliceEnd slot false) s = .next t ∧ s.logged t 0x7801 (z.island * 256) ∧
        t.dev.bist.slices = b.slices.map (fun y => if y.slot = slot.val then { y with again := true } else y)) ∧
      (z.again = true → islandFenced z.island s = false → ∃ t, exec (.bistSliceEnd slot false) s = .next t ∧
        islandFenced z.island t = true ∧ s.logged t 0x7802 (z.island * 256 + 1) ∧
        (islandCritical z.island = true → inService s = true → t.devState = .safe ∧ getN O.DEV_LAST_CAUSE t = 1) ∧
        (islandCritical z.island = false → t.devState = s.devState ∧ bitOf (getN O.DEV_FLAGS t) 0 = true)))) ∧
  (∀ (n : Nat) (s : State), let b := s.dev.bist
    (b.overdue = false → inService s = true → exec (.bistCycleOverdue n) s =
      .next (logEvent 0x7803 n { s with dev := { s.dev with bist := { b with overdue := true } } })) ∧
    (b.overdue = true ∨ inService s = false → exec (.bistCycleOverdue n) s = .next s)) ∧
  (∀ (xs : List Int) (es : List Nat) (cc : Int) (s : State), supUp s = true → let b := s.dev.bist
    (∃ t, exec (.ageSlackSample xs) s = .next t ∧ s.sameBeyondDict t ∧ ∀ i v, i < 112 → xs[i]? = some v →
      getN (O.AGE_SLACK_PS + i) t = ofSigned (objBits (O.AGE_SLACK_PS + i)) v) ∧
    (∃ t, exec (.ageEyeSample es) s = .next t ∧ s.sameBeyondDict t ∧ ∀ i v, i < 80 → es[i]? = some v →
      getN (O.AGE_EYE_MUI + i) t = v % 65536 ∧
      (v < getN O.AGE_EYE_MIN_MUI s → s.logged t 0x7023 (i * 256 + v / 4 % 256))) ∧
    (let fine := b.eqFine + ageRate cc * 2 ^ 64 / fxOne / 3600
     ∃ t, exec (.ageTempSample cc) s = .next t ∧ t.dev.bist.eqFine = fine ∧ t.dev.bist.eqSecs = b.eqSecs + 1 ∧
      getN O.AGE_EQ_HOURS t = fine / 2 ^ 64 % 2 ^ 32 ∧
      (b.eqFine / 2 ^ 64 < 105192 → 105192 ≤ fine / 2 ^ 64 → s.logged t 0x7025 (fine / 2 ^ 64)))) ∧
  (∀ (r : ReplanData) (s : State), let b := s.dev.bist
    let short := (r.short.filter fun k => railMax k != 0).eraseDups
    (b.replanning = true → exec (.replanDue r) s = .next s) ∧
    (b.replanning = false →
      (replanAllowed s = false → ∃ t, exec (.replanDue r) s = .next t ∧ t.dev.bist.replanDue = true ∧
        (b.replanDue = false → s.logged t 0x7024 (getN O.EMERG_FLAGS s)) ∧ t.dict.objs = s.dict.objs) ∧
      (replanAllowed s = true → b.slices ≠ [] → ∃ t, exec (.replanDue r) s = .next t ∧ t.dev.bist = { b with replanDue := true } ∧
        { t with dev := s.dev } = s) ∧
      (replanAllowed s = true → b.slices = [] → ∃ t, exec (.replanDue r) s = .next t ∧ t.dev.bist.replanDue = false ∧
        t.dev.bist.short = short ∧ t.dev.bist.replanning = !short.isEmpty ∧
        getN O.MG_DOWN_CDB t = getN O.MG_DOWN_FLOOR_CDB s + worstLoss r s ∧
        getN O.MG_TARGET_CDB t = getN O.MG_TARGET_FLOOR_CDB s + worstLoss r s ∧
        (short = [] → s.logged t 0x7021 (getN O.MG_TARGET_CDB t)))) ∧
    ∀ sess : Fin 73, ownCheck sess.val O.REPLAN_CMD (.num 1) s = 0 → ∃ t, exec (.replanDue r) s = .next t ∧
      exec (.replanCmdNow sess r) s = .next (emit (.writeAnswer sess.val O.REPLAN_CMD 0) t)) ∧
  ∀ (k : Fin 29) (slack : Int) (s : State), let b := s.dev.bist
    let mv := getN (O.RAIL_SET_MV + k.val) s
    (b.replanning = false ∨ k.val ∉ b.short → exec (.voltageStep k slack) s = .next s) ∧
    (b.replanning = true → k.val ∈ b.short → supUp s = true →
      (mv + 5 ≤ railMax k.val → ∃ t, exec (.voltageStep k slack) s = .next t ∧ getN (O.RAIL_SET_MV + k.val) t = mv + 5 ∧
        (k.val ∈ t.dev.bist.short ↔ slack < 30)) ∧
      (railMax k.val < mv + 5 → (k.val < 11 ∨ 26 < k.val) → ∃ t, exec (.voltageStep k slack) s = .next t ∧ k.val ∉ t.dev.bist.short ∧
        getN (O.RAIL_SET_MV + k.val) t = mv) ∧
      (railMax k.val < mv + 5 → 11 ≤ k.val → k.val ≤ 26 → let ceil := getN (O.ROW_FREQ_CEIL + (k.val - 11)) s
        (900 ≤ ceil → ∃ t, exec (.voltageStep k slack) s = .next t ∧ getN (O.ROW_FREQ_CEIL + (k.val - 11)) t = ceil - 100 ∧
          s.logged t 0x7022 ((k.val - 11) * 65536 + (ceil - 100)) ∧ (k.val ∈ t.dev.bist.short ↔ slack < 30)) ∧
        (ceil < 900 → ∃ t, exec (.voltageStep k slack) s = .next t ∧ k.val ∉ t.dev.bist.short ∧
          islandFenced (k.val - 11) t = true)))
/-! ### The whole machine -/

/-- R7, R64, R75, R163, R220, R382 and log entries 1 and 5: the machine at reset is off, nothing is queued or sent, every object reads its
default, no session, group, crate, channel or carrier is in use, no tally but those R163 keeps for firmware, and its memories are in
canonical form. That reset is the module without power, before the factory data comes with the first AUX_APPLIED, is the model's choice (log
entry 86). -/
def Obligations.ResetValues : Prop :=
  let s := State.reset
  s.devState = .off ∧ s.pending = [] ∧ s.sent = [] ∧ s.dict.log = [] ∧ s.memWf = true ∧ s.time.clocks = 0 ∧ timeBase s = 0 ∧
  (∀ key, getObj key s = objDefault key) ∧ (∀ n, (getSess n s).isOpen = false) ∧ (∀ id, (getCg id s).cgState = 0) ∧
  (∀ g, (getGroup g s).gstate = 0) ∧ s.coll.colls = [] ∧ (∀ st, (getStall st s).sstate = .idle) ∧ (∀ n, (getTally n s).tstate = if n < 1024 then 1 else 0) ∧
  (∀ h, (getCrate h s).rstate = 0) ∧ (∀ c, (getChan c s).cstate = .idle) ∧ (∀ q, (getQueue q s).segs = []) ∧
  (∀ c, (getCar c s).cstate = .dark) ∧ ∀ a n, readDev a n s = List.replicate n 0#8

/-- Every step keeps the memories in canonical form (log entry 5): in whatever state, with whatever command at the front, device memory and
the row exchange space stay lists of strictly rising addresses without an entry that reads as an unlisted byte does. -/
def Obligations.StepKeepsMemoryCanonical : Prop :=
  ∀ s t : State, s.memWf = true → step s = .next t → t.memWf = true

/-- R315, R316, Table 11.11: segments laid in a payload as R315 says are read back from it, every field and every byte of data, with
nothing bad; R115, Tables 3.7, 3.8 and 10.5: so is a control message of each type from its bytes. -/
def Obligations.SegmentsAndMessagesRoundTrip : Prop :=
  (∀ xs : List TxSeg, (∀ x ∈ xs, wfSegment x.seg = true ∧ 1 ≤ x.seg.kind ∧ x.seg.kind ≤ 5) → payloadLen xs ≤ 8112 →
    (payloadBytes xs).length = 8112 ∧ parsePayload 127 (payloadBytes xs) = ⟨xs.map (·.seg), 0, false⟩) ∧
  (∀ h : CtlHdr,
    let back (m : CtlMsg) : Prop := ctlOfBytes (ctlBytes m) = some m
    (∀ b, (Instr.hello h b).wf = true → back (.hello h b)) ∧
    (∀ b, (Instr.confirm h b).wf = true → back (.confirm h b)) ∧
    (∀ c a, (Instr.chunkReq h c a).wf = true → back (.chunkReq h c a)) ∧
    ((Instr.cancel h).wf = true → back (.cancel h)) ∧
    (∀ st ca, (Instr.endStatus h st ca).wf = true → back (.endStatus h st ca)) ∧
    (∀ c, (Instr.epochAdv h c).wf = true → back (.epochAdv h c)) ∧
    (∀ e es, (Instr.epochAck h e es).wf = true → back (.epochAck h e es)) ∧
    ∀ p pl bl, (Instr.credit h p pl bl).wf = true → back (.credit h p pl bl))
end

