-- ==== Sys2Proof/Laws/Maps.lean ====
section
/-! SUPPORT. Laws of the sparse maps: what a key reads as after a put, and that every operation keeps the canonical form. -/

namespace Sys2Proof.Machine

variable {α : Type}

/-! ### Reading -/

@[simp] theorem smGet_nil (d : Nat → α) (k : Nat) : smGet d k [] = d k := rfl

theorem smGet_erase_self (d : Nat → α) (k : Nat) (m : SMap α) : smGet d k (smErase k m) = d k := by
  induction m with
  | nil => rfl
  | cons c r ih => by_cases h : c.1 = k <;> simp [smErase, smGet, h, ih]

theorem smGet_erase_ne (d : Nat → α) {j k : Nat} (h : j ≠ k) (m : SMap α) : smGet d j (smErase k m) = smGet d j m := by
  induction m with
  | nil => rfl
  | cons c r ih =>
    by_cases hc : c.1 = k
    · simp only [smErase, smGet, hc, if_true, ih]
      rw [if_neg (Ne.symm h)]
    · by_cases hj : c.1 = j <;> simp [smErase, smGet, hc, hj, ih]
      rw [if_neg (hj ▸ hc)]; simp [smGet]

theorem smGet_insert_self (d : Nat → α) (k : Nat) (v : α) (m : SMap α) (hm : ∀ c ∈ m, c.1 ≠ k) :
    smGet d k (smInsert k v m) = v := by
  induction m with
  | nil => simp [smInsert, smGet]
  | cons c r ih =>
    have hc : c.1 ≠ k := hm c (by simp)
    have hr : ∀ c ∈ r, c.1 ≠ k := fun x hx => hm x (by simp [hx])
    simp only [smInsert]
    split
    · simp [smGet]
    · simp [smGet, hc, ih hr]

theorem smGet_insert_ne (d : Nat → α) {j k : Nat} (h : j ≠ k) (v : α) (m : SMap α) :
    smGet d j (smInsert k v m) = smGet d j m := by
  induction m with
  | nil => simp [smInsert, smGet, Ne.symm h]
  | cons c r ih =>
    simp only [smInsert]
    split
    · simp [smGet, Ne.symm h]
    · simp [smGet, ih]

theorem mem_smErase {k : Nat} {c : Nat × α} {m : SMap α} (h : c ∈ smErase k m) : c ∈ m ∧ c.1 ≠ k := by
  induction m with
  | nil => simp [smErase] at h
  | cons x r ih =>
    simp only [smErase] at h
    split at h
    · exact ⟨List.mem_cons_of_mem _ (ih h).1, (ih h).2⟩
    · rename_i hx
      rcases List.mem_cons.1 h with rfl | h
      · exact ⟨List.mem_cons_self, hx⟩
      · exact ⟨List.mem_cons_of_mem _ (ih h).1, (ih h).2⟩

/-- A put key reads as its value. -/
@[simp] theorem smGet_put_self [DecidableEq α] (d : Nat → α) (k : Nat) (v : α) (m : SMap α) :
    smGet d k (smPut d k v m) = v := by
  unfold smPut
  split
  · rename_i h; rw [smGet_erase_self, h]
  · exact smGet_insert_self d k v _ fun c hc => (mem_smErase hc).2

/-- Every other key reads as before. -/
theorem smGet_put_ne [DecidableEq α] (d : Nat → α) {j k : Nat} (h : j ≠ k) (v : α) (m : SMap α) :
    smGet d j (smPut d k v m) = smGet d j m := by
  unfold smPut
  split
  · exact smGet_erase_ne d h m
  · rw [smGet_insert_ne d h, smGet_erase_ne d h]

/-- A put, read at any key. -/
theorem smGet_put [DecidableEq α] (d : Nat → α) (j k : Nat) (v : α) (m : SMap α) :
    smGet d j (smPut d k v m) = if j = k then v else smGet d j m := by
  split
  · rename_i h; subst h; simp
  · rename_i h; exact smGet_put_ne d h v m

/-! ### The canonical form -/

/-- Keys above a bound. -/
def smAbove (lo : Option Nat) (j : Nat) : Prop := ∀ l, lo = some l → l < j

theorem smWfFrom_cons [DecidableEq α] (d : Nat → α) (lo : Option Nat) (j : Nat) (v : α) (r : SMap α) :
    smWfFrom d lo ((j, v) :: r) = true ↔ smAbove lo j ∧ v ≠ d j ∧ smWfFrom d (some j) r = true := by
  cases lo <;> simp [smWfFrom, smAbove, and_assoc]

theorem smWfFrom_mono [DecidableEq α] (d : Nat → α) {lo lo' : Option Nat} {m : SMap α} (h : smWfFrom d lo m = true)
    (hl : ∀ j, smAbove lo j → smAbove lo' j) : smWfFrom d lo' m = true := by
  cases m with
  | nil => rfl
  | cons c r =>
    obtain ⟨a, b, e⟩ := (smWfFrom_cons d lo c.1 c.2 r).1 h
    exact (smWfFrom_cons d lo' c.1 c.2 r).2 ⟨hl _ a, b, e⟩

theorem smErase_wfFrom [DecidableEq α] (d : Nat → α) (k : Nat) {lo : Option Nat} {m : SMap α} (h : smWfFrom d lo m = true) :
    smWfFrom d lo (smErase k m) = true := by
  induction m generalizing lo with
  | nil => rfl
  | cons c r ih =>
    obtain ⟨a, b, e⟩ := (smWfFrom_cons d lo c.1 c.2 r).1 h
    simp only [smErase]
    split
    · exact smWfFrom_mono d (ih e) fun j hj l hl => Nat.lt_trans (a l hl) (hj _ rfl)
    · exact (smWfFrom_cons d lo c.1 c.2 _).2 ⟨a, b, ih e⟩

theorem smInsert_wfFrom [DecidableEq α] (d : Nat → α) {k : Nat} {v : α} (hv : v ≠ d k) {lo : Option Nat} {m : SMap α}
    (h : smWfFrom d lo m = true) (hk : ∀ c ∈ m, c.1 ≠ k) (hlo : smAbove lo k) :
    smWfFrom d lo (smInsert k v m) = true := by
  induction m generalizing lo with
  | nil => exact (smWfFrom_cons d lo k v []).2 ⟨hlo, hv, rfl⟩
  | cons c r ih =>
    obtain ⟨a, b, e⟩ := (smWfFrom_cons d lo c.1 c.2 r).1 h
    have hc : c.1 ≠ k := hk c (by simp)
    simp only [smInsert]
    split
    · rename_i hlt
      refine (smWfFrom_cons d lo k v _).2 ⟨hlo, hv, (smWfFrom_cons d (some k) c.1 c.2 r).2 ⟨?_, b, e⟩⟩
      intro l hl; cases hl; exact hlt
    · rename_i hlt
      refine (smWfFrom_cons d lo c.1 c.2 _).2 ⟨a, b, ih e (fun x hx => hk x (by simp [hx])) ?_⟩
      intro l hl; cases hl; omega

/-- A put keeps the canonical form. -/
theorem smPut_wf [DecidableEq α] (d : Nat → α) (k : Nat) (v : α) {m : SMap α} (h : smWf d m = true) :
    smWf d (smPut d k v m) = true := by
  unfold smPut smWf at *
  split
  · exact smErase_wfFrom d k h
  · rename_i hv
    exact smInsert_wfFrom d hv (smErase_wfFrom d k h) (fun c hc => (mem_smErase hc).2) (by simp [smAbove])

@[simp] theorem smWf_nil [DecidableEq α] (d : Nat → α) : smWf d ([] : SMap α) = true := rfl

/-- A fold of steps that each keep the canonical form keeps it. -/
theorem foldl_wf [DecidableEq α] {β : Type} (d : Nat → α) (f : SMap α → β → SMap α)
    (hf : ∀ m b, smWf d m = true → smWf d (f m b) = true) (l : List β) {m : SMap α} (h : smWf d m = true) :
    smWf d (l.foldl f m) = true := by
  induction l generalizing m with
  | nil => exact h
  | cons b r ih => exact ih (hf m b h)

end Sys2Proof.Machine
end

