-- ==== Sys2Proof/Laws/Memory.lean ====
section
/-! SUPPORT. Laws of device memory: what a byte reads as after a write, and that every memory operation keeps the canonical form. -/

namespace Sys2Proof.Machine

variable {α : Type}

/-! ### Lists of cells -/

/-- Reading past cells that do not name the key. -/
theorem smGet_append_right (d : Nat → α) (k : Nat) (a b : SMap α) (h : ∀ c ∈ a, c.1 ≠ k) : smGet d k (a ++ b) = smGet d k b := by
  induction a with
  | nil => rfl
  | cons c r ih =>
    have hc : c.1 ≠ k := h c (by simp)
    simp only [List.cons_append, smGet, hc, if_false]
    exact ih fun x hx => h x (by simp [hx])

/-- Reading a key the rest does not name. -/
theorem smGet_append_left (d : Nat → α) (k : Nat) (a b : SMap α) (h : ∀ c ∈ b, c.1 ≠ k) : smGet d k (a ++ b) = smGet d k a := by
  induction a with
  | nil =>
    induction b with
    | nil => rfl
    | cons c r ih =>
      have hc : c.1 ≠ k := h c (by simp)
      simp only [List.nil_append, smGet, hc, if_false] at *
      exact ih fun x hx => h x (by simp [hx])
  | cons c r ih => by_cases hc : c.1 = k <;> simp [smGet, hc, ih]

/-- Reading a key that a filter keeps. -/
theorem smGet_filter (d : Nat → α) (k : Nat) (p : Nat × α → Bool) (m : SMap α) (h : ∀ v, p (k, v) = true) :
    smGet d k (m.filter p) = smGet d k m := by
  induction m with
  | nil => rfl
  | cons c r ih =>
    by_cases hc : c.1 = k
    · have : p c = true := by rw [show c = (k, c.2) by rw [← hc]]; exact h c.2
      simp [this, smGet, hc]
    · by_cases hp : p c = true
      · simp [hp, smGet, hc, ih]
      · simp [hp, smGet, hc, ih]

/-- Reading a key that a filter drops. -/
theorem smGet_filter_out (d : Nat → α) (k : Nat) (p : Nat × α → Bool) (m : SMap α) (h : ∀ v, p (k, v) = false) :
    smGet d k (m.filter p) = d k := by
  have : ∀ c ∈ m.filter p, c.1 ≠ k := by
    intro c hc hk
    have h1 := (List.mem_filter.1 hc).2
    rw [show c = (k, c.2) by rw [← hk], h c.2] at h1
    exact absurd h1 (by simp)
  have h2 := smGet_append_left d k [] (m.filter p) this
  simpa using h2

/-! ### Bytes -/

theorem memCells_key {a : Nat} {bs : List Byte} {c : Host.Cell} (h : c ∈ memCells a bs) : a ≤ c.1 ∧ c.1 < a + bs.length := by
  induction bs generalizing a with
  | nil => simp [memCells] at h
  | cons b r ih =>
    simp only [memCells] at h
    split at h
    · have := ih h; simp only [List.length_cons]; omega
    · rcases List.mem_cons.1 h with rfl | h
      · simp
      · have := ih h; simp only [List.length_cons]; omega

/-- The byte a list of cells holds. -/
theorem smGet_memCells (a i : Nat) (bs : List Byte) (hi : i < bs.length) : smGet memDefault (a + i) (memCells a bs) = bs[i] := by
  induction bs generalizing a i with
  | nil => simp at hi
  | cons b r ih =>
    cases i with
    | zero =>
      simp only [memCells, Nat.add_zero, List.getElem_cons_zero]
      split
      · rename_i hb
        have h : ∀ c ∈ memCells (a + 1) r, c.1 ≠ a := fun c hc => by have := memCells_key hc; omega
        have h2 := smGet_append_left memDefault a [] _ h
        rw [hb]; simpa [memDefault] using h2
      · simp [smGet]
    | succ n =>
      have hn : n < r.length := by simpa using hi
      have h := ih (a + 1) n hn
      have e : a + (n + 1) = a + 1 + n := by omega
      simp only [memCells, List.getElem_cons_succ, e]
      split
      · exact h
      · have : a ≠ a + 1 + n := by omega
        simp [smGet, this, h]

/-- A byte inside a write reads as written. -/
theorem smGet_memWrite_in (a i : Nat) (bs : List Byte) (m : SMap Byte) (hi : i < bs.length) :
    smGet memDefault (a + i) (memWrite a bs m) = bs[i] := by
  unfold memWrite
  rw [List.append_assoc, smGet_append_right, smGet_append_left, smGet_memCells a i bs hi]
  · intro c hc hk
    have := (List.mem_filter.1 hc).2
    simp at this; omega
  · intro c hc hk
    have := (List.mem_filter.1 hc).2
    simp at this; omega

/-- A byte outside a write reads as before. -/
theorem smGet_memWrite_out (a b : Nat) (bs : List Byte) (m : SMap Byte) (hb : b < a ∨ a + bs.length ≤ b) :
    smGet memDefault b (memWrite a bs m) = smGet memDefault b m := by
  unfold memWrite
  rcases hb with hb | hb
  · rw [List.append_assoc, smGet_append_left, smGet_filter]
    · intro v; simpa using hb
    · intro c hc hk
      rcases List.mem_append.1 hc with h | h
      · have := memCells_key h; omega
      · have := (List.mem_filter.1 h).2; simp at this; omega
  · rw [smGet_append_right, smGet_filter]
    · intro v; simpa using hb
    · intro c hc hk
      rcases List.mem_append.1 hc with h | h
      · have := (List.mem_filter.1 h).2; simp at this; omega
      · have := memCells_key h; omega

/-- Reading back what was written. -/
theorem memRead_memWrite (a : Nat) (bs : List Byte) (m : SMap Byte) : memRead a bs.length (memWrite a bs m) = bs := by
  apply List.ext_getElem
  · simp [memRead]
  · intro i h1 h2
    simp only [memRead, List.getElem_map, List.getElem_range]
    exact smGet_memWrite_in a i bs m h2

/-! ### The canonical form -/

/-- Lists in canonical form with a gap between them join. -/
theorem smWfFrom_append [DecidableEq α] (d : Nat → α) {lo : Option Nat} {a b : SMap α} (ha : smWfFrom d lo a = true)
    (hb : smWfFrom d lo b = true) (h : ∀ x ∈ a, ∀ y ∈ b, x.1 < y.1) : smWfFrom d lo (a ++ b) = true := by
  induction a generalizing lo with
  | nil => exact hb
  | cons c r ih =>
    obtain ⟨h1, h2, h3⟩ := (smWfFrom_cons d lo c.1 c.2 r).1 ha
    refine (smWfFrom_cons d lo c.1 c.2 _).2 ⟨h1, h2, ih h3 ?_ fun x hx y hy => h x (by simp [hx]) y hy⟩
    cases b with
    | nil => rfl
    | cons y s =>
      obtain ⟨_, g2, g3⟩ := (smWfFrom_cons d lo y.1 y.2 s).1 hb
      refine (smWfFrom_cons d _ y.1 y.2 s).2 ⟨?_, g2, g3⟩
      intro l hl; cases hl; exact h c (by simp) y (by simp)

/-- A filter keeps the canonical form. -/
theorem filter_wfFrom [DecidableEq α] (d : Nat → α) (p : Nat × α → Bool) {lo : Option Nat} {m : SMap α} (h : smWfFrom d lo m = true) :
    smWfFrom d lo (m.filter p) = true := by
  induction m generalizing lo with
  | nil => rfl
  | cons c r ih =>
    obtain ⟨h1, h2, h3⟩ := (smWfFrom_cons d lo c.1 c.2 r).1 h
    by_cases hp : p c = true
    · simp only [List.filter_cons, hp, if_true]
      exact (smWfFrom_cons d lo c.1 c.2 _).2 ⟨h1, h2, ih h3⟩
    · simp only [List.filter_cons, hp]
      exact smWfFrom_mono d (ih h3) fun j hj l hl => Nat.lt_trans (h1 l hl) (hj _ rfl)

theorem filter_wf [DecidableEq α] (d : Nat → α) (p : Nat × α → Bool) {m : SMap α} (h : smWf d m = true) :
    smWf d (m.filter p) = true := filter_wfFrom d p h

theorem memCells_wfFrom (a : Nat) (bs : List Byte) (lo : Option Nat) (h : smAbove lo a) : smWfFrom memDefault lo (memCells a bs) = true := by
  induction bs generalizing a lo with
  | nil => rfl
  | cons b r ih =>
    simp only [memCells]
    split
    · exact ih (a + 1) lo fun l hl => Nat.lt_succ_of_lt (h l hl)
    · rename_i hb
      refine (smWfFrom_cons _ _ _ _ _).2 ⟨h, hb, ih (a + 1) (some a) ?_⟩
      intro l hl; cases hl; omega

/-- A write keeps the canonical form. -/
theorem memWrite_wf (a : Nat) (bs : List Byte) {m : SMap Byte} (h : Memory.wf m = true) : Memory.wf (memWrite a bs m) = true := by
  unfold Memory.wf smWf memWrite at *
  refine smWfFrom_append _ (smWfFrom_append _ (filter_wfFrom _ _ h) (memCells_wfFrom a bs none (by simp [smAbove])) ?_)
    (filter_wfFrom _ _ h) ?_
  · intro x hx y hy
    have h1 := (List.mem_filter.1 hx).2
    have h2 := memCells_key hy
    simp at h1; omega
  · intro x hx y hy
    have h2 := (List.mem_filter.1 hy).2
    simp at h2
    rcases List.mem_append.1 hx with hx | hx
    · have h1 := (List.mem_filter.1 hx).2; simp at h1; omega
    · have h1 := memCells_key hx; omega

/-! ### Operations on the state -/

/-- Storing bytes in device memory keeps the canonical form. -/
theorem writeDev_memWf (a : Nat) (bs : List Byte) {s : State} (h : s.memWf = true) : (writeDev a bs s).memWf = true := by
  simp only [State.memWf, Bool.and_eq_true] at *
  exact ⟨memWrite_wf a bs h.1, h.2⟩

theorem writeDevP_memWf (a : Nat) (bs : List (Byte × Bool)) {s : State} (h : s.memWf = true) : (writeDevP a bs s).memWf = true := by
  simp only [State.memWf, Bool.and_eq_true] at *
  exact ⟨memWrite_wf a _ h.1, h.2⟩

/-- Storing bytes in the exchange space keeps the canonical form. -/
theorem writeRowx_memWf (a : Nat) (bs : List (Byte × Bool)) {s : State} (h : s.memWf = true) : (writeRowx a bs s).memWf = true := by
  simp only [State.memWf, Bool.and_eq_true] at *
  exact ⟨h.1, memWrite_wf a _ h.2⟩

/-- Clearing a range keeps the canonical form. -/
theorem zeroDev_memWf (a n : Nat) {s : State} (h : s.memWf = true) : (zeroDev a n s).memWf = true := by
  simp only [State.memWf, Bool.and_eq_true] at *
  exact ⟨filter_wf _ _ h.1, h.2⟩

/-- A byte of device memory outside a store reads as before. -/
theorem readDev_writeDevP_out (a b : Nat) (bs : List (Byte × Bool)) (s : State) (hb : b < a ∨ a + bs.length ≤ b) :
    readDev b 1 (writeDevP a bs s) = readDev b 1 s := by
  simp only [readDev, writeDevP, memRead, List.range_one, List.map_cons, List.map_nil, Nat.add_zero]
  rw [smGet_memWrite_out]
  simpa using hb

end Sys2Proof.Machine
end

