-- ==== Sys2Proof/Laws/State.lean ====
section
/-! SUPPORT. What each named update of the state leaves as it was: one lemma for each update, a conjunction with one part for each
field it does not write, all true by unfolding the update. -/

namespace Sys2Proof.Machine

@[simp] theorem emit_frame (o : Sent) (s : State) :
    (emit o s).devState = s.devState ∧ (emit o s).dict = s.dict ∧ (emit o s).coll = s.coll ∧ (emit o s).os = s.os ∧
    (emit o s).mem = s.mem ∧ (emit o s).poison = s.poison ∧ (emit o s).rowx = s.rowx ∧
    (emit o s).rowxPoison = s.rowxPoison ∧ (emit o s).comp = s.comp ∧ (emit o s).pools = s.pools ∧
    (emit o s).port = s.port ∧ (emit o s).sched = s.sched ∧ (emit o s).line = s.line ∧ (emit o s).time = s.time ∧
    (emit o s).crier = s.crier ∧ (emit o s).host = s.host ∧ (emit o s).dev = s.dev ∧ (emit o s).freeCtr = s.freeCtr ∧
    (emit o s).fabWait = s.fabWait ∧ (emit o s).pending = s.pending :=
  ⟨rfl, rfl, rfl, rfl, rfl, rfl, rfl, rfl, rfl, rfl, rfl, rfl, rfl, rfl, rfl, rfl, rfl, rfl, rfl, rfl⟩

@[simp] theorem freeNext_frame (s : State) :
    (freeNext s).devState = s.devState ∧ (freeNext s).dict = s.dict ∧ (freeNext s).coll = s.coll ∧
    (freeNext s).os = s.os ∧ (freeNext s).mem = s.mem ∧ (freeNext s).poison = s.poison ∧ (freeNext s).rowx = s.rowx ∧
    (freeNext s).rowxPoison = s.rowxPoison ∧ (freeNext s).comp = s.comp ∧ (freeNext s).pools = s.pools ∧
    (freeNext s).port = s.port ∧ (freeNext s).sched = s.sched ∧ (freeNext s).line = s.line ∧ (freeNext s).time = s.time ∧
    (freeNext s).crier = s.crier ∧ (freeNext s).host = s.host ∧ (freeNext s).dev = s.dev ∧ (freeNext s).sent = s.sent ∧
    (freeNext s).fabWait = s.fabWait ∧ (freeNext s).pending = s.pending :=
  ⟨rfl, rfl, rfl, rfl, rfl, rfl, rfl, rfl, rfl, rfl, rfl, rfl, rfl, rfl, rfl, rfl, rfl, rfl, rfl, rfl⟩

@[simp] theorem setObj_frame (key : Nat) (v : ObjVal) (s : State) :
    (setObj key v s).devState = s.devState ∧ (setObj key v s).coll = s.coll ∧ (setObj key v s).os = s.os ∧
    (setObj key v s).mem = s.mem ∧ (setObj key v s).poison = s.poison ∧ (setObj key v s).rowx = s.rowx ∧
    (setObj key v s).rowxPoison = s.rowxPoison ∧ (setObj key v s).comp = s.comp ∧ (setObj key v s).pools = s.pools ∧
    (setObj key v s).port = s.port ∧ (setObj key v s).sched = s.sched ∧ (setObj key v s).line = s.line ∧
    (setObj key v s).time = s.time ∧ (setObj key v s).crier = s.crier ∧ (setObj key v s).host = s.host ∧
    (setObj key v s).dev = s.dev ∧ (setObj key v s).sent = s.sent ∧ (setObj key v s).freeCtr = s.freeCtr ∧
    (setObj key v s).fabWait = s.fabWait ∧ (setObj key v s).pending = s.pending :=
  ⟨rfl, rfl, rfl, rfl, rfl, rfl, rfl, rfl, rfl, rfl, rfl, rfl, rfl, rfl, rfl, rfl, rfl, rfl, rfl, rfl⟩

@[simp] theorem setSess_frame (n : Nat) (x : Session) (s : State) :
    (setSess n x s).devState = s.devState ∧ (setSess n x s).coll = s.coll ∧ (setSess n x s).os = s.os ∧
    (setSess n x s).mem = s.mem ∧ (setSess n x s).poison = s.poison ∧ (setSess n x s).rowx = s.rowx ∧
    (setSess n x s).rowxPoison = s.rowxPoison ∧ (setSess n x s).comp = s.comp ∧ (setSess n x s).pools = s.pools ∧
    (setSess n x s).port = s.port ∧ (setSess n x s).sched = s.sched ∧ (setSess n x s).line = s.line ∧
    (setSess n x s).time = s.time ∧ (setSess n x s).crier = s.crier ∧ (setSess n x s).host = s.host ∧
    (setSess n x s).dev = s.dev ∧ (setSess n x s).sent = s.sent ∧ (setSess n x s).freeCtr = s.freeCtr ∧
    (setSess n x s).fabWait = s.fabWait ∧ (setSess n x s).pending = s.pending :=
  ⟨rfl, rfl, rfl, rfl, rfl, rfl, rfl, rfl, rfl, rfl, rfl, rfl, rfl, rfl, rfl, rfl, rfl, rfl, rfl, rfl⟩

@[simp] theorem setCg_frame (id : Nat) (g : CommitGroup) (s : State) :
    (setCg id g s).devState = s.devState ∧ (setCg id g s).coll = s.coll ∧ (setCg id g s).os = s.os ∧
    (setCg id g s).mem = s.mem ∧ (setCg id g s).poison = s.poison ∧ (setCg id g s).rowx = s.rowx ∧
    (setCg id g s).rowxPoison = s.rowxPoison ∧ (setCg id g s).comp = s.comp ∧ (setCg id g s).pools = s.pools ∧
    (setCg id g s).port = s.port ∧ (setCg id g s).sched = s.sched ∧ (setCg id g s).line = s.line ∧
    (setCg id g s).time = s.time ∧ (setCg id g s).crier = s.crier ∧ (setCg id g s).host = s.host ∧
    (setCg id g s).dev = s.dev ∧ (setCg id g s).sent = s.sent ∧ (setCg id g s).freeCtr = s.freeCtr ∧
    (setCg id g s).fabWait = s.fabWait ∧ (setCg id g s).pending = s.pending :=
  ⟨rfl, rfl, rfl, rfl, rfl, rfl, rfl, rfl, rfl, rfl, rfl, rfl, rfl, rfl, rfl, rfl, rfl, rfl, rfl, rfl⟩

@[simp] theorem logOne_frame (code arg : Nat) (s : State) :
    (logOne code arg s).devState = s.devState ∧ (logOne code arg s).coll = s.coll ∧ (logOne code arg s).os = s.os ∧
    (logOne code arg s).mem = s.mem ∧ (logOne code arg s).poison = s.poison ∧ (logOne code arg s).rowx = s.rowx ∧
    (logOne code arg s).rowxPoison = s.rowxPoison ∧ (logOne code arg s).comp = s.comp ∧
    (logOne code arg s).pools = s.pools ∧ (logOne code arg s).port = s.port ∧ (logOne code arg s).sched = s.sched ∧
    (logOne code arg s).line = s.line ∧ (logOne code arg s).time = s.time ∧ (logOne code arg s).crier = s.crier ∧
    (logOne code arg s).host = s.host ∧ (logOne code arg s).dev = s.dev ∧ (logOne code arg s).sent = s.sent ∧
    (logOne code arg s).freeCtr = s.freeCtr ∧ (logOne code arg s).fabWait = s.fabWait ∧
    (logOne code arg s).pending = s.pending :=
  ⟨rfl, rfl, rfl, rfl, rfl, rfl, rfl, rfl, rfl, rfl, rfl, rfl, rfl, rfl, rfl, rfl, rfl, rfl, rfl, rfl⟩

@[simp] theorem setCar_frame (c : Nat) (x : Carrier) (s : State) :
    (setCar c x s).devState = s.devState ∧ (setCar c x s).dict = s.dict ∧ (setCar c x s).coll = s.coll ∧
    (setCar c x s).os = s.os ∧ (setCar c x s).mem = s.mem ∧ (setCar c x s).poison = s.poison ∧
    (setCar c x s).rowx = s.rowx ∧ (setCar c x s).rowxPoison = s.rowxPoison ∧ (setCar c x s).comp = s.comp ∧
    (setCar c x s).pools = s.pools ∧ (setCar c x s).port = s.port ∧ (setCar c x s).sched = s.sched ∧
    (setCar c x s).time = s.time ∧ (setCar c x s).crier = s.crier ∧ (setCar c x s).host = s.host ∧
    (setCar c x s).dev = s.dev ∧ (setCar c x s).sent = s.sent ∧ (setCar c x s).freeCtr = s.freeCtr ∧
    (setCar c x s).fabWait = s.fabWait ∧ (setCar c x s).pending = s.pending :=
  ⟨rfl, rfl, rfl, rfl, rfl, rfl, rfl, rfl, rfl, rfl, rfl, rfl, rfl, rfl, rfl, rfl, rfl, rfl, rfl, rfl⟩

@[simp] theorem setPort_frame (n : Nat) (x : LinePort) (s : State) :
    (setPort n x s).devState = s.devState ∧ (setPort n x s).dict = s.dict ∧ (setPort n x s).coll = s.coll ∧
    (setPort n x s).os = s.os ∧ (setPort n x s).mem = s.mem ∧ (setPort n x s).poison = s.poison ∧
    (setPort n x s).rowx = s.rowx ∧ (setPort n x s).rowxPoison = s.rowxPoison ∧ (setPort n x s).comp = s.comp ∧
    (setPort n x s).pools = s.pools ∧ (setPort n x s).port = s.port ∧ (setPort n x s).sched = s.sched ∧
    (setPort n x s).time = s.time ∧ (setPort n x s).crier = s.crier ∧ (setPort n x s).host = s.host ∧
    (setPort n x s).dev = s.dev ∧ (setPort n x s).sent = s.sent ∧ (setPort n x s).freeCtr = s.freeCtr ∧
    (setPort n x s).fabWait = s.fabWait ∧ (setPort n x s).pending = s.pending :=
  ⟨rfl, rfl, rfl, rfl, rfl, rfl, rfl, rfl, rfl, rfl, rfl, rfl, rfl, rfl, rfl, rfl, rfl, rfl, rfl, rfl⟩

@[simp] theorem setLaser_frame (p : Nat) (x : Laser) (s : State) :
    (setLaser p x s).devState = s.devState ∧ (setLaser p x s).dict = s.dict ∧ (setLaser p x s).coll = s.coll ∧
    (setLaser p x s).os = s.os ∧ (setLaser p x s).mem = s.mem ∧ (setLaser p x s).poison = s.poison ∧
    (setLaser p x s).rowx = s.rowx ∧ (setLaser p x s).rowxPoison = s.rowxPoison ∧ (setLaser p x s).comp = s.comp ∧
    (setLaser p x s).pools = s.pools ∧ (setLaser p x s).port = s.port ∧ (setLaser p x s).sched = s.sched ∧
    (setLaser p x s).time = s.time ∧ (setLaser p x s).crier = s.crier ∧ (setLaser p x s).host = s.host ∧
    (setLaser p x s).dev = s.dev ∧ (setLaser p x s).sent = s.sent ∧ (setLaser p x s).freeCtr = s.freeCtr ∧
    (setLaser p x s).fabWait = s.fabWait ∧ (setLaser p x s).pending = s.pending :=
  ⟨rfl, rfl, rfl, rfl, rfl, rfl, rfl, rfl, rfl, rfl, rfl, rfl, rfl, rfl, rfl, rfl, rfl, rfl, rfl, rfl⟩

@[simp] theorem setStaged_frame (k : Nat) (x : KeySlot) (s : State) :
    (setStaged k x s).devState = s.devState ∧ (setStaged k x s).dict = s.dict ∧ (setStaged k x s).coll = s.coll ∧
    (setStaged k x s).os = s.os ∧ (setStaged k x s).mem = s.mem ∧ (setStaged k x s).poison = s.poison ∧
    (setStaged k x s).rowx = s.rowx ∧ (setStaged k x s).rowxPoison = s.rowxPoison ∧ (setStaged k x s).comp = s.comp ∧
    (setStaged k x s).pools = s.pools ∧ (setStaged k x s).port = s.port ∧ (setStaged k x s).sched = s.sched ∧
    (setStaged k x s).time = s.time ∧ (setStaged k x s).crier = s.crier ∧ (setStaged k x s).host = s.host ∧
    (setStaged k x s).dev = s.dev ∧ (setStaged k x s).sent = s.sent ∧ (setStaged k x s).freeCtr = s.freeCtr ∧
    (setStaged k x s).fabWait = s.fabWait ∧ (setStaged k x s).pending = s.pending :=
  ⟨rfl, rfl, rfl, rfl, rfl, rfl, rfl, rfl, rfl, rfl, rfl, rfl, rfl, rfl, rfl, rfl, rfl, rfl, rfl, rfl⟩

@[simp] theorem setSpareUser_frame (i : Nat) (c : Option Nat) (s : State) :
    (setSpareUser i c s).devState = s.devState ∧ (setSpareUser i c s).dict = s.dict ∧ (setSpareUser i c s).coll = s.coll ∧
    (setSpareUser i c s).os = s.os ∧ (setSpareUser i c s).mem = s.mem ∧ (setSpareUser i c s).poison = s.poison ∧
    (setSpareUser i c s).rowx = s.rowx ∧ (setSpareUser i c s).rowxPoison = s.rowxPoison ∧
    (setSpareUser i c s).comp = s.comp ∧ (setSpareUser i c s).pools = s.pools ∧ (setSpareUser i c s).port = s.port ∧
    (setSpareUser i c s).sched = s.sched ∧ (setSpareUser i c s).time = s.time ∧ (setSpareUser i c s).crier = s.crier ∧
    (setSpareUser i c s).host = s.host ∧ (setSpareUser i c s).dev = s.dev ∧ (setSpareUser i c s).sent = s.sent ∧
    (setSpareUser i c s).freeCtr = s.freeCtr ∧ (setSpareUser i c s).fabWait = s.fabWait ∧
    (setSpareUser i c s).pending = s.pending :=
  ⟨rfl, rfl, rfl, rfl, rfl, rfl, rfl, rfl, rfl, rfl, rfl, rfl, rfl, rfl, rfl, rfl, rfl, rfl, rfl, rfl⟩

@[simp] theorem modOs_frame (f : OuterStep → OuterStep) (s : State) :
    (modOs f s).devState = s.devState ∧ (modOs f s).dict = s.dict ∧ (modOs f s).coll = s.coll ∧ (modOs f s).mem = s.mem ∧
    (modOs f s).poison = s.poison ∧ (modOs f s).rowx = s.rowx ∧ (modOs f s).rowxPoison = s.rowxPoison ∧
    (modOs f s).comp = s.comp ∧ (modOs f s).pools = s.pools ∧ (modOs f s).port = s.port ∧ (modOs f s).sched = s.sched ∧
    (modOs f s).line = s.line ∧ (modOs f s).time = s.time ∧ (modOs f s).crier = s.crier ∧ (modOs f s).host = s.host ∧
    (modOs f s).dev = s.dev ∧ (modOs f s).sent = s.sent ∧ (modOs f s).freeCtr = s.freeCtr ∧
    (modOs f s).fabWait = s.fabWait ∧ (modOs f s).pending = s.pending :=
  ⟨rfl, rfl, rfl, rfl, rfl, rfl, rfl, rfl, rfl, rfl, rfl, rfl, rfl, rfl, rfl, rfl, rfl, rfl, rfl, rfl⟩

@[simp] theorem setStall_frame (n : Nat) (x : Stall) (s : State) :
    (setStall n x s).devState = s.devState ∧ (setStall n x s).dict = s.dict ∧ (setStall n x s).coll = s.coll ∧
    (setStall n x s).os = s.os ∧ (setStall n x s).mem = s.mem ∧ (setStall n x s).poison = s.poison ∧
    (setStall n x s).rowx = s.rowx ∧ (setStall n x s).rowxPoison = s.rowxPoison ∧ (setStall n x s).pools = s.pools ∧
    (setStall n x s).port = s.port ∧ (setStall n x s).sched = s.sched ∧ (setStall n x s).line = s.line ∧
    (setStall n x s).time = s.time ∧ (setStall n x s).crier = s.crier ∧ (setStall n x s).host = s.host ∧
    (setStall n x s).dev = s.dev ∧ (setStall n x s).sent = s.sent ∧ (setStall n x s).freeCtr = s.freeCtr ∧
    (setStall n x s).fabWait = s.fabWait ∧ (setStall n x s).pending = s.pending :=
  ⟨rfl, rfl, rfl, rfl, rfl, rfl, rfl, rfl, rfl, rfl, rfl, rfl, rfl, rfl, rfl, rfl, rfl, rfl, rfl, rfl⟩

@[simp] theorem setUnit_frame (tag : Nat) (u : UnitEnt) (s : State) :
    (setUnit tag u s).devState = s.devState ∧ (setUnit tag u s).dict = s.dict ∧ (setUnit tag u s).coll = s.coll ∧
    (setUnit tag u s).os = s.os ∧ (setUnit tag u s).mem = s.mem ∧ (setUnit tag u s).poison = s.poison ∧
    (setUnit tag u s).rowx = s.rowx ∧ (setUnit tag u s).rowxPoison = s.rowxPoison ∧ (setUnit tag u s).pools = s.pools ∧
    (setUnit tag u s).port = s.port ∧ (setUnit tag u s).sched = s.sched ∧ (setUnit tag u s).line = s.line ∧
    (setUnit tag u s).time = s.time ∧ (setUnit tag u s).crier = s.crier ∧ (setUnit tag u s).host = s.host ∧
    (setUnit tag u s).dev = s.dev ∧ (setUnit tag u s).sent = s.sent ∧ (setUnit tag u s).freeCtr = s.freeCtr ∧
    (setUnit tag u s).fabWait = s.fabWait ∧ (setUnit tag u s).pending = s.pending :=
  ⟨rfl, rfl, rfl, rfl, rfl, rfl, rfl, rfl, rfl, rfl, rfl, rfl, rfl, rfl, rfl, rfl, rfl, rfl, rfl, rfl⟩

@[simp] theorem setTally_frame (t : Nat) (x : Tally) (s : State) :
    (setTally t x s).devState = s.devState ∧ (setTally t x s).dict = s.dict ∧ (setTally t x s).coll = s.coll ∧
    (setTally t x s).os = s.os ∧ (setTally t x s).mem = s.mem ∧ (setTally t x s).poison = s.poison ∧
    (setTally t x s).rowx = s.rowx ∧ (setTally t x s).rowxPoison = s.rowxPoison ∧ (setTally t x s).pools = s.pools ∧
    (setTally t x s).port = s.port ∧ (setTally t x s).sched = s.sched ∧ (setTally t x s).line = s.line ∧
    (setTally t x s).time = s.time ∧ (setTally t x s).crier = s.crier ∧ (setTally t x s).host = s.host ∧
    (setTally t x s).dev = s.dev ∧ (setTally t x s).sent = s.sent ∧ (setTally t x s).freeCtr = s.freeCtr ∧
    (setTally t x s).fabWait = s.fabWait ∧ (setTally t x s).pending = s.pending :=
  ⟨rfl, rfl, rfl, rfl, rfl, rfl, rfl, rfl, rfl, rfl, rfl, rfl, rfl, rfl, rfl, rfl, rfl, rfl, rfl, rfl⟩

@[simp] theorem setPlacement_frame (n : Nat) (p : Placement) (s : State) :
    (setPlacement n p s).devState = s.devState ∧ (setPlacement n p s).dict = s.dict ∧ (setPlacement n p s).coll = s.coll ∧
    (setPlacement n p s).os = s.os ∧ (setPlacement n p s).mem = s.mem ∧ (setPlacement n p s).poison = s.poison ∧
    (setPlacement n p s).rowx = s.rowx ∧ (setPlacement n p s).rowxPoison = s.rowxPoison ∧
    (setPlacement n p s).pools = s.pools ∧ (setPlacement n p s).port = s.port ∧ (setPlacement n p s).sched = s.sched ∧
    (setPlacement n p s).line = s.line ∧ (setPlacement n p s).time = s.time ∧ (setPlacement n p s).crier = s.crier ∧
    (setPlacement n p s).host = s.host ∧ (setPlacement n p s).dev = s.dev ∧ (setPlacement n p s).sent = s.sent ∧
    (setPlacement n p s).freeCtr = s.freeCtr ∧ (setPlacement n p s).fabWait = s.fabWait ∧
    (setPlacement n p s).pending = s.pending :=
  ⟨rfl, rfl, rfl, rfl, rfl, rfl, rfl, rfl, rfl, rfl, rfl, rfl, rfl, rfl, rfl, rfl, rfl, rfl, rfl, rfl⟩

@[simp] theorem histBump_frame (tag slot k : Nat) (s : State) :
    (histBump tag slot k s).devState = s.devState ∧ (histBump tag slot k s).dict = s.dict ∧
    (histBump tag slot k s).coll = s.coll ∧ (histBump tag slot k s).os = s.os ∧ (histBump tag slot k s).mem = s.mem ∧
    (histBump tag slot k s).poison = s.poison ∧ (histBump tag slot k s).rowx = s.rowx ∧
    (histBump tag slot k s).rowxPoison = s.rowxPoison ∧ (histBump tag slot k s).pools = s.pools ∧
    (histBump tag slot k s).port = s.port ∧ (histBump tag slot k s).sched = s.sched ∧
    (histBump tag slot k s).line = s.line ∧ (histBump tag slot k s).time = s.time ∧
    (histBump tag slot k s).crier = s.crier ∧ (histBump tag slot k s).host = s.host ∧
    (histBump tag slot k s).dev = s.dev ∧ (histBump tag slot k s).sent = s.sent ∧
    (histBump tag slot k s).freeCtr = s.freeCtr ∧ (histBump tag slot k s).fabWait = s.fabWait ∧
    (histBump tag slot k s).pending = s.pending :=
  ⟨rfl, rfl, rfl, rfl, rfl, rfl, rfl, rfl, rfl, rfl, rfl, rfl, rfl, rfl, rfl, rfl, rfl, rfl, rfl, rfl⟩

@[simp] theorem histClear_frame (tag slot : Nat) (s : State) :
    (histClear tag slot s).devState = s.devState ∧ (histClear tag slot s).dict = s.dict ∧
    (histClear tag slot s).coll = s.coll ∧ (histClear tag slot s).os = s.os ∧ (histClear tag slot s).mem = s.mem ∧
    (histClear tag slot s).poison = s.poison ∧ (histClear tag slot s).rowx = s.rowx ∧
    (histClear tag slot s).rowxPoison = s.rowxPoison ∧ (histClear tag slot s).pools = s.pools ∧
    (histClear tag slot s).port = s.port ∧ (histClear tag slot s).sched = s.sched ∧ (histClear tag slot s).line = s.line ∧
    (histClear tag slot s).time = s.time ∧ (histClear tag slot s).crier = s.crier ∧ (histClear tag slot s).host = s.host ∧
    (histClear tag slot s).dev = s.dev ∧ (histClear tag slot s).sent = s.sent ∧
    (histClear tag slot s).freeCtr = s.freeCtr ∧ (histClear tag slot s).fabWait = s.fabWait ∧
    (histClear tag slot s).pending = s.pending :=
  ⟨rfl, rfl, rfl, rfl, rfl, rfl, rfl, rfl, rfl, rfl, rfl, rfl, rfl, rfl, rfl, rfl, rfl, rfl, rfl, rfl⟩

@[simp] theorem modCrier_frame (f : CrierEngine → CrierEngine) (s : State) :
    (modCrier f s).devState = s.devState ∧ (modCrier f s).dict = s.dict ∧ (modCrier f s).coll = s.coll ∧
    (modCrier f s).os = s.os ∧ (modCrier f s).mem = s.mem ∧ (modCrier f s).poison = s.poison ∧
    (modCrier f s).rowx = s.rowx ∧ (modCrier f s).rowxPoison = s.rowxPoison ∧ (modCrier f s).comp = s.comp ∧
    (modCrier f s).pools = s.pools ∧ (modCrier f s).port = s.port ∧ (modCrier f s).sched = s.sched ∧
    (modCrier f s).line = s.line ∧ (modCrier f s).time = s.time ∧ (modCrier f s).host = s.host ∧
    (modCrier f s).dev = s.dev ∧ (modCrier f s).sent = s.sent ∧ (modCrier f s).freeCtr = s.freeCtr ∧
    (modCrier f s).fabWait = s.fabWait ∧ (modCrier f s).pending = s.pending :=
  ⟨rfl, rfl, rfl, rfl, rfl, rfl, rfl, rfl, rfl, rfl, rfl, rfl, rfl, rfl, rfl, rfl, rfl, rfl, rfl, rfl⟩

@[simp] theorem setChan_frame (c : Nat) (x : Channel) (s : State) :
    (setChan c x s).devState = s.devState ∧ (setChan c x s).dict = s.dict ∧ (setChan c x s).coll = s.coll ∧
    (setChan c x s).os = s.os ∧ (setChan c x s).mem = s.mem ∧ (setChan c x s).poison = s.poison ∧
    (setChan c x s).rowx = s.rowx ∧ (setChan c x s).rowxPoison = s.rowxPoison ∧ (setChan c x s).comp = s.comp ∧
    (setChan c x s).pools = s.pools ∧ (setChan c x s).sched = s.sched ∧ (setChan c x s).line = s.line ∧
    (setChan c x s).time = s.time ∧ (setChan c x s).crier = s.crier ∧ (setChan c x s).host = s.host ∧
    (setChan c x s).dev = s.dev ∧ (setChan c x s).sent = s.sent ∧ (setChan c x s).freeCtr = s.freeCtr ∧
    (setChan c x s).fabWait = s.fabWait ∧ (setChan c x s).pending = s.pending :=
  ⟨rfl, rfl, rfl, rfl, rfl, rfl, rfl, rfl, rfl, rfl, rfl, rfl, rfl, rfl, rfl, rfl, rfl, rfl, rfl, rfl⟩

@[simp] theorem modHost_frame (f : HostSide → HostSide) (s : State) :
    (modHost f s).devState = s.devState ∧ (modHost f s).dict = s.dict ∧ (modHost f s).coll = s.coll ∧
    (modHost f s).os = s.os ∧ (modHost f s).mem = s.mem ∧ (modHost f s).poison = s.poison ∧ (modHost f s).rowx = s.rowx ∧
    (modHost f s).rowxPoison = s.rowxPoison ∧ (modHost f s).comp = s.comp ∧ (modHost f s).pools = s.pools ∧
    (modHost f s).port = s.port ∧ (modHost f s).sched = s.sched ∧ (modHost f s).line = s.line ∧
    (modHost f s).time = s.time ∧ (modHost f s).crier = s.crier ∧ (modHost f s).dev = s.dev ∧
    (modHost f s).sent = s.sent ∧ (modHost f s).freeCtr = s.freeCtr ∧ (modHost f s).fabWait = s.fabWait ∧
    (modHost f s).pending = s.pending :=
  ⟨rfl, rfl, rfl, rfl, rfl, rfl, rfl, rfl, rfl, rfl, rfl, rfl, rfl, rfl, rfl, rfl, rfl, rfl, rfl, rfl⟩

@[simp] theorem setRing_frame (k : Nat) (r : Ring) (s : State) :
    (setRing k r s).devState = s.devState ∧ (setRing k r s).dict = s.dict ∧ (setRing k r s).coll = s.coll ∧
    (setRing k r s).os = s.os ∧ (setRing k r s).mem = s.mem ∧ (setRing k r s).poison = s.poison ∧
    (setRing k r s).rowx = s.rowx ∧ (setRing k r s).rowxPoison = s.rowxPoison ∧ (setRing k r s).comp = s.comp ∧
    (setRing k r s).pools = s.pools ∧ (setRing k r s).port = s.port ∧ (setRing k r s).sched = s.sched ∧
    (setRing k r s).line = s.line ∧ (setRing k r s).time = s.time ∧ (setRing k r s).crier = s.crier ∧
    (setRing k r s).dev = s.dev ∧ (setRing k r s).sent = s.sent ∧ (setRing k r s).freeCtr = s.freeCtr ∧
    (setRing k r s).fabWait = s.fabWait ∧ (setRing k r s).pending = s.pending :=
  ⟨rfl, rfl, rfl, rfl, rfl, rfl, rfl, rfl, rfl, rfl, rfl, rfl, rfl, rfl, rfl, rfl, rfl, rfl, rfl, rfl⟩

@[simp] theorem setFab_frame (k : Nat) (x : FabricPort) (s : State) :
    (setFab k x s).devState = s.devState ∧ (setFab k x s).dict = s.dict ∧ (setFab k x s).coll = s.coll ∧
    (setFab k x s).os = s.os ∧ (setFab k x s).mem = s.mem ∧ (setFab k x s).poison = s.poison ∧
    (setFab k x s).rowx = s.rowx ∧ (setFab k x s).rowxPoison = s.rowxPoison ∧ (setFab k x s).comp = s.comp ∧
    (setFab k x s).pools = s.pools ∧ (setFab k x s).port = s.port ∧ (setFab k x s).sched = s.sched ∧
    (setFab k x s).line = s.line ∧ (setFab k x s).time = s.time ∧ (setFab k x s).crier = s.crier ∧
    (setFab k x s).dev = s.dev ∧ (setFab k x s).sent = s.sent ∧ (setFab k x s).freeCtr = s.freeCtr ∧
    (setFab k x s).fabWait = s.fabWait ∧ (setFab k x s).pending = s.pending :=
  ⟨rfl, rfl, rfl, rfl, rfl, rfl, rfl, rfl, rfl, rfl, rfl, rfl, rfl, rfl, rfl, rfl, rfl, rfl, rfl, rfl⟩

@[simp] theorem modTime_frame (f : TimeBase → TimeBase) (s : State) :
    (modTime f s).devState = s.devState ∧ (modTime f s).dict = s.dict ∧ (modTime f s).coll = s.coll ∧
    (modTime f s).os = s.os ∧ (modTime f s).mem = s.mem ∧ (modTime f s).poison = s.poison ∧ (modTime f s).rowx = s.rowx ∧
    (modTime f s).rowxPoison = s.rowxPoison ∧ (modTime f s).comp = s.comp ∧ (modTime f s).pools = s.pools ∧
    (modTime f s).port = s.port ∧ (modTime f s).sched = s.sched ∧ (modTime f s).line = s.line ∧
    (modTime f s).crier = s.crier ∧ (modTime f s).host = s.host ∧ (modTime f s).dev = s.dev ∧
    (modTime f s).sent = s.sent ∧ (modTime f s).freeCtr = s.freeCtr ∧ (modTime f s).fabWait = s.fabWait ∧
    (modTime f s).pending = s.pending :=
  ⟨rfl, rfl, rfl, rfl, rfl, rfl, rfl, rfl, rfl, rfl, rfl, rfl, rfl, rfl, rfl, rfl, rfl, rfl, rfl, rfl⟩

@[simp] theorem modColl_frame (g seq ep : Nat) (f : Coll → Coll) (s : State) :
    (modColl g seq ep f s).devState = s.devState ∧ (modColl g seq ep f s).dict = s.dict ∧
    (modColl g seq ep f s).os = s.os ∧ (modColl g seq ep f s).mem = s.mem ∧ (modColl g seq ep f s).poison = s.poison ∧
    (modColl g seq ep f s).rowx = s.rowx ∧ (modColl g seq ep f s).rowxPoison = s.rowxPoison ∧
    (modColl g seq ep f s).comp = s.comp ∧ (modColl g seq ep f s).pools = s.pools ∧ (modColl g seq ep f s).port = s.port ∧
    (modColl g seq ep f s).sched = s.sched ∧ (modColl g seq ep f s).line = s.line ∧ (modColl g seq ep f s).time = s.time ∧
    (modColl g seq ep f s).crier = s.crier ∧ (modColl g seq ep f s).host = s.host ∧ (modColl g seq ep f s).dev = s.dev ∧
    (modColl g seq ep f s).sent = s.sent ∧ (modColl g seq ep f s).freeCtr = s.freeCtr ∧
    (modColl g seq ep f s).fabWait = s.fabWait ∧ (modColl g seq ep f s).pending = s.pending :=
  ⟨rfl, rfl, rfl, rfl, rfl, rfl, rfl, rfl, rfl, rfl, rfl, rfl, rfl, rfl, rfl, rfl, rfl, rfl, rfl, rfl⟩

@[simp] theorem setGroup_frame (g : Nat) (x : Group) (s : State) :
    (setGroup g x s).devState = s.devState ∧ (setGroup g x s).dict = s.dict ∧ (setGroup g x s).os = s.os ∧
    (setGroup g x s).mem = s.mem ∧ (setGroup g x s).poison = s.poison ∧ (setGroup g x s).rowx = s.rowx ∧
    (setGroup g x s).rowxPoison = s.rowxPoison ∧ (setGroup g x s).comp = s.comp ∧ (setGroup g x s).pools = s.pools ∧
    (setGroup g x s).port = s.port ∧ (setGroup g x s).sched = s.sched ∧ (setGroup g x s).line = s.line ∧
    (setGroup g x s).time = s.time ∧ (setGroup g x s).crier = s.crier ∧ (setGroup g x s).host = s.host ∧
    (setGroup g x s).dev = s.dev ∧ (setGroup g x s).sent = s.sent ∧ (setGroup g x s).freeCtr = s.freeCtr ∧
    (setGroup g x s).fabWait = s.fabWait ∧ (setGroup g x s).pending = s.pending :=
  ⟨rfl, rfl, rfl, rfl, rfl, rfl, rfl, rfl, rfl, rfl, rfl, rfl, rfl, rfl, rfl, rfl, rfl, rfl, rfl, rfl⟩

@[simp] theorem setCrate_frame (h : Nat) (c : Crate) (s : State) :
    (setCrate h c s).devState = s.devState ∧ (setCrate h c s).dict = s.dict ∧ (setCrate h c s).coll = s.coll ∧
    (setCrate h c s).os = s.os ∧ (setCrate h c s).mem = s.mem ∧ (setCrate h c s).poison = s.poison ∧
    (setCrate h c s).rowx = s.rowx ∧ (setCrate h c s).rowxPoison = s.rowxPoison ∧ (setCrate h c s).comp = s.comp ∧
    (setCrate h c s).port = s.port ∧ (setCrate h c s).sched = s.sched ∧ (setCrate h c s).line = s.line ∧
    (setCrate h c s).time = s.time ∧ (setCrate h c s).crier = s.crier ∧ (setCrate h c s).host = s.host ∧
    (setCrate h c s).dev = s.dev ∧ (setCrate h c s).sent = s.sent ∧ (setCrate h c s).freeCtr = s.freeCtr ∧
    (setCrate h c s).fabWait = s.fabWait ∧ (setCrate h c s).pending = s.pending :=
  ⟨rfl, rfl, rfl, rfl, rfl, rfl, rfl, rfl, rfl, rfl, rfl, rfl, rfl, rfl, rfl, rfl, rfl, rfl, rfl, rfl⟩

@[simp] theorem setFifo_frame (n : Nat) (f : Fifo) (s : State) :
    (setFifo n f s).devState = s.devState ∧ (setFifo n f s).dict = s.dict ∧ (setFifo n f s).coll = s.coll ∧
    (setFifo n f s).os = s.os ∧ (setFifo n f s).mem = s.mem ∧ (setFifo n f s).poison = s.poison ∧
    (setFifo n f s).rowx = s.rowx ∧ (setFifo n f s).rowxPoison = s.rowxPoison ∧ (setFifo n f s).comp = s.comp ∧
    (setFifo n f s).port = s.port ∧ (setFifo n f s).sched = s.sched ∧ (setFifo n f s).line = s.line ∧
    (setFifo n f s).time = s.time ∧ (setFifo n f s).crier = s.crier ∧ (setFifo n f s).host = s.host ∧
    (setFifo n f s).dev = s.dev ∧ (setFifo n f s).sent = s.sent ∧ (setFifo n f s).freeCtr = s.freeCtr ∧
    (setFifo n f s).fabWait = s.fabWait ∧ (setFifo n f s).pending = s.pending :=
  ⟨rfl, rfl, rfl, rfl, rfl, rfl, rfl, rfl, rfl, rfl, rfl, rfl, rfl, rfl, rfl, rfl, rfl, rfl, rfl, rfl⟩

@[simp] theorem setStore_frame (cls : Nat) (f : FreeStore) (s : State) :
    (setStore cls f s).devState = s.devState ∧ (setStore cls f s).dict = s.dict ∧ (setStore cls f s).coll = s.coll ∧
    (setStore cls f s).os = s.os ∧ (setStore cls f s).mem = s.mem ∧ (setStore cls f s).poison = s.poison ∧
    (setStore cls f s).rowx = s.rowx ∧ (setStore cls f s).rowxPoison = s.rowxPoison ∧ (setStore cls f s).comp = s.comp ∧
    (setStore cls f s).port = s.port ∧ (setStore cls f s).sched = s.sched ∧ (setStore cls f s).line = s.line ∧
    (setStore cls f s).time = s.time ∧ (setStore cls f s).crier = s.crier ∧ (setStore cls f s).host = s.host ∧
    (setStore cls f s).dev = s.dev ∧ (setStore cls f s).sent = s.sent ∧ (setStore cls f s).freeCtr = s.freeCtr ∧
    (setStore cls f s).fabWait = s.fabWait ∧ (setStore cls f s).pending = s.pending :=
  ⟨rfl, rfl, rfl, rfl, rfl, rfl, rfl, rfl, rfl, rfl, rfl, rfl, rfl, rfl, rfl, rfl, rfl, rfl, rfl, rfl⟩

@[simp] theorem modQp_frame (q : Nat) (f : QueuePair → QueuePair) (s : State) :
    (modQp q f s).devState = s.devState ∧ (modQp q f s).dict = s.dict ∧ (modQp q f s).coll = s.coll ∧
    (modQp q f s).os = s.os ∧ (modQp q f s).mem = s.mem ∧ (modQp q f s).poison = s.poison ∧ (modQp q f s).rowx = s.rowx ∧
    (modQp q f s).rowxPoison = s.rowxPoison ∧ (modQp q f s).comp = s.comp ∧ (modQp q f s).pools = s.pools ∧
    (modQp q f s).port = s.port ∧ (modQp q f s).sched = s.sched ∧ (modQp q f s).line = s.line ∧
    (modQp q f s).time = s.time ∧ (modQp q f s).crier = s.crier ∧ (modQp q f s).dev = s.dev ∧
    (modQp q f s).sent = s.sent ∧ (modQp q f s).freeCtr = s.freeCtr ∧ (modQp q f s).fabWait = s.fabWait ∧
    (modQp q f s).pending = s.pending := by
  simp [modQp]

@[simp] theorem setPtp_frame (k : Nat) (p : PtpPort) (s : State) :
    (setPtp k p s).devState = s.devState ∧ (setPtp k p s).dict = s.dict ∧ (setPtp k p s).coll = s.coll ∧
    (setPtp k p s).os = s.os ∧ (setPtp k p s).mem = s.mem ∧ (setPtp k p s).poison = s.poison ∧
    (setPtp k p s).rowx = s.rowx ∧ (setPtp k p s).rowxPoison = s.rowxPoison ∧ (setPtp k p s).comp = s.comp ∧
    (setPtp k p s).pools = s.pools ∧ (setPtp k p s).port = s.port ∧ (setPtp k p s).sched = s.sched ∧
    (setPtp k p s).line = s.line ∧ (setPtp k p s).crier = s.crier ∧ (setPtp k p s).host = s.host ∧
    (setPtp k p s).dev = s.dev ∧ (setPtp k p s).sent = s.sent ∧ (setPtp k p s).freeCtr = s.freeCtr ∧
    (setPtp k p s).fabWait = s.fabWait ∧ (setPtp k p s).pending = s.pending := by
  simp [setPtp]

@[simp] theorem setQueue_frame (q : Nat) (x : TxQueue) (s : State) :
    (setQueue q x s).devState = s.devState ∧ (setQueue q x s).dict = s.dict ∧ (setQueue q x s).coll = s.coll ∧
    (setQueue q x s).os = s.os ∧ (setQueue q x s).mem = s.mem ∧ (setQueue q x s).poison = s.poison ∧
    (setQueue q x s).rowx = s.rowx ∧ (setQueue q x s).rowxPoison = s.rowxPoison ∧ (setQueue q x s).comp = s.comp ∧
    (setQueue q x s).pools = s.pools ∧ (setQueue q x s).port = s.port ∧ (setQueue q x s).line = s.line ∧
    (setQueue q x s).time = s.time ∧ (setQueue q x s).crier = s.crier ∧ (setQueue q x s).host = s.host ∧
    (setQueue q x s).dev = s.dev ∧ (setQueue q x s).sent = s.sent ∧ (setQueue q x s).freeCtr = s.freeCtr ∧
    (setQueue q x s).fabWait = s.fabWait ∧ (setQueue q x s).pending = s.pending :=
  ⟨rfl, rfl, rfl, rfl, rfl, rfl, rfl, rfl, rfl, rfl, rfl, rfl, rfl, rfl, rfl, rfl, rfl, rfl, rfl, rfl⟩

@[simp] theorem setPicked_frame (port : Nat) (xs : List TxSeg) (s : State) :
    (setPicked port xs s).devState = s.devState ∧ (setPicked port xs s).dict = s.dict ∧
    (setPicked port xs s).coll = s.coll ∧ (setPicked port xs s).os = s.os ∧ (setPicked port xs s).mem = s.mem ∧
    (setPicked port xs s).poison = s.poison ∧ (setPicked port xs s).rowx = s.rowx ∧
    (setPicked port xs s).rowxPoison = s.rowxPoison ∧ (setPicked port xs s).comp = s.comp ∧
    (setPicked port xs s).pools = s.pools ∧ (setPicked port xs s).port = s.port ∧ (setPicked port xs s).line = s.line ∧
    (setPicked port xs s).time = s.time ∧ (setPicked port xs s).crier = s.crier ∧ (setPicked port xs s).host = s.host ∧
    (setPicked port xs s).dev = s.dev ∧ (setPicked port xs s).sent = s.sent ∧ (setPicked port xs s).freeCtr = s.freeCtr ∧
    (setPicked port xs s).fabWait = s.fabWait ∧ (setPicked port xs s).pending = s.pending :=
  ⟨rfl, rfl, rfl, rfl, rfl, rfl, rfl, rfl, rfl, rfl, rfl, rfl, rfl, rfl, rfl, rfl, rfl, rfl, rfl, rfl⟩

@[simp] theorem setTokens_frame (k : Nat) (t : Int) (s : State) :
    (setTokens k t s).devState = s.devState ∧ (setTokens k t s).dict = s.dict ∧ (setTokens k t s).coll = s.coll ∧
    (setTokens k t s).os = s.os ∧ (setTokens k t s).mem = s.mem ∧ (setTokens k t s).poison = s.poison ∧
    (setTokens k t s).rowx = s.rowx ∧ (setTokens k t s).rowxPoison = s.rowxPoison ∧ (setTokens k t s).comp = s.comp ∧
    (setTokens k t s).pools = s.pools ∧ (setTokens k t s).port = s.port ∧ (setTokens k t s).line = s.line ∧
    (setTokens k t s).time = s.time ∧ (setTokens k t s).crier = s.crier ∧ (setTokens k t s).host = s.host ∧
    (setTokens k t s).dev = s.dev ∧ (setTokens k t s).sent = s.sent ∧ (setTokens k t s).freeCtr = s.freeCtr ∧
    (setTokens k t s).fabWait = s.fabWait ∧ (setTokens k t s).pending = s.pending :=
  ⟨rfl, rfl, rfl, rfl, rfl, rfl, rfl, rfl, rfl, rfl, rfl, rfl, rfl, rfl, rfl, rfl, rfl, rfl, rfl, rfl⟩

@[simp] theorem setCreditTx_frame (g site : Nat) (x : CreditTx) (s : State) :
    (setCreditTx g site x s).devState = s.devState ∧ (setCreditTx g site x s).dict = s.dict ∧
    (setCreditTx g site x s).coll = s.coll ∧ (setCreditTx g site x s).os = s.os ∧ (setCreditTx g site x s).mem = s.mem ∧
    (setCreditTx g site x s).poison = s.poison ∧ (setCreditTx g site x s).rowx = s.rowx ∧
    (setCreditTx g site x s).rowxPoison = s.rowxPoison ∧ (setCreditTx g site x s).comp = s.comp ∧
    (setCreditTx g site x s).pools = s.pools ∧ (setCreditTx g site x s).port = s.port ∧
    (setCreditTx g site x s).line = s.line ∧ (setCreditTx g site x s).time = s.time ∧
    (setCreditTx g site x s).crier = s.crier ∧ (setCreditTx g site x s).host = s.host ∧
    (setCreditTx g site x s).dev = s.dev ∧ (setCreditTx g site x s).sent = s.sent ∧
    (setCreditTx g site x s).freeCtr = s.freeCtr ∧ (setCreditTx g site x s).fabWait = s.fabWait ∧
    (setCreditTx g site x s).pending = s.pending :=
  ⟨rfl, rfl, rfl, rfl, rfl, rfl, rfl, rfl, rfl, rfl, rfl, rfl, rfl, rfl, rfl, rfl, rfl, rfl, rfl, rfl⟩

@[simp] theorem setCreditRx_frame (g site : Nat) (x : CreditRx) (s : State) :
    (setCreditRx g site x s).devState = s.devState ∧ (setCreditRx g site x s).dict = s.dict ∧
    (setCreditRx g site x s).coll = s.coll ∧ (setCreditRx g site x s).os = s.os ∧ (setCreditRx g site x s).mem = s.mem ∧
    (setCreditRx g site x s).poison = s.poison ∧ (setCreditRx g site x s).rowx = s.rowx ∧
    (setCreditRx g site x s).rowxPoison = s.rowxPoison ∧ (setCreditRx g site x s).comp = s.comp ∧
    (setCreditRx g site x s).pools = s.pools ∧ (setCreditRx g site x s).port = s.port ∧
    (setCreditRx g site x s).line = s.line ∧ (setCreditRx g site x s).time = s.time ∧
    (setCreditRx g site x s).crier = s.crier ∧ (setCreditRx g site x s).host = s.host ∧
    (setCreditRx g site x s).dev = s.dev ∧ (setCreditRx g site x s).sent = s.sent ∧
    (setCreditRx g site x s).freeCtr = s.freeCtr ∧ (setCreditRx g site x s).fabWait = s.fabWait ∧
    (setCreditRx g site x s).pending = s.pending :=
  ⟨rfl, rfl, rfl, rfl, rfl, rfl, rfl, rfl, rfl, rfl, rfl, rfl, rfl, rfl, rfl, rfl, rfl, rfl, rfl, rfl⟩

@[simp] theorem writeDev_frame (a : Nat) (bs : List Byte) (s : State) :
    (writeDev a bs s).devState = s.devState ∧ (writeDev a bs s).dict = s.dict ∧ (writeDev a bs s).coll = s.coll ∧
    (writeDev a bs s).os = s.os ∧ (writeDev a bs s).rowx = s.rowx ∧ (writeDev a bs s).rowxPoison = s.rowxPoison ∧
    (writeDev a bs s).comp = s.comp ∧ (writeDev a bs s).pools = s.pools ∧ (writeDev a bs s).port = s.port ∧
    (writeDev a bs s).sched = s.sched ∧ (writeDev a bs s).line = s.line ∧ (writeDev a bs s).time = s.time ∧
    (writeDev a bs s).crier = s.crier ∧ (writeDev a bs s).host = s.host ∧ (writeDev a bs s).dev = s.dev ∧
    (writeDev a bs s).sent = s.sent ∧ (writeDev a bs s).freeCtr = s.freeCtr ∧ (writeDev a bs s).fabWait = s.fabWait ∧
    (writeDev a bs s).pending = s.pending :=
  ⟨rfl, rfl, rfl, rfl, rfl, rfl, rfl, rfl, rfl, rfl, rfl, rfl, rfl, rfl, rfl, rfl, rfl, rfl, rfl⟩

@[simp] theorem writeDevP_frame (a : Nat) (bs : List (Byte × Bool)) (s : State) :
    (writeDevP a bs s).devState = s.devState ∧ (writeDevP a bs s).dict = s.dict ∧ (writeDevP a bs s).coll = s.coll ∧
    (writeDevP a bs s).os = s.os ∧ (writeDevP a bs s).rowx = s.rowx ∧ (writeDevP a bs s).rowxPoison = s.rowxPoison ∧
    (writeDevP a bs s).comp = s.comp ∧ (writeDevP a bs s).pools = s.pools ∧ (writeDevP a bs s).port = s.port ∧
    (writeDevP a bs s).sched = s.sched ∧ (writeDevP a bs s).line = s.line ∧ (writeDevP a bs s).time = s.time ∧
    (writeDevP a bs s).crier = s.crier ∧ (writeDevP a bs s).host = s.host ∧ (writeDevP a bs s).dev = s.dev ∧
    (writeDevP a bs s).sent = s.sent ∧ (writeDevP a bs s).freeCtr = s.freeCtr ∧ (writeDevP a bs s).fabWait = s.fabWait ∧
    (writeDevP a bs s).pending = s.pending :=
  ⟨rfl, rfl, rfl, rfl, rfl, rfl, rfl, rfl, rfl, rfl, rfl, rfl, rfl, rfl, rfl, rfl, rfl, rfl, rfl⟩

@[simp] theorem zeroDev_frame (a n : Nat) (s : State) :
    (zeroDev a n s).devState = s.devState ∧ (zeroDev a n s).dict = s.dict ∧ (zeroDev a n s).coll = s.coll ∧
    (zeroDev a n s).os = s.os ∧ (zeroDev a n s).rowx = s.rowx ∧ (zeroDev a n s).rowxPoison = s.rowxPoison ∧
    (zeroDev a n s).comp = s.comp ∧ (zeroDev a n s).pools = s.pools ∧ (zeroDev a n s).port = s.port ∧
    (zeroDev a n s).sched = s.sched ∧ (zeroDev a n s).line = s.line ∧ (zeroDev a n s).time = s.time ∧
    (zeroDev a n s).crier = s.crier ∧ (zeroDev a n s).host = s.host ∧ (zeroDev a n s).dev = s.dev ∧
    (zeroDev a n s).sent = s.sent ∧ (zeroDev a n s).freeCtr = s.freeCtr ∧ (zeroDev a n s).fabWait = s.fabWait ∧
    (zeroDev a n s).pending = s.pending :=
  ⟨rfl, rfl, rfl, rfl, rfl, rfl, rfl, rfl, rfl, rfl, rfl, rfl, rfl, rfl, rfl, rfl, rfl, rfl, rfl⟩

@[simp] theorem writeRowx_frame (a : Nat) (bs : List (Byte × Bool)) (s : State) :
    (writeRowx a bs s).devState = s.devState ∧ (writeRowx a bs s).dict = s.dict ∧ (writeRowx a bs s).coll = s.coll ∧
    (writeRowx a bs s).os = s.os ∧ (writeRowx a bs s).mem = s.mem ∧ (writeRowx a bs s).poison = s.poison ∧
    (writeRowx a bs s).comp = s.comp ∧ (writeRowx a bs s).pools = s.pools ∧ (writeRowx a bs s).port = s.port ∧
    (writeRowx a bs s).sched = s.sched ∧ (writeRowx a bs s).line = s.line ∧ (writeRowx a bs s).time = s.time ∧
    (writeRowx a bs s).crier = s.crier ∧ (writeRowx a bs s).host = s.host ∧ (writeRowx a bs s).dev = s.dev ∧
    (writeRowx a bs s).sent = s.sent ∧ (writeRowx a bs s).freeCtr = s.freeCtr ∧ (writeRowx a bs s).fabWait = s.fabWait ∧
    (writeRowx a bs s).pending = s.pending :=
  ⟨rfl, rfl, rfl, rfl, rfl, rfl, rfl, rfl, rfl, rfl, rfl, rfl, rfl, rfl, rfl, rfl, rfl, rfl, rfl⟩

@[simp] theorem setChallenge_frame (sess : Nat) (c : Option (Nat × List Byte × Nat)) (s : State) :
    (setChallenge sess c s).devState = s.devState ∧ (setChallenge sess c s).dict = s.dict ∧
    (setChallenge sess c s).coll = s.coll ∧ (setChallenge sess c s).os = s.os ∧ (setChallenge sess c s).mem = s.mem ∧
    (setChallenge sess c s).poison = s.poison ∧ (setChallenge sess c s).rowx = s.rowx ∧
    (setChallenge sess c s).rowxPoison = s.rowxPoison ∧ (setChallenge sess c s).comp = s.comp ∧
    (setChallenge sess c s).pools = s.pools ∧ (setChallenge sess c s).port = s.port ∧
    (setChallenge sess c s).sched = s.sched ∧ (setChallenge sess c s).line = s.line ∧
    (setChallenge sess c s).time = s.time ∧ (setChallenge sess c s).crier = s.crier ∧
    (setChallenge sess c s).host = s.host ∧ (setChallenge sess c s).sent = s.sent ∧
    (setChallenge sess c s).freeCtr = s.freeCtr ∧ (setChallenge sess c s).fabWait = s.fabWait ∧
    (setChallenge sess c s).pending = s.pending :=
  ⟨rfl, rfl, rfl, rfl, rfl, rfl, rfl, rfl, rfl, rfl, rfl, rfl, rfl, rfl, rfl, rfl, rfl, rfl, rfl, rfl⟩

@[simp] theorem modDev_frame (f : Device → Device) (s : State) :
    (modDev f s).devState = s.devState ∧ (modDev f s).dict = s.dict ∧ (modDev f s).coll = s.coll ∧
    (modDev f s).os = s.os ∧ (modDev f s).mem = s.mem ∧ (modDev f s).poison = s.poison ∧ (modDev f s).rowx = s.rowx ∧
    (modDev f s).rowxPoison = s.rowxPoison ∧ (modDev f s).comp = s.comp ∧ (modDev f s).pools = s.pools ∧
    (modDev f s).port = s.port ∧ (modDev f s).sched = s.sched ∧ (modDev f s).line = s.line ∧ (modDev f s).time = s.time ∧
    (modDev f s).crier = s.crier ∧ (modDev f s).host = s.host ∧ (modDev f s).sent = s.sent ∧
    (modDev f s).freeCtr = s.freeCtr ∧ (modDev f s).fabWait = s.fabWait ∧ (modDev f s).pending = s.pending := by
  simp [modDev]

@[simp] theorem setN_frame (key v : Nat) (s : State) :
    (setN key v s).devState = s.devState ∧ (setN key v s).coll = s.coll ∧ (setN key v s).os = s.os ∧
    (setN key v s).mem = s.mem ∧ (setN key v s).poison = s.poison ∧ (setN key v s).rowx = s.rowx ∧
    (setN key v s).rowxPoison = s.rowxPoison ∧ (setN key v s).comp = s.comp ∧ (setN key v s).pools = s.pools ∧
    (setN key v s).port = s.port ∧ (setN key v s).sched = s.sched ∧ (setN key v s).line = s.line ∧
    (setN key v s).time = s.time ∧ (setN key v s).crier = s.crier ∧ (setN key v s).host = s.host ∧
    (setN key v s).dev = s.dev ∧ (setN key v s).sent = s.sent ∧ (setN key v s).freeCtr = s.freeCtr ∧
    (setN key v s).fabWait = s.fabWait ∧ (setN key v s).pending = s.pending := by
  simp [setN]

@[simp] theorem setB_frame (key : Nat) (bs : List Byte) (s : State) :
    (setB key bs s).devState = s.devState ∧ (setB key bs s).coll = s.coll ∧ (setB key bs s).os = s.os ∧
    (setB key bs s).mem = s.mem ∧ (setB key bs s).poison = s.poison ∧ (setB key bs s).rowx = s.rowx ∧
    (setB key bs s).rowxPoison = s.rowxPoison ∧ (setB key bs s).comp = s.comp ∧ (setB key bs s).pools = s.pools ∧
    (setB key bs s).port = s.port ∧ (setB key bs s).sched = s.sched ∧ (setB key bs s).line = s.line ∧
    (setB key bs s).time = s.time ∧ (setB key bs s).crier = s.crier ∧ (setB key bs s).host = s.host ∧
    (setB key bs s).dev = s.dev ∧ (setB key bs s).sent = s.sent ∧ (setB key bs s).freeCtr = s.freeCtr ∧
    (setB key bs s).fabWait = s.fabWait ∧ (setB key bs s).pending = s.pending := by
  simp [setB]

@[simp] theorem setI_frame (key : Nat) (i : Int) (s : State) :
    (setI key i s).devState = s.devState ∧ (setI key i s).coll = s.coll ∧ (setI key i s).os = s.os ∧
    (setI key i s).mem = s.mem ∧ (setI key i s).poison = s.poison ∧ (setI key i s).rowx = s.rowx ∧
    (setI key i s).rowxPoison = s.rowxPoison ∧ (setI key i s).comp = s.comp ∧ (setI key i s).pools = s.pools ∧
    (setI key i s).port = s.port ∧ (setI key i s).sched = s.sched ∧ (setI key i s).line = s.line ∧
    (setI key i s).time = s.time ∧ (setI key i s).crier = s.crier ∧ (setI key i s).host = s.host ∧
    (setI key i s).dev = s.dev ∧ (setI key i s).sent = s.sent ∧ (setI key i s).freeCtr = s.freeCtr ∧
    (setI key i s).fabWait = s.fabWait ∧ (setI key i s).pending = s.pending := by
  simp [setI]

@[simp] theorem addN_frame (key n : Nat) (s : State) :
    (addN key n s).devState = s.devState ∧ (addN key n s).coll = s.coll ∧ (addN key n s).os = s.os ∧
    (addN key n s).mem = s.mem ∧ (addN key n s).poison = s.poison ∧ (addN key n s).rowx = s.rowx ∧
    (addN key n s).rowxPoison = s.rowxPoison ∧ (addN key n s).comp = s.comp ∧ (addN key n s).pools = s.pools ∧
    (addN key n s).port = s.port ∧ (addN key n s).sched = s.sched ∧ (addN key n s).line = s.line ∧
    (addN key n s).time = s.time ∧ (addN key n s).crier = s.crier ∧ (addN key n s).host = s.host ∧
    (addN key n s).dev = s.dev ∧ (addN key n s).sent = s.sent ∧ (addN key n s).freeCtr = s.freeCtr ∧
    (addN key n s).fabWait = s.fabWait ∧ (addN key n s).pending = s.pending := by
  simp [addN]

@[simp] theorem setObjBit_frame (key k : Nat) (b : Bool) (s : State) :
    (setObjBit key k b s).devState = s.devState ∧ (setObjBit key k b s).coll = s.coll ∧ (setObjBit key k b s).os = s.os ∧
    (setObjBit key k b s).mem = s.mem ∧ (setObjBit key k b s).poison = s.poison ∧ (setObjBit key k b s).rowx = s.rowx ∧
    (setObjBit key k b s).rowxPoison = s.rowxPoison ∧ (setObjBit key k b s).comp = s.comp ∧
    (setObjBit key k b s).pools = s.pools ∧ (setObjBit key k b s).port = s.port ∧ (setObjBit key k b s).sched = s.sched ∧
    (setObjBit key k b s).line = s.line ∧ (setObjBit key k b s).time = s.time ∧ (setObjBit key k b s).crier = s.crier ∧
    (setObjBit key k b s).host = s.host ∧ (setObjBit key k b s).dev = s.dev ∧ (setObjBit key k b s).sent = s.sent ∧
    (setObjBit key k b s).freeCtr = s.freeCtr ∧ (setObjBit key k b s).fabWait = s.fabWait ∧
    (setObjBit key k b s).pending = s.pending := by
  simp [setObjBit]

@[simp] theorem setBox_frame (k : Nat) (b : Mailbox) (s : State) :
    (setBox k b s).devState = s.devState ∧ (setBox k b s).dict = s.dict ∧ (setBox k b s).coll = s.coll ∧
    (setBox k b s).os = s.os ∧ (setBox k b s).mem = s.mem ∧ (setBox k b s).poison = s.poison ∧
    (setBox k b s).rowx = s.rowx ∧ (setBox k b s).rowxPoison = s.rowxPoison ∧ (setBox k b s).comp = s.comp ∧
    (setBox k b s).pools = s.pools ∧ (setBox k b s).port = s.port ∧ (setBox k b s).sched = s.sched ∧
    (setBox k b s).line = s.line ∧ (setBox k b s).time = s.time ∧ (setBox k b s).crier = s.crier ∧
    (setBox k b s).dev = s.dev ∧ (setBox k b s).sent = s.sent ∧ (setBox k b s).freeCtr = s.freeCtr ∧
    (setBox k b s).fabWait = s.fabWait ∧ (setBox k b s).pending = s.pending := by
  simp [setBox]

@[simp] theorem modBist_frame (f : Bist → Bist) (s : State) :
    (modBist f s).devState = s.devState ∧ (modBist f s).dict = s.dict ∧ (modBist f s).coll = s.coll ∧
    (modBist f s).os = s.os ∧ (modBist f s).mem = s.mem ∧ (modBist f s).poison = s.poison ∧ (modBist f s).rowx = s.rowx ∧
    (modBist f s).rowxPoison = s.rowxPoison ∧ (modBist f s).comp = s.comp ∧ (modBist f s).pools = s.pools ∧
    (modBist f s).port = s.port ∧ (modBist f s).sched = s.sched ∧ (modBist f s).line = s.line ∧
    (modBist f s).time = s.time ∧ (modBist f s).crier = s.crier ∧ (modBist f s).host = s.host ∧
    (modBist f s).sent = s.sent ∧ (modBist f s).freeCtr = s.freeCtr ∧ (modBist f s).fabWait = s.fabWait ∧
    (modBist f s).pending = s.pending := by
  simp [modBist]

@[simp] theorem modGroup_frame (g : Nat) (f : Group → Group) (s : State) :
    (modGroup g f s).devState = s.devState ∧ (modGroup g f s).dict = s.dict ∧ (modGroup g f s).os = s.os ∧
    (modGroup g f s).mem = s.mem ∧ (modGroup g f s).poison = s.poison ∧ (modGroup g f s).rowx = s.rowx ∧
    (modGroup g f s).rowxPoison = s.rowxPoison ∧ (modGroup g f s).comp = s.comp ∧ (modGroup g f s).pools = s.pools ∧
    (modGroup g f s).port = s.port ∧ (modGroup g f s).sched = s.sched ∧ (modGroup g f s).line = s.line ∧
    (modGroup g f s).time = s.time ∧ (modGroup g f s).crier = s.crier ∧ (modGroup g f s).host = s.host ∧
    (modGroup g f s).dev = s.dev ∧ (modGroup g f s).sent = s.sent ∧ (modGroup g f s).freeCtr = s.freeCtr ∧
    (modGroup g f s).fabWait = s.fabWait ∧ (modGroup g f s).pending = s.pending := by
  simp [modGroup]

@[simp] theorem modCar_frame (c : Nat) (f : Carrier → Carrier) (s : State) :
    (modCar c f s).devState = s.devState ∧ (modCar c f s).dict = s.dict ∧ (modCar c f s).coll = s.coll ∧
    (modCar c f s).os = s.os ∧ (modCar c f s).mem = s.mem ∧ (modCar c f s).poison = s.poison ∧
    (modCar c f s).rowx = s.rowx ∧ (modCar c f s).rowxPoison = s.rowxPoison ∧ (modCar c f s).comp = s.comp ∧
    (modCar c f s).pools = s.pools ∧ (modCar c f s).port = s.port ∧ (modCar c f s).sched = s.sched ∧
    (modCar c f s).time = s.time ∧ (modCar c f s).crier = s.crier ∧ (modCar c f s).host = s.host ∧
    (modCar c f s).dev = s.dev ∧ (modCar c f s).sent = s.sent ∧ (modCar c f s).freeCtr = s.freeCtr ∧
    (modCar c f s).fabWait = s.fabWait ∧ (modCar c f s).pending = s.pending := by
  simp [modCar]

@[simp] theorem modPort_frame (n : Nat) (f : LinePort → LinePort) (s : State) :
    (modPort n f s).devState = s.devState ∧ (modPort n f s).dict = s.dict ∧ (modPort n f s).coll = s.coll ∧
    (modPort n f s).os = s.os ∧ (modPort n f s).mem = s.mem ∧ (modPort n f s).poison = s.poison ∧
    (modPort n f s).rowx = s.rowx ∧ (modPort n f s).rowxPoison = s.rowxPoison ∧ (modPort n f s).comp = s.comp ∧
    (modPort n f s).pools = s.pools ∧ (modPort n f s).port = s.port ∧ (modPort n f s).sched = s.sched ∧
    (modPort n f s).time = s.time ∧ (modPort n f s).crier = s.crier ∧ (modPort n f s).host = s.host ∧
    (modPort n f s).dev = s.dev ∧ (modPort n f s).sent = s.sent ∧ (modPort n f s).freeCtr = s.freeCtr ∧
    (modPort n f s).fabWait = s.fabWait ∧ (modPort n f s).pending = s.pending := by
  simp [modPort]

@[simp] theorem modLaser_frame (p : Nat) (f : Laser → Laser) (s : State) :
    (modLaser p f s).devState = s.devState ∧ (modLaser p f s).dict = s.dict ∧ (modLaser p f s).coll = s.coll ∧
    (modLaser p f s).os = s.os ∧ (modLaser p f s).mem = s.mem ∧ (modLaser p f s).poison = s.poison ∧
    (modLaser p f s).rowx = s.rowx ∧ (modLaser p f s).rowxPoison = s.rowxPoison ∧ (modLaser p f s).comp = s.comp ∧
    (modLaser p f s).pools = s.pools ∧ (modLaser p f s).port = s.port ∧ (modLaser p f s).sched = s.sched ∧
    (modLaser p f s).time = s.time ∧ (modLaser p f s).crier = s.crier ∧ (modLaser p f s).host = s.host ∧
    (modLaser p f s).dev = s.dev ∧ (modLaser p f s).sent = s.sent ∧ (modLaser p f s).freeCtr = s.freeCtr ∧
    (modLaser p f s).fabWait = s.fabWait ∧ (modLaser p f s).pending = s.pending := by
  simp [modLaser]

@[simp] theorem modChan_frame (c : Nat) (f : Channel → Channel) (s : State) :
    (modChan c f s).devState = s.devState ∧ (modChan c f s).dict = s.dict ∧ (modChan c f s).coll = s.coll ∧
    (modChan c f s).os = s.os ∧ (modChan c f s).mem = s.mem ∧ (modChan c f s).poison = s.poison ∧
    (modChan c f s).rowx = s.rowx ∧ (modChan c f s).rowxPoison = s.rowxPoison ∧ (modChan c f s).comp = s.comp ∧
    (modChan c f s).pools = s.pools ∧ (modChan c f s).sched = s.sched ∧ (modChan c f s).line = s.line ∧
    (modChan c f s).time = s.time ∧ (modChan c f s).crier = s.crier ∧ (modChan c f s).host = s.host ∧
    (modChan c f s).dev = s.dev ∧ (modChan c f s).sent = s.sent ∧ (modChan c f s).freeCtr = s.freeCtr ∧
    (modChan c f s).fabWait = s.fabWait ∧ (modChan c f s).pending = s.pending := by
  simp [modChan]

@[simp] theorem modFab_frame (k : Nat) (f : FabricPort → FabricPort) (s : State) :
    (modFab k f s).devState = s.devState ∧ (modFab k f s).dict = s.dict ∧ (modFab k f s).coll = s.coll ∧
    (modFab k f s).os = s.os ∧ (modFab k f s).mem = s.mem ∧ (modFab k f s).poison = s.poison ∧
    (modFab k f s).rowx = s.rowx ∧ (modFab k f s).rowxPoison = s.rowxPoison ∧ (modFab k f s).comp = s.comp ∧
    (modFab k f s).pools = s.pools ∧ (modFab k f s).port = s.port ∧ (modFab k f s).sched = s.sched ∧
    (modFab k f s).line = s.line ∧ (modFab k f s).time = s.time ∧ (modFab k f s).crier = s.crier ∧
    (modFab k f s).dev = s.dev ∧ (modFab k f s).sent = s.sent ∧ (modFab k f s).freeCtr = s.freeCtr ∧
    (modFab k f s).fabWait = s.fabWait ∧ (modFab k f s).pending = s.pending := by
  simp [modFab]

end Sys2Proof.Machine
end

