-- ==== Sys2Proof/Laws/Objects.lean ====
section
/-! SUPPORT. Reading back what was stored: objects, sessions, commit groups, stalls, units, tallies, carriers, ports, lasers,
groups, channels, rings, fabric ports, mailboxes, crates, free stores, FIFOs and PTP ports; what an output of the local fabric does; and what logging an event does. -/

namespace Sys2Proof.Machine

@[simp] theorem getObj_setObj_self (k : Nat) (v : ObjVal) (s : State) : getObj k (setObj k v s) = v := by simp [setObj, getObj]

theorem getObj_setObj_ne {j k : Nat} (h : j ≠ k) (v : ObjVal) (s : State) : getObj j (setObj k v s) = getObj j s := by
  simp [setObj, getObj, smGet_put_ne _ h]

@[simp] theorem getSess_setSess_self (k : Nat) (v : Session) (s : State) : getSess k (setSess k v s) = v := by simp [setSess, getSess]

theorem getSess_setSess_ne {j k : Nat} (h : j ≠ k) (v : Session) (s : State) : getSess j (setSess k v s) = getSess j s := by
  simp [setSess, getSess, smGet_put_ne _ h]

@[simp] theorem getCg_setCg_self (k : Nat) (v : CommitGroup) (s : State) : getCg k (setCg k v s) = v := by simp [setCg, getCg]

theorem getCg_setCg_ne {j k : Nat} (h : j ≠ k) (v : CommitGroup) (s : State) : getCg j (setCg k v s) = getCg j s := by
  simp [setCg, getCg, smGet_put_ne _ h]

@[simp] theorem getStall_setStall_self (k : Nat) (v : Stall) (s : State) : getStall k (setStall k v s) = v := by simp [setStall, getStall]

theorem getStall_setStall_ne {j k : Nat} (h : j ≠ k) (v : Stall) (s : State) : getStall j (setStall k v s) = getStall j s := by
  simp [setStall, getStall, smGet_put_ne _ h]

@[simp] theorem getUnit_setUnit_self (k : Nat) (v : UnitEnt) (s : State) : getUnit k (setUnit k v s) = v := by simp [setUnit, getUnit]

theorem getUnit_setUnit_ne {j k : Nat} (h : j ≠ k) (v : UnitEnt) (s : State) : getUnit j (setUnit k v s) = getUnit j s := by
  simp [setUnit, getUnit, smGet_put_ne _ h]

@[simp] theorem getTally_setTally_self (k : Nat) (v : Tally) (s : State) : getTally k (setTally k v s) = v := by simp [setTally, getTally]

theorem getTally_setTally_ne {j k : Nat} (h : j ≠ k) (v : Tally) (s : State) : getTally j (setTally k v s) = getTally j s := by
  simp [setTally, getTally, smGet_put_ne _ h]

@[simp] theorem getCar_setCar_self (k : Nat) (v : Carrier) (s : State) : getCar k (setCar k v s) = v := by simp [setCar, getCar]

theorem getCar_setCar_ne {j k : Nat} (h : j ≠ k) (v : Carrier) (s : State) : getCar j (setCar k v s) = getCar j s := by
  simp [setCar, getCar, smGet_put_ne _ h]

@[simp] theorem getPort_setPort_self (k : Nat) (v : LinePort) (s : State) : getPort k (setPort k v s) = v := by simp [setPort, getPort]

theorem getPort_setPort_ne {j k : Nat} (h : j ≠ k) (v : LinePort) (s : State) : getPort j (setPort k v s) = getPort j s := by
  simp [setPort, getPort, smGet_put_ne _ h]

@[simp] theorem getLaser_setLaser_self (k : Nat) (v : Laser) (s : State) : getLaser k (setLaser k v s) = v := by simp [setLaser, getLaser]

theorem getLaser_setLaser_ne {j k : Nat} (h : j ≠ k) (v : Laser) (s : State) : getLaser j (setLaser k v s) = getLaser j s := by
  simp [setLaser, getLaser, smGet_put_ne _ h]

@[simp] theorem getGroup_setGroup_self (k : Nat) (v : Group) (s : State) : getGroup k (setGroup k v s) = v := by simp [setGroup, getGroup]

theorem getGroup_setGroup_ne {j k : Nat} (h : j ≠ k) (v : Group) (s : State) : getGroup j (setGroup k v s) = getGroup j s := by
  simp [setGroup, getGroup, smGet_put_ne _ h]

@[simp] theorem getChan_setChan_self (k : Nat) (v : Channel) (s : State) : getChan k (setChan k v s) = v := by simp [setChan, getChan]

theorem getChan_setChan_ne {j k : Nat} (h : j ≠ k) (v : Channel) (s : State) : getChan j (setChan k v s) = getChan j s := by
  simp [setChan, getChan, smGet_put_ne _ h]

@[simp] theorem getRing_setRing_self (k : Nat) (v : Ring) (s : State) : getRing k (setRing k v s) = v := by simp [setRing, getRing]

theorem getRing_setRing_ne {j k : Nat} (h : j ≠ k) (v : Ring) (s : State) : getRing j (setRing k v s) = getRing j s := by
  simp [setRing, getRing, smGet_put_ne _ h]

@[simp] theorem getFab_setFab_self (k : Nat) (v : FabricPort) (s : State) : getFab k (setFab k v s) = v := by simp [setFab, getFab]

theorem getFab_setFab_ne {j k : Nat} (h : j ≠ k) (v : FabricPort) (s : State) : getFab j (setFab k v s) = getFab j s := by
  simp [setFab, getFab, smGet_put_ne _ h]

@[simp] theorem getBox_setBox_self (k : Nat) (v : Mailbox) (s : State) : getBox k (setBox k v s) = v := by simp [setBox, getBox, modHost]

theorem getBox_setBox_ne {j k : Nat} (h : j ≠ k) (v : Mailbox) (s : State) : getBox j (setBox k v s) = getBox j s := by
  simp [setBox, getBox, modHost, smGet_put_ne _ h]

@[simp] theorem getCrate_setCrate_self (k : Nat) (v : Crate) (s : State) : getCrate k (setCrate k v s) = v := by simp [setCrate, getCrate]

theorem getCrate_setCrate_ne {j k : Nat} (h : j ≠ k) (v : Crate) (s : State) : getCrate j (setCrate k v s) = getCrate j s := by
  simp [setCrate, getCrate, smGet_put_ne _ h]

@[simp] theorem getFifo_setFifo_self (k : Nat) (v : Fifo) (s : State) : getFifo k (setFifo k v s) = v := by simp [setFifo, getFifo]

theorem getFifo_setFifo_ne {j k : Nat} (h : j ≠ k) (v : Fifo) (s : State) : getFifo j (setFifo k v s) = getFifo j s := by
  simp [setFifo, getFifo, smGet_put_ne _ h]

@[simp] theorem getStore_setStore_self (k : Nat) (v : FreeStore) (s : State) : getStore k (setStore k v s) = v := by simp [setStore, getStore]

theorem getStore_setStore_ne {j k : Nat} (h : j ≠ k) (v : FreeStore) (s : State) : getStore j (setStore k v s) = getStore j s := by
  simp [setStore, getStore, smGet_put_ne _ h]

@[simp] theorem getPtp_setPtp_self (k : Nat) (v : PtpPort) (s : State) : getPtp k (setPtp k v s) = v := by simp [setPtp, getPtp, modTime]

theorem getPtp_setPtp_ne {j k : Nat} (h : j ≠ k) (v : PtpPort) (s : State) : getPtp j (setPtp k v s) = getPtp j s := by
  simp [setPtp, getPtp, modTime, smGet_put_ne _ h]

@[simp] theorem getN_setN_self (k v : Nat) (s : State) : getN k (setN k v s) = v := by simp [getN, setN, ObjVal.toNat]

theorem getN_setN_ne {j k : Nat} (h : j ≠ k) (v : Nat) (s : State) : getN j (setN k v s) = getN j s := by
  simp [getN, setN, getObj_setObj_ne h]

/-- Objects are read from the dictionary alone. -/
theorem getObj_congr {s t : State} (h : s.dict.objs = t.dict.objs) (k : Nat) : getObj k s = getObj k t := by
  unfold getObj; rw [h]

theorem getN_congr {s t : State} (h : s.dict.objs = t.dict.objs) (k : Nat) : getN k s = getN k t := by
  unfold getN; rw [getObj_congr h]

/-! ### The local fabric -/

/-- An output of the local fabric leaves at once or waits for its port; nothing else changes (R455). -/
theorem fabSend_cases (w : FabWait) (s : State) :
    (w.mayLeave s = true ∧ fabSend w s = emit w.msg s) ∨
      (w.mayLeave s = false ∧ fabSend w s = { s with fabWait := s.fabWait ++ [w] }) := by
  unfold fabSend
  cases w.mayLeave s <;> simp

/-- On a queue pair: the same by the identity of its port, and nothing without one. -/
theorem qpSend_cases (q : Nat) (o : Sent) (s : State) :
    (findQp q s = none ∧ qpSend q o s = s) ∨
      ∃ x, findQp q s = some x ∧ qpSend q o s = fabSend ⟨x.port, true, x.cls, o⟩ s := by
  unfold qpSend
  cases h : findQp q s <;> simp

/-! ### Logging -/

@[simp] theorem logOne_objs (c a : Nat) (s : State) : (logOne c a s).dict.objs = s.dict.objs := rfl
@[simp] theorem logOne_groups (c a : Nat) (s : State) : (logOne c a s).dict.groups = s.dict.groups := rfl
@[simp] theorem logOne_cfg (c a : Nat) (s : State) :
    (logOne c a s).dict.cfgA = s.dict.cfgA ∧ (logOne c a s).dict.cfgB = s.dict.cfgB ∧ (logOne c a s).dict.cfgNewest = s.dict.cfgNewest ∧
    (logOne c a s).dict.cfgBusy = s.dict.cfgBusy ∧ (logOne c a s).dict.cfgBothBad = s.dict.cfgBothBad := ⟨rfl, rfl, rfl, rfl, rfl⟩
theorem logOne_log (c a : Nat) (s : State) : (logOne c a s).dict.log = s.dict.log ++ [evRecord c a s] := rfl

/-- What the records of overflowing queues leave and add. -/
theorem logOverflows_only (k : Nat) (l : List Nat) (s : State) :
    let t := logOverflows k l s
    t = { s with dict := { s.dict with log := t.dict.log, evSeq := t.dict.evSeq, sessions := t.dict.sessions } } ∧
      ∃ m, t.dict.log = s.dict.log ++ m := by
  induction k generalizing l s with
  | zero => exact ⟨rfl, [], by simp [logOverflows]⟩
  | succ k ih =>
    cases l with
    | nil => exact ⟨rfl, [], by simp [logOverflows]⟩
    | cons n r =>
      obtain ⟨h, m, hm⟩ := ih (r ++ newOverflows s.dict.sessions (logOne 0x0404 n s).dict.sessions) (logOne 0x0404 n s)
      refine ⟨?_, evRecord 0x0404 n s :: m, ?_⟩
      · simp only [logOverflows]; rw [h]; rfl
      · simp only [logOverflows]; rw [hm, logOne_log]; simp

/-- An event changes the log, its sequence number and the notification queues of sessions, and nothing else. -/
theorem logEvent_only (c a : Nat) (s : State) :
    logEvent c a s = { s with dict := { s.dict with
      log := (logEvent c a s).dict.log, evSeq := (logEvent c a s).dict.evSeq, sessions := (logEvent c a s).dict.sessions } } := by
  have h := (logOverflows_only 73 (newOverflows s.dict.sessions (logOne c a s).dict.sessions) (logOne c a s)).1
  unfold logEvent
  simp only
  rw [h]; rfl

/-- The record an event writes is in the log after it, behind every earlier one. -/
theorem logEvent_log (c a : Nat) (s : State) : ∃ m, (logEvent c a s).dict.log = s.dict.log ++ evRecord c a s :: m := by
  obtain ⟨m, hm⟩ := (logOverflows_only 73 (newOverflows s.dict.sessions (logOne c a s).dict.sessions) (logOne c a s)).2
  exact ⟨m, by unfold logEvent; simp only; rw [hm, logOne_log]; simp⟩

@[simp] theorem logEvent_objs (c a : Nat) (s : State) : (logEvent c a s).dict.objs = s.dict.objs := by rw [logEvent_only]
@[simp] theorem logEvent_groups (c a : Nat) (s : State) : (logEvent c a s).dict.groups = s.dict.groups := by rw [logEvent_only]
@[simp] theorem logEvent_cfg (c a : Nat) (s : State) :
    (logEvent c a s).dict.cfgA = s.dict.cfgA ∧ (logEvent c a s).dict.cfgB = s.dict.cfgB ∧
    (logEvent c a s).dict.cfgNewest = s.dict.cfgNewest ∧ (logEvent c a s).dict.cfgBusy = s.dict.cfgBusy ∧
    (logEvent c a s).dict.cfgBothBad = s.dict.cfgBothBad := by rw [logEvent_only]; simp

@[simp] theorem logEvent_frame (c a : Nat) (s : State) :
    (logEvent c a s).devState = s.devState ∧
    (logEvent c a s).coll = s.coll ∧
    (logEvent c a s).os = s.os ∧
    (logEvent c a s).mem = s.mem ∧
    (logEvent c a s).poison = s.poison ∧
    (logEvent c a s).rowx = s.rowx ∧
    (logEvent c a s).rowxPoison = s.rowxPoison ∧
    (logEvent c a s).comp = s.comp ∧
    (logEvent c a s).pools = s.pools ∧
    (logEvent c a s).port = s.port ∧
    (logEvent c a s).sched = s.sched ∧
    (logEvent c a s).line = s.line ∧
    (logEvent c a s).time = s.time ∧
    (logEvent c a s).crier = s.crier ∧
    (logEvent c a s).host = s.host ∧
    (logEvent c a s).dev = s.dev ∧
    (logEvent c a s).sent = s.sent ∧
    (logEvent c a s).freeCtr = s.freeCtr ∧
    (logEvent c a s).fabWait = s.fabWait ∧
    (logEvent c a s).pending = s.pending := by
  rw [logEvent_only]; simp

end Sys2Proof.Machine
end

