-- ==== Sys2Proof/Laws/Rows.lean ====
section
/-! SUPPORT. What a command that writes one object comes to: the three ways its checks can go. -/

namespace Sys2Proof.Machine

variable {key sess v e : Nat} {w : BlobWrite} {check : State → Nat} {effect : State → State} {s : State}

/-- A number that passes every check is written and answered with 0. -/
theorem numRow_taken (h : ownCheck sess key (.num v) s = 0) (hc : check s = 0) :
    numRow key sess v check effect s = emit (.writeAnswer sess key 0) (effect s) := by simp [numRow, h, hc]

/-- A number the object's own check refuses changes nothing and is answered with the error. -/
theorem numRow_refused (h : ownCheck sess key (.num v) s = 0) (hc : check s = e) (he : e ≠ 0) :
    numRow key sess v check effect s = emit (.writeAnswer sess key e) s := by simp [numRow, h, hc, he]

/-- A number the checks of every write refuse. -/
theorem numRow_barred (h : ownCheck sess key (.num v) s = e) (he : e ≠ 0) :
    numRow key sess v check effect s = emit (.writeAnswer sess key e) s := by
  unfold numRow; rw [h]; cases e with
  | zero => exact absurd rfl he
  | succ n => simp

/-- A BLOB that passes every check is taken and answered with 0. -/
theorem blobRow_taken (h : ownCheck w.sess key (.bytes w.bytes) s = 0) (hc : check s = 0) :
    blobRow key w check effect s = emit (.writeAnswer w.sess key 0) (effect s) := by simp [blobRow, h, hc]

/-- A BLOB the object's own check refuses. -/
theorem blobRow_refused (h : ownCheck w.sess key (.bytes w.bytes) s = 0) (hc : check s = e) (he : e ≠ 0) :
    blobRow key w check effect s = emit (.writeAnswer w.sess key e) s := by simp [blobRow, h, hc, he]

/-- A BLOB the checks of every write refuse. -/
theorem blobRow_barred (h : ownCheck w.sess key (.bytes w.bytes) s = e) (he : e ≠ 0) :
    blobRow key w check effect s = emit (.writeAnswer w.sess key e) s := by
  unfold blobRow; rw [h]; cases e with
  | zero => exact absurd rfl he
  | succ n => simp

end Sys2Proof.Machine
end

