-- ==== Sys2Proof/Laws/Stalls.lean ====
section
/-! SUPPORT. What running one stall instruction comes to once the instruction's own outcome is known. -/

namespace Sys2Proof.Machine

/-- A stall that runs its next instruction. -/
theorem issueStep_runs {st : Nat} {f : State → State} {s : State} (h : stallRuns st s = true) : issueStep st f s = f s := by
  have : stallIssues st s = true ∧ wordIllegal st s = false := by simpa [stallRuns] using h
  simp [issueStep, this]

/-- A stall that issues a word that spells no instruction (R154). -/
theorem issueStep_illegal {st : Nat} {f : State → State} {s : State} (h : stallIssues st s = true) (hw : wordIllegal st s = true) :
    issueStep st f s = settle (stallTake st illegal s) := by simp [issueStep, h, hw]

/-- A stall that does not issue does nothing. -/
theorem issueStep_idle {st : Nat} {f : State → State} {s : State} (h : stallIssues st s = false) : issueStep st f s = s := by
  simp [issueStep, h]

/-- A stall that runs an instruction that does not end its unit takes the instruction's next state. -/
theorem stallStep_ok {st : Nat} {f : State → StallOut} {s t : State} (h : stallRuns st s = true) (hf : f s = .ok t) :
    stallStep st f s = t := by simp [stallStep, issueStep_runs h, hf]

/-- A stall that runs an instruction that ends its unit. -/
theorem stallStep_error {st : Nat} {f : State → StallOut} {s : State} {c : StopCause} (h : stallRuns st s = true)
    (hf : f s = .error c) : stallStep st f s = settle (stallTake st (.error c) s) := by simp [stallStep, issueStep_runs h, hf]

/-- A movement instruction, when no RTREE of its unit is out. -/
theorem moveStep_free {st : Nat} {m : MoveInstr} {s : State} (h : stallRuns st s = true) (hr : rtreeOut st s = false) :
    moveStep st m s = moveRun st m s := by simp [moveStep, issueStep_runs h, hr]

/-- A movement instruction behind an RTREE of its own unit waits in the movement queue, which holds 16 (R157). -/
theorem moveStep_waits {st : Nat} {m : MoveInstr} {s : State} (h : stallRuns st s = true) (hr : rtreeOut st s = true) :
    moveStep st m s = if (getStall st s).moveQueue.length < 16 then moveQueued st m s else s := by
  simp [moveStep, issueStep_runs h, hr]

/-- A vector instruction with a rounding attribute and an allowed format runs. -/
theorem withRm_ok {st : Nat} {o : VectorOp} {b : Bool} {f : Rounding → State → StallOut} {s : State} {r : Rounding}
    (hr : Rounding.select o.rm.val (getStall st s).rmode = some r) (hb : b = true) : withRm st o b f s = f r s := by
  simp [withRm, hr, hb]

/-- A stall settled on nothing: with no collective and no outer step, settling changes nothing. -/
theorem settle_quiet {s : State} (hc : s.coll.colls = []) (he : s.coll.ended = []) (ho : getN O.OS_STEP_STATE s ≠ 1) :
    settle s = s := by
  have : (getN O.OS_STEP_STATE s != 1) = true := by simpa using ho
  simp [settle, hc, he, this]

/-! ### Registers of a stall -/

@[simp] theorem wrS_keeps (r : Nat) (v : SReg) (x : Stall) :
    (x.wrS r v).sstate = x.sstate ∧ (x.wrS r v).placement = x.placement ∧ (x.wrS r v).unit = x.unit ∧ (x.wrS r v).tag = x.tag ∧
    (x.wrS r v).tenant = x.tenant ∧ (x.wrS r v).lastTenant = x.lastTenant ∧ (x.wrS r v).lastCause = x.lastCause ∧
    (x.wrS r v).vregs = x.vregs ∧ (x.wrS r v).masks = x.masks ∧ (x.wrS r v).tiles = x.tiles ∧ (x.wrS r v).pc = x.pc ∧
    (x.wrS r v).rmode = x.rmode ∧ (x.wrS r v).fflags = x.fflags ∧ (x.wrS r v).moved = x.moved ∧ (x.wrS r v).istore = x.istore ∧
    (x.wrS r v).waiting = x.waiting ∧ (x.wrS r v).jf8eSeen = x.jf8eSeen ∧ (x.wrS r v).exp = x.exp := by
  unfold Stall.wrS
  split <;> simp

/-- A scalar register after a write: s0 reads zero, the one written its value, every other as before (Table 5.1). -/
theorem rdS_wrS (q r : Nat) (v : SReg) (x : Stall) :
    (x.wrS r v).rdS q = if q = 0 then SReg.zero else if q = r then v else x.rdS q := by
  unfold Stall.wrS Stall.rdS
  by_cases hq : q = 0
  · simp [hq]
  · by_cases hr : r = 0
    · have : q ≠ r := by omega
      simp [hq, hr]
    · simp [hq, hr, smGet_put]

/-- Retiring an instruction that writes a scalar register. -/
theorem retire_wrS (st d : Nat) (v : SReg) (s : State) :
    retire st (Stall.wrS d v) s = .ok (setStall st { (getStall st s).wrS d v with pc := (getStall st s).pc + 1 } s) := by
  simp [retire]

end Sys2Proof.Machine
end

