-- ==== Sys2Proof/Tests/Slice0.lean ====
section
/-! SUPPORT. Tests: for the statements with hypotheses, states and operands that meet them and what one command does there; worked
examples of the spec; ill-formed commands that the checks of WellFormed refuse. -/

namespace Sys2Proof.Tests

-- One theorem at a time: each is one kernel evaluation.
set_option Elab.async false

open Sys2Proof Sys2Proof.Machine

/-- What the next state of an outcome satisfies; false of a fault or a refusal. -/
def next (o : Host.Outcome State Fault Refusal) (f : State → Bool) : Bool := match o with | .next t => f t | _ => false

/-- A state with some objects set. -/
def objs (xs : List (Nat × Nat)) (s : State) : State := xs.foldl (fun u x => setN x.1 x.2 u) s

/-- A gateway in READY whose processors run and whose features are active. -/
def ready : State := objs ((O.FEAT_ACTIVE, 2 ^ 32 - 1) :: (List.range 8).map fun k => (O.PROC_STATE + k, 1)) { State.reset with devState := .ready }

/-- The log of a state holds a record of a code and argument. -/
def has (t : State) (code arg : Nat) : Bool := t.dict.log.any fun r => r.code == code && r.arg == arg

/-- The queue's command is run, the rest stays. -/
theorem test_step : next (step { ready with pending := [.dhcpv4Message 1 0 0, .pmbusRevision] }) (fun t => t.pending == [.pmbusRevision]) = true := by
  decide +kernel
/-- An empty queue lets one clock pass. -/
theorem test_idle : next (step ready) (fun t => t.time.clocks == 1) = true := by decide +kernel

/-! ### Stalls -/

/-- A program of the host's with 64 KiB of store. -/
def prog : Program := ⟨0, 0x10000, 0x10000, 1, 1, 16, 64, 1, 0, 2 ^ 64 - 1, 0, [], [], 0⟩
/-- Stall 5 runs unit 0 of placement 7, tag 3, with tallies 2048 to 2063 and 64 KiB of exchange in row 0; registers 1 to 5 are set. -/
def stall5 : Stall := {
  sstate := .running, placement := 7, tag := 3
  sregs := [(1, ⟨0x40, false⟩), (2, ⟨0xFFFFFFFFFFFFFFFF, false⟩), (3, ⟨64, false⟩), (4, ⟨1, false⟩), (5, ⟨16, false⟩)] }
def placement7 : Placement := {
  owner := .host ⟨8, 4, 0⟩, tenant := 0, prog := prog, tags := [3], tallyBase := 2048, tallyCount := 16
  ownsBlock := true, rowx := [(0, 0, 65536)], argBlock := [], handles := [], stopped := [] }
def run : State := { ready with comp := { ready.comp with
  stalls := [(5, stall5)], placements := [(7, placement7)]
  unitMap := [(3, { active := true, stall := 5, placement := 7, rowMem := 1, channels := [9] })], blocks := [⟨2048, 16, 0, .placement 7⟩]
  tallies := [(2048, { tstate := 1, count := 5, kind := 0 })] } }

def sop : ScalarOp := ⟨6, 2, 4, false, 0, 0⟩
def vop (fmt : Fin 16) : VectorOp := ⟨2, 0, 1, 3, 0, fmt, 0, 4, 0⟩
def mop : MatrixOp := ⟨1, 1, 1, 5, 0, 0, false, false, false, 0, 0⟩
def top (a : Fin 32) (imm : BitVec 16) : MoveTOp := ⟨6, a, 0, true, 0, 0, imm⟩
def xop : MoveXOp := ⟨1, 3, 3, 0x100, 0⟩

/-- R155: ADD wraps; the witness of the scalar statements. -/
theorem test_scalar : stallRuns 5 run = true ∧
    next (exec (.add 5 sop) run) (fun t => ((getStall 5 t).rdS 6).v == 0 && (getStall 5 t).pc == 1) = true ∧
    next (exec (.slt 5 sop) run) (fun t => ((getStall 5 t).rdS 6).v == 1) = true ∧
    next (exec (.sltu 5 sop) run) (fun t => ((getStall 5 t).rdS 6).v == 0) = true := by decide +kernel
/-- R155: BR, LDI and the CSR instructions at the conditions the statement names. -/
theorem test_control : stallRuns 5 run = true ∧ (0 : BitVec 8).getLsbD 0 = false ∧ (1 : BitVec 8).getLsbD 0 = true ∧
    next (exec (.br 5 { sop with sa := 4, sb := 2, cond := 3, imm := 7 }) run) (fun t => (getStall 5 t).pc == 1) = true ∧
    next (exec (.br 5 { sop with sa := 2, sb := 4, cond := 3, imm := 7 }) run) (fun t => (getStall 5 t).pc == 7) = true ∧
    next (exec (.csrw 5 { sop with sa := 4, imm := 0x0D }) run) (fun t => (getStall 5 t).rmode == 1) = true ∧
    next (exec (.csrw 5 { sop with sa := 5, imm := 0x0D }) run) (fun t => (getStall 5 t).rmode == 0) = true := by decide +kernel
/-- R146, R155: the last eight bytes of the store the program asked for are inside it, and the argument block is. -/
theorem test_scalar_store : stallRuns 5 run = true ∧
    ((stall5.rdS 1).v + (0xFFB8 : BitVec 32).signExtend 64).toNat = 0xFFF8 ∧ inStore 5 0xFFF8 8 run = true ∧ inStore 5 0x10000 8 run = false ∧
    inStore 5 0x1FFFF8 8 run = true ∧
    next (exec (.st 5 { sop with sa := 1, sb := 2, imm := 0xFFB8 }) run) (fun t =>
      (readStore 5 0xFFF8 8 t).map (·.1) == List.replicate 8 0xFF#8 && readDev (stallBase 5 + 0xFFF0) 8 t == List.replicate 8 0#8) = true := by
  decide +kernel
/-- R180: each of the vector statements' formats and rounding attributes; a sum of poison-free lanes. -/
theorem test_vector : stallRuns 5 run = true ∧ Rounding.select 0 0 = some .tiesToEven ∧ Rounding.select 7 4 = some .tiesToAway ∧
    inStore 5 0x40 256 run = true ∧ (∀ i < 64, ((getStall 5 run).rdElem 0 2 i).2 = false) ∧
    next (exec (.vsplat 5 { vop 0 with sa := 5 }) run) (fun t => ((getStall 5 t).rdLane 2 63).v == 16) = true ∧
    next (exec (.vadd 5 (vop 9)) run) (fun t => (getStall 5 t).pc == 1 && ((getStall 5 t).rdLane 2 0).v == 0) = true ∧
    next (exec (.vadd 5 (vop 1)) run) (fun t => (getStall 5 t).pc == 1) = true := by decide +kernel
/-- R192: the operands of a MOPA, an MLD, an MST and an XCFG in reach. -/
theorem test_matrix : stallRuns 5 run = true ∧ ((stall5.rdS 5).v.toNat % stepsPerClock 0 = 0) ∧ 16 % stepsPerClock 4 = 0 ∧
    inStore 5 0x40 (32 * 16 * 4) run = true ∧ inStore 5 0x40 (64 * 16 * 4) run = true ∧ inStore 5 0x40 8192 run = true ∧
    inStore 5 0x40 64 run = true ∧ anyPoison (readStore 5 0x40 64 run) = false ∧ stall5.tiles = [] ∧
    next (exec (.mzero 5 mop) run) (fun t => (getStall 5 t).pc == 1) = true ∧
    next (exec (.xcfg 5 ⟨mop, ⟨[], []⟩⟩) run) (fun t => (getStall 5 t).exp.loaded) = true := by decide +kernel

/-! ### Tallies, movement, placements -/

/-- R159: ADD, WAIT_GE at a count reached and at one not, RESET. -/
theorem test_stall_tally : stallRuns 5 run = true ∧ rtreeOut 5 run = false ∧ stallTally 5 (top 0 5) run = some 2048 ∧
    stallTally 5 { top 0 5 with toff := 15 } run = some 2063 ∧ stallTally 5 { top 0 5 with toff := 16 } run = none ∧
    tagLive 5 run = true ∧ (getTally 2048 run).tstate = 1 ∧ 2048 ≠ deadTally ∧ run.coll.colls = [] ∧ run.coll.ended = [] ∧
    getN O.OS_STEP_STATE run ≠ 1 ∧
    next (exec (.tallyAdd 5 (top 0 7)) run) (fun t => (getTally 2048 t).count == 12 && ((getStall 5 t).rdS 6).v == 5) = true ∧
    next (exec (.tallyWaitGe 5 (top 0 5)) run) (fun t => (getStall 5 t).pc == 1) = true ∧
    next (exec (.tallyWaitGe 5 (top 0 6)) run) (fun t => (getStall 5 t).waiting == some (2048, 6, 6)) = true ∧
    next (exec (.tallyReset 5 (top 0 6)) run) (fun t => (getTally 2048 t).count == 0) = true := by decide +kernel
/-- A stall that waits for a count its tally has reached. -/
def waits : State := setStall 5 { stall5 with waiting := some (2048, 5, 6) } run
theorem test_wait_satisfied : (getStall 5 waits).sstate = .running ∧ (getStall 5 waits).waiting = some (2048, 5, 6) ∧
    (getTally 2048 waits).tstate = 1 ∧ 5 ≤ (getTally 2048 waits).count ∧ waits.quiet ∧
    next (exec (.tallyWaitSatisfied 5) waits) (fun t => (getStall 5 t).pc == 1 && ((getStall 5 t).rdS 6).v == 5) = true := by
  unfold State.quiet; decide +kernel
/-- R147, R148: operands of XLD, XST and the first RTREE of a tag in reach. -/
theorem test_movement : stallRuns 5 run = true ∧ rtreeOut 5 run = false ∧ inStore 5 64 64 run = true ∧ getPlacement 7 run = some placement7 ∧
    rowxReach placement7 64 64 = true ∧ anyPoison (readStore 5 64 64 run) = false ∧ bitOf (xop.sub.toNat / 256) (getUnit 3 run).rowMem = false ∧
    bitOf 2 (getUnit 3 run).rowMem = true ∧ findRtree 7 0 0 run = none ∧
    next (exec (.rtree 5 ⟨{ xop with sub := 0x200 }, ⟨[], []⟩⟩) run) (fun t => t.comp.rtrees.length == 1 && (getStall 5 t).pc == 1) = true ∧
    next (exec (.xld 5 xop) run) (fun t => (getStall 5 t).pc == 1) = true := by decide +kernel
/-- An RTREE of one member that has issued. -/
def gathered : State := { run with comp := { run.comp with rtrees := [⟨7, 0, 1, 2, 64, [(1, 5, 64, 128)]⟩] } }
theorem test_rtree_complete : findRtree 7 0 1 gathered = some ⟨7, 0, 1, 2, 64, [(1, 5, 64, 128)]⟩ ∧
    rtreeReady ⟨7, 0, 1, 2, 64, [(1, 5, 64, 128)]⟩ = true ∧
    next (exec (.rtreeComplete 7 0 1) gathered) (fun t => t.comp.rtrees == []) = true := by decide +kernel
/-- R249, R157: PKICK of a channel that is idle, SYNC with nothing outstanding. -/
theorem test_pkick : (stall5.rdS 0).v.toNat < 4 ∧ (getUnit 3 run).channels[0]? = some 9 ∧ (getChan 9 run).cstate = .idle ∧
    syncBusy 5 15 run = false ∧ next (exec (.pkick 5 (top 1 0)) run) (fun t => (getChan 9 t).cstate == .run && (getChan 9 t).tag == 3) = true ∧
    next (exec (.sync 5 (top 0 15)) run) (fun t => (getStall 5 t).pc == 1) = true := by decide +kernel
/-- R172: the one unit of a host job's placement. -/
theorem test_unit_end : (getStall 5 run).sstate = .running ∧ (getStall 5 run).waiting = none ∧ rtreeOut 5 run = false ∧
    getPlacement 7 run = some placement7 ∧ placement7.tags = [3] ∧ placement7.owner = .host ⟨8, 4, 0⟩ ∧ (getUnit 3 run).stall = 5 ∧
    next (exec (.trap 5 (top 0 0)) run) (fun t => (getStall 5 t).lastCause == 1 && !(getUnit 3 t).active && has t 0x5001 (5 * 256 + 1)) = true ∧
    next (exec (.stallStop 5 (top 0 0)) run) (fun t => (getStall 5 t).lastCause == 0 && !(getUnit 3 t).active) = true ∧
    next (exec (.stallWatchdog 5) run) (fun t => (getStall 5 t).sstate == .fenced && has t 0x5002 5) = true := by decide +kernel
/-- A placement of one unit that waits; the image of the program lies in crate 0. -/
def request : PlaceReq := ⟨.host ⟨8, 4, 0⟩, 0, prog, List.replicate 256 0#8, [], none, none, 16⟩
def queued : State := { ready with comp := { ready.comp with placeQueue := [request] } }
theorem test_placement : queued.quiet ∧ queued.devState = .ready ∧ queued.comp.placeQueue = [request] ∧ (tryPlace request queued).1 = some 0 ∧
    next (exec .placementStart queued) (fun t => t.comp.placeQueue == [] && (getPlacement 0 t).isSome) = true := by
  unfold State.quiet; decide +kernel
/-- A unit that moves from stall 5 to stall 6. -/
def moving : State := { setStall 6 { sstate := .moving } (setStall 5 { stall5 with sstate := .moving } run) with
  comp := { (setStall 6 { sstate := .moving } (setStall 5 { stall5 with sstate := .moving } run)).comp with migrations := [⟨5, 6, 3⟩] } }
theorem test_migration : (moving.comp.migrations.find? fun m => stallRow m.a == 0) = some ⟨5, 6, 3⟩ ∧ migDrained ⟨5, 6, 3⟩ moving = true ∧
    procUp 6 moving = true ∧
    next (exec (.migrationDrained 0) moving) (fun t => t.comp.migrations == [] && (getUnit 3 t).stall == 6 && (getStall 6 t).sstate == .running
      && (getStall 6 t).sregs == stall5.sregs && (getStall 5 t).sstate == .spare) = true ∧
    next (exec (.migDrainExpiry 0) moving) (fun t => t.comp.migrations == [] && (getStall 5 t).sstate != .moving && has t 0x5004 (5 * 256 + 6)) = true := by
  decide +kernel
/-- A program image of one STOP instruction. -/
def image : List Byte :=
  let body := bytesLE 8 (0xCE * 2 ^ 56)
  bytesLE 4 0x53544C50 ++ bytesLE 2 1 ++ bytesLE 2 0 ++ bytesLE 4 0x10000 ++ bytesLE 4 1 ++ bytesLE 4 0 ++ bytesLE 4 0x1000
    ++ bytesLE 2 1 ++ bytesLE 2 1 ++ bytesLE 2 0 ++ bytesLE 2 0 ++ bytesLE 1 0 ++ List.replicate 3 0#8 ++ bytesLE 4 0 ++ bytesLE 8 1
    ++ bytesLE 4 (crc32c body) ++ List.replicate 12 0#8 ++ body
def loaded : State := { ready with comp := { ready.comp with programs := [prog] } }
/-- R168, R205: writes from the PF that pass their checks. -/
theorem test_compute_writes : ownCheck 8 (O.ROW_FREQ_MHZ + 15) (.num 1600) ready = 0 ∧ ownCheck 8 (O.ROW_FREQ_MHZ + 0) (.num 800) ready = 0 ∧
    next (exec (.rowFreqMhz 15 ⟨8, 1600⟩) ready) (fun t => getN (O.ROW_FREQ_MHZ + 15) t == 1600) = true ∧
    ownCheck 8 O.PROG_IMAGE (.bytes image) ready = 0 ∧ imageCheck image = 0 ∧ (registerImage image ready).1 = 0 ∧
    next (exec (.progImage ⟨8, image⟩) ready) (fun t => t.comp.programs.any (fun g => g.progId == 0x10000) && has t 0x5005 0x10000) = true ∧
    ownCheck 8 O.PROG_UNLOAD (.num 0x10000) loaded = 0 ∧ prog ∈ loaded.comp.programs ∧ imageUsed prog.crate loaded = false ∧
    next (exec (.progUnload ⟨8, 0x10000⟩) loaded) (fun t => t.comp.programs == []) = true ∧
    ownCheck 8 (0x505001 + 15) (.bytes (List.replicate 32 0x66#8)) ready = 0 ∧ xcTableOk (List.replicate 32 0x66#8) = true ∧
    next (exec (.xcTable 15 ⟨8, List.replicate 32 0x66#8⟩) ready) (fun t => getB (0x505001 + 15) t == List.replicate 32 0x66#8) = true := by
  decide +kernel

/-! ### Crates -/

/-- A NORMAL request for 4 KiB on the chip. -/
def need : CrateReq := { size := 4096, loc := 1, prio := 0, spill := false, nowait := false, die := 0, owner := 0x2000, tenant := 0 }
/-- A request that waits. -/
def asked : State := { ready with pools := { ready.pools with waiting := [⟨3, need, .none⟩] } }
theorem test_crate_alloc : reqClasses need = [3] ∧ queuedAhead 3 need ready = false ∧ classServes 3 need ready = true ∧
    next (exec (.crateAlloc need) ready) (fun t => t.sent.length == 1 && (getCrate (mkHandle 3 0) t).refs == 1) = true ∧
    asked.pools.waiting[0]? = some ⟨3, need, .none⟩ ∧ waitFirst 0 ⟨3, need, .none⟩ asked = true ∧ classServes 3 need asked = true ∧
    next (exec (.crateWaitServed 0) asked) (fun t => t.pools.waiting == [] && (getCrate (mkHandle 3 0) t).rstate == 1) = true ∧
    next (exec (.allocWaitExpiry 0) asked) (fun t => t.sent == [.crateAnswer 0x2000 0 2]) = true := by decide +kernel
/-- R224: a cache at 127 is refilled, one at 449 spilled. -/
def caches (n m : Nat) : State := setStore 4 { cache := [(0, n)], ring := [(n, m)] } ready
theorem test_caches : cacheLevel 4 (caches 127 1000) < 128 ∧ 448 < cacheLevel 4 (caches 449 0) ∧ cacheLevel 4 ready = 448 ∧
    next (exec (.handleCacheRefill 4) (caches 127 1000)) (fun t => cacheLevel 4 t == 383 && classFree 4 t == 1127) = true ∧
    next (exec (.handleCacheRefill 4) (caches 127 3)) (fun t => cacheLevel 4 t == 130) = true := by decide +kernel
/-- The first crate of class 1, of a host source and its own tenant. -/
def crate1 : CrateOp := ⟨mkHandle 1 0, 0x2000, 0⟩
def held (c : Crate) (strict : Nat) : State := setN O.CRATE_STRICT strict (setCrate crate1.handle c ready)
theorem test_crate_refs : handleValid crate1.handle ready = true ∧ foreignOp crate1 (held { rstate := 1, refs := 254 } 0) = false ∧
    next (exec (.ref crate1 1) (held { rstate := 1, refs := 254 } 0)) (fun t => (getCrate crate1.handle t).refs == 255) = true ∧
    next (exec (.deref crate1) (held { rstate := 1, refs := 2 } 0)) (fun t => (getCrate crate1.handle t).refs == 1) = true ∧
    next (exec (.deref crate1) (held { rstate := 1, refs := 1 } 1)) (fun t => (getCrate crate1.handle t).rstate == 2) = true ∧
    next (exec (.deref crate1) (held { rstate := 1, refs := 1 } 0)) (fun t => (getCrate crate1.handle t).rstate == 0) = true ∧
    next (exec (.give crate1 9) (held { rstate := 2 } 1)) (fun t => (getCrate crate1.handle t).owner == 9) = true ∧
    next (exec (.free crate1) (held { rstate := 2, owner := 0x2000 } 1)) (fun t => (getCrate crate1.handle t).rstate == 0) = true ∧
    next (exec (.free crate1) (held { rstate := 2, owner := 0x2000 } 0)) (fun t => (getCrate crate1.handle t).rstate == 2) = true := by
  decide +kernel
theorem test_crate_strict : ownCheck 8 O.CRATE_STRICT (.num 1) ready = 0 ∧ ownCheck 8 O.CRATE_STRICT (.num 0) ready = 0 ∧
    next (exec (.crateStrict ⟨8, 1⟩) ready) (fun t => getN O.CRATE_STRICT t == 1) = true ∧
    (∀ p ∈ ready.port.chans, p.2.tenant = 0 → p.2.cstate = .idle) ∧ (∀ p ∈ ready.comp.placements, p.2.tenant ≠ 0) ∧
    next (exec (.tenantTeardown 0) (held { rstate := 1, refs := 3 } 0)) (fun t => (getCrate crate1.handle t).rstate == 0) = true := by decide +kernel
/-- A FIFO in the middle of a packet: one more word of it and the first of the next are visible. -/
def packet : State := setFifo 0x107 { words := [.make 16 1 false 64 false false, .make 16 2 true 64 false false, .make 16 3 false 64 false true]
                                      wr := 3, wrSeen := 3, ends := 1, endsSeen := 1, midPacket := true } ready
/-- The same with no end mark in sight. -/
def long : State := setFifo 0x107 { words := [.make 16 1 false 64 false false], wr := 1, wrSeen := 1, midPacket := true } ready
theorem test_fifos : (getFifo 0x107 packet).midPacket = true ∧ (getFifo 0x107 packet).dropping = false ∧
    next (exec (.dropRest ⟨0x107, []⟩) packet) (fun t => ((getFifo 0x107 t).words.map (·.data)) == [3] && !(getFifo 0x107 t).midPacket
      && getN O.FIFO_DROPS t == 1) = true ∧
    next (exec (.dropRest ⟨0x107, []⟩) long) (fun t => (getFifo 0x107 t).words == [] && (getFifo 0x107 t).dropping) = true ∧
    ownCheck 8 (O.BL_RX_WM + 7) (.num (24 * 256 + 23)) ready = 0 ∧ (getFifo 0x107 packet).writeLevel 64 ≤ 23 ∧
    next (exec (.blRxWm 7 ⟨8, 24 * 256 + 23⟩) packet) (fun t => getN (O.BL_RX_WM + 7) t == 24 * 256 + 23) = true ∧
    next (exec (.blRxWm 7 ⟨8, 25 * 256⟩) packet) (fun t => t.sent == [.writeAnswer 8 (O.BL_RX_WM + 7) 0x14]) = true ∧
    next (exec (.blRxWm 7 ⟨8, 3 * 256 + 2⟩) packet) (fun t => (getFifo 0x107 t).hold && t.sent.contains (.blFcOut 7 true)) = true := by
  decide +kernel
/-- R240: a word of an island FIFO whose side bit is wrong. -/
def spoilt : FifoWord := { FifoWord.make 1 7 true 4 false false with sidePar := !(FifoWord.make 1 7 true 4 false false).sideBit }
def spoilt5 : State := setFifo 5 { words := [spoilt], wr := 1, wrSeen := 1, ends := 1, endsSeen := 1 } ready
theorem test_fifo_parity : fifoLink 5 = none ∧ (getFifo 5 spoilt5).words = [spoilt] ∧ (getFifo 5 spoilt5).pkts ≠ 0 ∧
    spoilt.sidePar ≠ spoilt.sideBit := by decide +kernel
theorem test_fifo_visible : (getFifo 5 spoilt5).readLevel (fifoDepth 5) ≠ 0 := by
  have h : ∀ d, (1 + 2 * 2 ^ d - 0) % (2 * 2 ^ d) ≠ 0 := fun d => by
    have : 0 < 2 ^ d := Nat.two_pow_pos d
    rw [Nat.sub_zero, Nat.add_mod_right, Nat.mod_eq_of_lt (by omega)]; omega
  exact h _
/-- R242: the pin of link 7 goes low. -/
def pinHigh : State := { ready with pools := { ready.pools with fcIn := 0x80 }, host := { ready.host with blTxWait := [(7, [1#8])] } }
theorem test_fc_in : next (exec (.blFcIn 7 false) pinHigh) (fun t => t.sent == [.blMessage 7 [1#8]] && !bitOf t.pools.fcIn 7) = true := by
  decide +kernel

/-! ### Porters -/

/-- Channel 9 runs an engine's program at 0x1000 of device memory. -/
def chan : Channel := { cstate := .run, owner := .engine, prog := 0x1000 }
def porter (x : Channel) : State := setTally 1024 { tstate := 1, count := 5, kind := 1 } (setChan 9 x ready)
/-- COPY of 8,192 bytes between device addresses. -/
def move : MoveOp := { srel := false, drel := false, fence := false, srcKind := 0, dstKind := 0, length := 8192, src := 0x4000, dst := 0x8000,
                       fmt := 0, table := 0, blockElems64 := 1, loc := 0, prio := 0, spill := false, nowait := false, reserved := 0 }
def job (x : MoveOp) : MoveJob := { code := .copy, op := x, src := x.src, dst := x.dst }
theorem test_porter_move : (porter chan).chanIssues 9 true ∧ chan.moves.length < 4 ∧ operandOk 0 0x8000 = true ∧ moveOk .zero move chan = true ∧
    moveOk .copy move chan = true ∧ moveOk .xcEncode { move with dstKind := 2 } chan = true ∧ operandOk 2 0x8000 = true ∧
    moveOk .xcCheck move chan = true ∧ moveOk .xcDecode move chan = true ∧
    next (exec (.copy 9 ⟨move, true⟩) (porter chan)) (fun t => (getChan 9 t).moves == [job move] && (getChan 9 t).pc == 1) = true := by
  unfold State.chanIssues; decide +kernel
theorem test_porter_loop : loopOk ⟨0, 65535, 64, -64, 1, 0⟩ chan = true ∧
    next (exec (.loop 9 ⟨⟨0, 65535, 64, -64, 1, 0⟩, true⟩) (porter chan)) (fun t => (getChan 9 t).loops.map (·.count) == [65536]) = true := by
  decide +kernel
def busy : Channel := { chan with moves := [job move] }
theorem test_porter_wait : chanTally 1024 chan (porter chan) = some 1024 ∧ (getTally 1024 (porter chan)).tstate = 1 ∧ 1024 ≠ deadTally ∧
    (porter busy).chanIssues 9 true ∧ (porter busy).quiet ∧ (porter chan).quiet ∧ chan.job = none ∧
    next (exec (.wait 9 ⟨⟨false, 1024, 5, 0⟩, true⟩) (porter chan)) (fun t => (getChan 9 t).pc == 1) = true ∧
    next (exec (.wait 9 ⟨⟨false, 1024, 6, 0⟩, true⟩) (porter chan)) (fun t => (getChan 9 t).cstate == .wait) = true ∧
    next (exec (.signal 9 ⟨⟨false, 1024, 2 ^ 32 - 6, 0⟩, true⟩) (porter chan)) (fun t => (getTally 1024 t).count == 2 ^ 32 - 1) = true ∧
    next (exec (.signal 9 ⟨⟨false, 1024, 6, 0⟩, true⟩) (porter busy)) (fun t => (getTally 1024 t).count == 5) = true ∧
    next (exec (.porterStop 9 ⟨65535, true⟩ 0) (porter busy)) (fun t => (getChan 9 t).cstate == .run) = true ∧
    next (exec (.porterStop 9 ⟨65535, true⟩ 0) (porter chan)) (fun t => (getChan 9 t).stopCode == 65535) = true := by
  unfold State.chanIssues State.quiet; decide +kernel
def waiting9 : Channel := { chan with cstate := .wait, waitFor := some (1024, 5) }
theorem test_porter_ends : (getChan 9 (porter waiting9)).cstate = .wait ∧ (getChan 9 (porter waiting9)).waitFor = some (1024, 5) ∧
    next (exec (.porterWaitSatisfied 9) (porter waiting9)) (fun t => (getChan 9 t).cstate == .run && (getChan 9 t).pc == 1) = true ∧
    next (exec (.porterWaitWatchdog 9) (porter waiting9)) (fun t => (getChan 9 t).pendingFault == some 9) = true ∧
    ({ chan with pendingFault := some 9 } : Channel).inFlight = false ∧
    next (exec (.channelFault 9) (porter { chan with pendingFault := some 9 })) (fun t => (getChan 9 t).cause == 9
      && has t 0x5020 (9 * 2 ^ 48 + 9 * 2 ^ 40)) = true ∧
    next (exec (.channelStop 9) (porter chan)) (fun t => (getChan 9 t).cstate == .fault && (getChan 9 t).cause == 10) = true := by
  decide +kernel
theorem test_porter_cfg : ownCheck 8 (inst128 O.PORTER_CH_CFG 383) (.num (64 * 65536 + 64)) ready = 0 ∧
    ownCheck 8 (inst128 O.PORTER_CH_CFG 0) (.num (1 * 65536 + 1)) ready = 0 ∧
    next (exec (.porterChCfg 383 ⟨8, 64 * 65536 + 64⟩) ready) (fun t => getN (inst128 O.PORTER_CH_CFG 383) t % 128 == 64) = true := by
  decide +kernel
/-- A burst of the move is staged; its last burst is on its way. -/
def last9 : Channel := { chan with moves := [{ job move with readDone := 8192, bursts := [(4096, List.replicate 64 (7#8, false))] }] }
theorem test_porter_burst : slotFree 0 0 (porter busy) = true ∧ pickBurst 0 (porter busy) = some (9, 0) ∧ nextMove busy = some (job move) ∧
    (match burstOf busy (job move) (porter busy) with | .ok (n, l) => n == 4096 && l == some (.dev 0x4000) | .error _ => false) = true ∧
    reachCause 9 busy false false (.dev 0x4000) 4096 (porter busy) = 0 ∧
    (getChan 9 (porter last9)).cstate = .run ∧ (last9.moves.map (·.id)).Nodup ∧ gathers (job move) = false ∧
    (match locate last9 0 0x8000 4096 (porter last9) with | .ok (l, _) => l == .dev 0x9000 | .error _ => false) = true ∧
    reachCause 9 last9 true false (.dev 0x9000) 64 (porter last9) = 0 ∧
    next (exec (.burstDone 9 true) (porter last9)) (fun t => readDev 0x9000 64 t == List.replicate 64 7#8 && (getChan 9 t).moves == []) = true := by
  decide +kernel

/-! ### The transmit scheduler -/

/-- A control segment in the queue of SC0 of port 3. -/
def txseg : TxSeg := { seg := { segZero with kind := 2, data := [1, 2, 3] } }
def sendable : State := setQueue (queueOf 0 3 0) { segs := [txseg, txseg] } ready
theorem test_sched : (schedPick 3 sendable).map (·.1) = some 24 ∧ (schedPick 3 sendable).map (fun p => (getQueue 24 p.2).segs) = some [txseg, txseg] ∧
    portZ4 3 sendable = false ∧ (getQueue 24 sendable).segs = [txseg, txseg] ∧ 0 < shaperTokens 24 sendable ∧ 0 < shaperTokens (2048 + 24) sendable ∧
    (∀ tenant < 64, 0 < tenant → (getQueue (32 * tenant + 24) sendable).segs = []) ∧
    headLen 24 sendable ≤ (getQueue 24 sendable).deficit + 8192 * viewWeight (getN (shaperKey 24) sendable) ∧
    next (exec (.schedSelect 3) sendable) (fun t => (getQueue 24 t).segs == [txseg] && (getPicked 3 t).map (·.seg) == [txseg.seg]) = true := by
  decide +kernel
/-- An enqueue that waits and has room now. -/
def enq : State := { ready with sched := { ready.sched with waiting := [⟨24, txseg, none⟩] } }
theorem test_enqueue : enq.sched.waiting[0]? = some ⟨24, txseg, none⟩ ∧ enq.quiet ∧ (∀ v ∈ enq.sched.waiting.take 0, v.q ≠ 24) ∧
    queueRoom 24 txseg.seg enq = true ∧
    next (exec (.enqueueRoom 0) enq) (fun t => t.sched.waiting == [] && (getQueue 24 t).segs == [txseg]) = true := by
  unfold State.quiet; decide +kernel
/-- Group 5 of sites 0 and 1, OPEN at epoch 3. -/
def group5 : Group := { gstate := 2, epoch := 3, present := 3, tenant := 2, members := 3, ring := [0, 1], chunk := 1048576, dirs := 1, quotaMib := 64,
                        waitMs := 10, timeoutMs := 1000, chunkWaitMs := 5 }
def grouped : State := setGroup 5 group5 ready
theorem test_credit : (getGroup 5 grouped).gstate = 2 ∧ relayOnly 5 grouped = false ∧ bitOf (getGroup 5 grouped).members 1 = true ∧
    1 ≠ selfSite grouped ∧ (((getGroup 5 grouped).others (selfSite grouped)).map fun d => grantLack 5 d grouped).sum ≤ grantSpace 5 grouped ∧ (getGroup 5 grouped).isOpen = true ∧
    next (exec (.credit ⟨5, 3, 1, 0, 0⟩ 7 (2 ^ 48 - 1) 9) grouped) (fun t => (getCreditTx 5 1 t).postedLimit == 2 ^ 48 - 1
      && (getCreditTx 5 1 t).blindLimit == 9) = true ∧
    next (exec (.creditSend 5 1) grouped) (fun t => (getCreditRx 5 1 t).grant == 64 * mib) = true := by decide +kernel
/-- A frame of VLAN 5, which the one entry of the classification gives tenant 63, port 3, express. -/
def frame5 : List Byte := List.replicate 12 0#8 ++ [0x81, 0x00, 0x00, 0x05] ++ List.replicate 46 0#8
def classified (policer : Nat) : State :=
  setN (inst128 O.POLICER (63 * 4 + 3)) policer (setB O.LF_ETH_CLASS (bytesLE 4 (5 * 2 ^ 20 + 63 * 2 ^ 14 + 2 ^ 13 + 3 * 2 ^ 11)) ready)
theorem test_tenant_frame : ethMatch frame5 ready = none ∧ ethMatch frame5 (classified 0) = some (5 * 2 ^ 20 + 63 * 2 ^ 14 + 2 ^ 13 + 3 * 2 ^ 11) ∧
    frame5.length ≤ 8048 ∧ queueRoom (queueOf 7 3 63) (ethSegment 63 3 7 frame5 (classified 0)) (classified 0) = true ∧
    next (exec (.tenantEthRx frame5) (classified 0)) (fun t => (getQueue (queueOf 7 3 63) t).segs.map (·.seg.data) == [frame5]) = true ∧
    bitOf (getN (inst128 O.POLICER (63 * 4 + 3)) (classified 2)) 1 = true ∧ policerTokens (63 * 4 + 3) (classified 2) < 62 * 65536 ∧
    next (exec (.tenantEthRx frame5) (classified 2)) (fun t => getN (inst128 O.POL_DROPS (63 * 4 + 3)) t == 1) = true := by decide +kernel

/-! ### The Rovik Object Protocol -/

/-- Session 0 is open as ADMIN. -/
def session : State := setSess 0 { isOpen := true, admin := true } ready
/-- A request of session 0 with items. -/
def req (items : List RopItem) : RopReq := { sess := 0, port := 4797, version := 1, requestId := 42, shadow := false, itemCount := items.length,
                                             bodyLength := (items.map fun i => 8 + (i.value.length + 3) / 4 * 4).sum,
                                             msgLen := 16 + (items.map fun i => 8 + (i.value.length + 3) / 4 * 4).sum, items := items }
def item (idx sub : Nat) (ty : ObjType) (v : List Byte) : RopItem := ⟨idx, sub, ty.code, v.length, false, false, v⟩
/-- READ of BG_PLACE. -/
def readPlaceObj : RopItem := item 0x1020 1 .u8 []
theorem test_rop_read : session.hears (req [readPlaceObj]) ∧ eventLogItem readPlaceObj = false ∧
    (match readCheck 0 0x1020 1 session with | .ok d => d.ty == .u8 | .error _ => false) = true ∧
    next (exec (.read (req [readPlaceObj])) session) (fun t =>
      t.sent.contains (.ropResponse 0 ⟨129, 0, 42, [⟨0x1020, 1, 1, false, false, 0, [0]⟩]⟩) && (getSess 0 t).kept.length == 1) = true ∧
    next (exec (.ropOpNotKnown 9 (req [readPlaceObj])) session) (fun t => t.sent.length == 2) = true := by
  unfold State.hears; decide +kernel
/-- A response to request 42 is kept. -/
def answered : State := setSess 0 { isOpen := true, admin := true, kept := [⟨130, 0, 42, []⟩] } ready
theorem test_rop_kept : reaches (req [readPlaceObj]) answered = true ∧ answererDown answered = false ∧
    (getSess 0 answered).kept.find? (fun k => k.requestId == 42) = some ⟨130, 0, 42, []⟩ ∧
    next (exec (.write (req [readPlaceObj])) answered) (fun t => t.sent.contains (.ropResponse 0 ⟨130, 0, 42, []⟩)) = true := by decide +kernel
/-- R46: a handshake as DTLS 1.3 wants it, whose chain reaches the ADMIN anchor, and one under a pre-shared key. -/
def shake : Handshake := ⟨0x0A000001, 4797, true, true, 0x1302, false, false, false, true, 0⟩
def anchored : State := setB O.ROP_ANCHOR_ADMIN [1] ready
theorem test_rop_session : sourceServed 0 anchored = true ∧ mgtUp anchored = true ∧ freeSession anchored = some 0 ∧ handshakeOk shake anchored = true ∧
    handshakeOk { shake with psk := true } anchored = false ∧
    next (exec (.dtlsHandshake shake) anchored) (fun t => (getSess 0 t).admin && has t 0x0410 0) = true ∧
    next (exec (.dtlsHandshake { shake with psk := true }) anchored) (fun t => has t 0x0412 0x0A000001) = true ∧
    (getSess 0 session).isOpen = true ∧
    next (exec (.dtlsClose 0) session) (fun t => !(getSess 0 t).isOpen && has t 0x0411 0) = true := by decide +kernel
/-- R57, R62: a WRITE whose one item fails its check, and one of a member of a CLEAN group. -/
theorem test_rop_write : session.hears (req [item 0x1020 1 .u8 [5]]) ∧ observer 0 session = false ∧
    ((checkItems 0 (afterWrite (req [item 0x1020 1 .u8 [5]]) session) session [item 0x1020 1 .u8 [5]] []).any fun c => c.err != 0) = true ∧
    next (exec (.write (req [item 0x1020 1 .u8 [5]])) session) (fun t =>
      t.sent.contains (.ropResponse 0 ⟨130, 0x16, 42, [⟨0x1020, 1, 1, false, false, 0x16, []⟩]⟩)) = true := by
  unfold State.hears; decide +kernel
/-- OS_HP_FROM_STEP, of group 0x49. -/
def hpItem : RopItem := item (O.OS_HP_FROM_STEP / 256) (O.OS_HP_FROM_STEP % 256) .u32 [0, 0, 0, 9]
theorem test_rop_write_group : session.hears (req [hpItem]) ∧ session.quiet ∧ groupOfKey O.OS_HP_FROM_STEP = 0x49 ∧
    (findDesc hpItem.index hpItem.sub).isSome = true ∧ (getCg 0x49 session).cgState = 0 ∧
    stdCheck 0 hpItem.index hpItem.sub hpItem.type hpItem.length (.num 9) session = 0 ∧ ownCheck 0 O.OS_HP_FROM_STEP (.num 9) session = 0 ∧
    next (exec (.write (req [hpItem])) session) (fun t => (getCg 0x49 t).cgState == 1 && (getCg 0x49 t).owner == 0
      && shadowVal (getCg 0x49 t) O.OS_HP_FROM_STEP t == .num 9 && getN O.OS_HP_FROM_STEP t == 0) = true := by
  unfold State.hears State.quiet; decide +kernel
/-- Group 0x49 OPEN with a step to come, and with one that has passed; group 0x60 OPEN in SERVICE. -/
def opened (id : Nat) (shadow : List (Nat × ObjVal)) (d : DevState) : State :=
  setCg id { cgState := 1, owner := 0, ticket := 65535, shadow := shadow } { session with devState := d }
def commitOf (id : Nat) : RopItem := item 0x1050 id .u32 []
theorem test_rop_commit : (opened 0x49 [(O.OS_HP_FROM_STEP, .num 9)] .ready).hears (req [commitOf 0x49]) ∧
    commitError 0 0x1050 0x49 false (opened 0x49 [(O.OS_HP_FROM_STEP, .num 9)] .ready) = 0 ∧
    (cgRule 0x49 (fun k => shadowVal (getCg 0x49 (opened 0x49 [(O.OS_HP_FROM_STEP, .num 9)] .ready)) k
      (opened 0x49 [(O.OS_HP_FROM_STEP, .num 9)] .ready)) (opened 0x49 [(O.OS_HP_FROM_STEP, .num 9)] .ready)).1 = 0 ∧
    next (exec (.commit (req [commitOf 0x49])) (opened 0x49 [(O.OS_HP_FROM_STEP, .num 9)] .ready)) (fun t =>
      getN O.OS_HP_FROM_STEP t == 9 && (getCg 0x49 t).cgState == 0 && (getCg 0x49 t).ticket == 0) = true := by
  unfold State.hears; decide +kernel
theorem test_rop_commit_refused : commitError 0 0x1050 0x49 false (opened 0x49 [(O.OS_HP_FROM_STEP, .num 0)] .ready) = 0 ∧
    next (exec (.commit (req [commitOf 0x49])) (opened 0x49 [(O.OS_HP_FROM_STEP, .num 0)] .ready)) (fun t =>
      (getCg 0x49 t).cgState == 1 && (getCg 0x49 t).ruleId == 0x4901 && has t 0x0402 0x4901) = true ∧
    commitError 0 0x1050 0x49 true (opened 0x49 [(O.OS_HP_FROM_STEP, .num 0)] .ready) = 0 ∧
    next (exec (.abort (req [commitOf 0x49])) (opened 0x49 [(O.OS_HP_FROM_STEP, .num 0)] .ready)) (fun t =>
      (getCg 0x49 t).cgState == 0 && (getCg 0x49 t).outcome == 3 && has t 0x0403 0x49) = true := by decide +kernel
theorem test_rop_commit_armed : commitError 0 0x1050 0x60 false (opened 0x60 [] .service) = 0 ∧ cgBoundary 0x60 ≠ 1 ∧
    (opened 0x60 [] .service).hears (req [commitOf 0x60]) ∧
    boundaryCome 0x60 (setCg 0x60 { (getCg 0x60 (opened 0x60 [] .service)) with cgState := 2 } (opened 0x60 [] .service)) = false ∧
    next (exec (.commit (req [commitOf 0x60])) (opened 0x60 [] .service)) (fun t => (getCg 0x60 t).cgState == 2
      && t.sent.contains (.ropResponse 0 ⟨131, 0, 42, [⟨0x1050, 0x60, 3, false, false, 0, [0xFF, 0xFF, 0x20, 0]⟩]⟩)) = true := by
  unfold State.hears; decide +kernel
/-- R62, R64: a lease that ends, OPEN and ARMED; an armed group whose boundary has come. -/
def armed (id : Nat) (shadow : List (Nat × ObjVal)) (d : DevState) : State :=
  setCg id { cgState := 2, owner := 0, ticket := 65535, shadow := shadow } { session with devState := d }
theorem test_cg_lease : next (exec (.cgLeaseExpiry 0x49) (opened 0x49 [] .ready)) (fun t => (getCg 0x49 t).cgState == 0 && has t 0x0403 0x49) = true ∧
    next (exec (.cgLeaseExpiry 0x49) (armed 0x49 [] .service)) (fun t => (getCg 0x49 t).owner == 0xFF && (getCg 0x49 t).cgState == 2) = true ∧
    (getCg 0x49 (armed 0x49 [(O.OS_HP_FROM_STEP, .num 9)] .service)).loaded = false ∧
    boundaryCome 0x49 (armed 0x49 [(O.OS_HP_FROM_STEP, .num 9)] .service) = true ∧
    next (exec (.cgApply 0x49 0) (armed 0x49 [(O.OS_HP_FROM_STEP, .num 9)] .service)) (fun t => getN O.OS_HP_FROM_STEP t == 9
      && has t 0x0401 0) = true := by decide +kernel
/-- R59: ON_CHANGE of BG_PLACE at 60,000 ms. -/
def subItem : RopItem := item 0x1020 1 .blob (1 :: 0 :: 0 :: 0 :: bytesBE 4 60000)
theorem test_subscribe : session.hears (req [subItem]) ∧ subsTotal session < 512 ∧
    subOf true 0x1020 1 subItem.value = some ⟨0x1020, 1, 1, 60000, 0, 0, 0, none, false⟩ ∧
    next (exec (.subscribe (req [subItem])) session) (fun t => (getSess 0 t).subs.length == 1) = true := by
  unfold State.hears; decide +kernel
/-- A PERIODIC subscription and what waits to be notified. -/
def subscribed : State := setSess 0 { isOpen := true, admin := true, subs := [⟨0x1020, 1, 2, 1000, 0, 0, 0, none, false⟩],
                                      queue := [.value 0x1020 1 (.num 3)], notifySeq := 2 ^ 32 - 1 } ready
theorem test_notify : (getSess 0 subscribed).subs[0]? = some ⟨0x1020, 1, 2, 1000, 0, 0, 0, none, false⟩ ∧ answererDown subscribed = false ∧
    subVal 0 ⟨0x1020, 1, 2, 1000, 0, 0, 0, none, false⟩ subscribed = some (.num 0) ∧ mayNotify 0 subscribed = true ∧
    next (exec (.subscriptionTimer 0 0) subscribed) (fun t => (getSess 0 t).queue.length == 2) = true ∧
    next (exec (.notify 0) subscribed) (fun t => (getSess 0 t).queue == [] && (getSess 0 t).notifySeq == 0) = true := by decide +kernel
/-- R41 to R43: a save at 99,999 saves, one at 100,000, an erasure, and their ends. -/
theorem test_cfg : ownCheck 8 O.CFG_SAVE (.num 0x53415645) ready = 0 ∧ ownCheck 8 O.CFG_SAVE (.num 0x45524153) ready = 0 ∧
    next (exec (.cfgSave 8) (setN O.CFG_SAVE_COUNT 99999 ready)) (fun t => t.dict.cfgBusy == 1) = true ∧
    next (exec (.cfgSave 8) (setN O.CFG_SAVE_COUNT 100000 ready)) (fun t => t.sent == [.writeAnswer 8 O.CFG_SAVE 0x31]) = true ∧
    next (exec (.cfgErase 8) ready) (fun t => t.dict.cfgBusy == 2) = true ∧
    next (exec .cfgWriteDone { ready with dict := { ready.dict with cfgBusy := 1 } }) (fun t => t.dict.cfgNewest == 1 && has t 0x0420 1) = true ∧
    next (exec .cfgWriteDone { ready with dict := { ready.dict with cfgBusy := 2 } }) (fun t => t.dict.cfgA.saved == []) = true := by decide +kernel

/-! ### Collectives -/

/-- Commit group 0x40 armed for an action on group 5. -/
def gdArmed (action : Nat) (g : Group) : State :=
  setCg 0x40 { cgState := 2, owner := 0, shadow := [(O.GD_TARGET, .num 5), (O.GD_ACTION, .num action), (O.GD_MEMBERS, .num 3),
    (O.GD_TENANT, .num 2), (O.GD_CHUNK, .num 1048576), (O.GD_RING, .bytes [0, 1]), (O.GD_TIMEOUT_MS, .num 500)] } (setGroup 5 g ready)
theorem test_group_open : (getCg 0x40 (gdArmed 1 Group.closed0)).cgState = 2 ∧ boundaryCome 0x40 (gdArmed 1 Group.closed0) = true ∧
    ((getCg 0x40 (gdArmed 1 Group.closed0)).shadow.map (·.1)).Nodup ∧ cgShadowN 0x40 O.GD_TARGET (gdArmed 1 Group.closed0) = 5 ∧
    cgShadowN 0x40 O.GD_ACTION (gdArmed 1 Group.closed0) = 1 ∧
    next (exec .groupOpen (gdArmed 1 Group.closed0)) (fun t => (getGroup 5 t).gstate == 1 && (getGroup 5 t).members == 3) = true ∧
    next (exec .groupModify (gdArmed 2 group5)) (fun t => (getGroup 5 t).timeoutMs == 500 && (getGroup 5 t).chunk == 1048576) = true ∧
    next (exec .groupClose (gdArmed 3 group5)) (fun t => getGroup 5 t == Group.closed0) = true := by decide +kernel
/-- R81: where this gateway is no member, the group is OPEN at once. -/
theorem test_relay_open : next (exec .groupOpen (setN O.SITE_ID 9 (gdArmed 1 Group.closed0))) (fun t => (getGroup 5 t).gstate == 2) = true := by
  decide +kernel
/-- Group 5 OPENING, with this member present. -/
def opening : State := setGroup 5 { group5 with gstate := 1, present := 1 } ready
theorem test_hello : (getGroup 5 opening).isOpen = true ∧ relayOnly 5 opening = false ∧ bitOf (getGroup 5 opening).members 1 = true ∧
    helloHeld 5 opening = false ∧ (getGroup 5 opening).isOpen = true ∧
    next (exec (.helloRetry 5) opening) (fun t => (getGroup 5 t).gstate == 1) = true ∧
    next (exec (.hello ⟨5, 3, 1, 0, 0⟩ ⟨descDigest 5 (getGroup 5 opening), rangeDigest opening, true⟩) opening) (fun t =>
      (getGroup 5 t).gstate == 2 && (getGroup 5 t).present == 3) = true ∧
    next (exec (.hello ⟨5, 3, 1, 0, 0⟩ ⟨descDigest 5 (getGroup 5 opening) + 1, rangeDigest opening, true⟩) opening) (fun t =>
      (getGroup 5 t).gstate == 3 && has t 0x4017 1) = true := by decide +kernel
/-- A ring of the PF for postings of tenant 2, with one entry. -/
def ring4 (kind : Nat) : Ring := { ctrl := 1 + kind * 2 + 6 * 16 + 2 * 2 ^ 10, subTail := 1 }
def host (kind : Nat) (s : State) : State := setRing (ringKey 0xFF 4) (ring4 kind) (setN O.HOST_LINK 0x510 s)
/-- A list of one crate of class 3, of 4,096 bytes, in a crate of class 1; tenant 2 holds both. -/
def listAt : Nat := crateAddr (mkHandle 1 0) ready
def list1 (s : State) : State :=
  writeDev listAt (bytesLE 4 1 ++ bytesLE 4 0 ++ bytesLE 8 4096 ++ bytesLE 4 (mkHandle 3 0) ++ bytesLE 4 4096)
    (setCrate (mkHandle 1 0) { rstate := 1, refs := 1, tenant := 2 } (setCrate (mkHandle 3 0) { rstate := 1, refs := 1, tenant := 2 } s))
def posting : Posting := { group := 5, pflags := 0, seq := 7, length := 4096, inList := listAt, outList := listAt, program := 1, redop := 1,
                           elem := 0, coding := 0, tallyBase := 0xFFFFFFFF }
def src4 : JobSrc := ⟨0xFF, 4, 0⟩
def mayPost : State := host 0 (list1 grouped)
theorem takes (op n : Nat) (h1 : mayConsume 0 src4 mayPost = true ∧ takesNoWork mayPost = false ∧ (getGroup 5 mayPost).isOpen = true ∧
    relayOnly 5 mayPost = false ∧ armedAction 5 mayPost ≠ some 3 ∧ badParam op posting src4 mayPost = false ∧
    (openColls 5 mayPost).length + n ≤ 16 ∧ collOpenCount mayPost + n ≤ 4096)
    (h2 : bitOf (vendorProgram 1).tenantMask (getGroup 5 mayPost).tenant = true) (h3 : ∀ k < n, seqTaken 5 (7 + k) mayPost = false) :
    mayPost.takesPosting op n posting src4 :=
  ⟨h1.1, h1.2.1, by decide, h1.2.2.1, h1.2.2.2.1, fun h => absurd h (by decide), h1.2.2.2.2.1, h1.2.2.2.2.2.1,
    ⟨vendorProgram 1, by decide +kernel, h2⟩, h1.2.2.2.2.2.2.1, h1.2.2.2.2.2.2.2,
    (fun m h => absurd (show (none : Option Nat) = some m from h) (by simp)), h3⟩
theorem test_post : mayPost.takesPosting 1 1 posting src4 ∧ mayPost.takesPosting 2 1 posting src4 ∧ mayPost.takesPosting 3 2 posting src4 :=
  ⟨takes 1 1 (by decide +kernel) (by decide +kernel) (by decide +kernel), takes 2 1 (by decide +kernel) (by decide +kernel) (by decide +kernel),
    takes 3 2 (by decide +kernel) (by decide +kernel) (by decide +kernel)⟩
theorem test_post_results :
    next (exec (.postAllReduce posting src4) mayPost) (fun t => t.coll.colls.map (fun c => (c.seq, c.op)) == [(7, 1), (8, 2)]
      && (getGroup 5 t).maxSeq == some 8 && (getRing (ringKey 0xFF 4) t).subHead == 1) = true ∧
    next (exec (.postAllGather posting src4) mayPost) (fun t => t.coll.colls.map (·.op) == [2]) = true := by decide +kernel
/-- An all-gather of group 5, number 7, of two chunks. -/
def coll7 : Coll := { group := 5, seq := 7, epoch := 3, op := 2, allReduce := false, posting := { posting with length := 4096 }, src := src4, ring := false,
                      k := 2, lc := 2048 }
def posted (c : Coll) : State := { setGroup 5 { group5 with maxSeq := some 7 } (host 0 (list1 ready)) with
  coll := { (setGroup 5 { group5 with maxSeq := some 7 } (host 0 (list1 ready))).coll with colls := [c] } }
theorem test_cancel : mayConsume 0 src4 (posted coll7) = true ∧ takesNoWork (posted coll7) = false ∧ (getGroup 5 (posted coll7)).isOpen = true ∧
    relayOnly 5 (posted coll7) = false ∧ (getGroup 5 (posted coll7)).tenant = srcTenant src4 (posted coll7) ∧
    (getGroup 5 (posted coll7)).maxSeq = some 7 ∧ findColl 5 7 3 (posted coll7) = some coll7 ∧
    next (exec (.postCancel posting src4) (posted coll7)) (fun t => (findColl 5 7 3 t).any fun c => c.cstate == .cancelled && c.cause == 4) = true := by
  decide +kernel
theorem test_coll_activate : findColl 5 7 3 (posted { coll7 with placement := some 0 }) = some { coll7 with placement := some 0 } ∧
    (getGroup 5 (posted coll7)).gstate = 2 ∧ (getGroup 5 (posted coll7)).allPresent = true ∧ armedAction 5 (posted coll7) = none ∧
    next (exec (.collActivate 5 7) (posted { coll7 with placement := some 0 })) (fun t => (findColl 5 7 3 t).any fun c => c.cstate == .active) = true := by
  decide +kernel
/-- The collective ACTIVE with part of chunk 1 of site 1. -/
def active7 : Coll := ({ coll7 with cstate := .active } : Coll).setItem 1 1 { Item.new0 with pieces := [⟨0, [1, 2], false, []⟩], begun := true }
theorem test_chunk_wait : (1, 1) ∈ active7.expected group5 0 ∧ (active7.item 1 1).complete = false ∧ (active7.item 1 1).begun = true ∧
    next (exec (.chunkWaitExpiry 5 7 1) (posted active7)) (fun t => (findColl 5 7 3 t).any (fun c => c.cstate == .failed && c.cause == 2)
      && has t 0x4013 1) = true ∧
    next (exec (.collTimeout 5 7) (posted active7)) (fun t => (findColl 5 7 3 t).any (fun c => c.cause == 1)
      && has t 0x4014 (5 * 2 ^ 48 + 7 * 2 ^ 16)) = true := by decide +kernel
def done7 : Coll := { coll7 with cstate := .localDone }
def hdr7 : CtlHdr := ⟨5, 3, 1, 0, 7⟩
def agrees7 : ConfirmBody := ⟨2, false, 2, done7.sealDigest, done7.paramDigest⟩
theorem test_confirm : arrivalClass 5 7 3 (posted done7) = .process ∧ arrivalClass 5 7 3 (posted active7) = .process ∧
    arrivalClass 5 7 3 (posted coll7) = .process ∧
    bitOf (getGroup 5 (posted done7)).members 1 = true ∧ done7.differs agrees7 = false ∧ done7.differs { agrees7 with sealDigest := 1 } = true ∧
    done7.confirms = [] ∧ 1 ∈ (getGroup 5 (posted done7)).others (selfSite (posted done7)) ∧
    (∀ d ∈ (getGroup 5 (posted done7)).others (selfSite (posted done7)), d = 1 ∨ ∃ p ∈ done7.confirms, p.1 = d) ∧
    next (exec (.confirm hdr7 agrees7) (posted done7)) (fun t => (findColl 5 7 3 t).any (·.cstate == .confirmed)) = true ∧
    next (exec (.confirm hdr7 { agrees7 with sealDigest := 1 }) (posted done7)) (fun t =>
      (findColl 5 7 3 t).any fun c => c.cstate == .failed && c.cause == 3) = true ∧
    next (exec (.confirm hdr7 agrees7) (posted active7)) (fun t => (findColl 5 7 3 t).any (·.confirms == [(1, agrees7)])) = true ∧
    next (exec (.cancel hdr7) (posted coll7)) (fun t => (findColl 5 7 3 t).any (·.cstate == .cancelled)) = true ∧
    next (exec (.endStatus hdr7 1 6) (posted coll7)) (fun t => (findColl 5 7 3 t).any fun c => c.cstate == .failed && c.cause == 6) = true := by
  decide +kernel
/-- Chunk 0, which this member owns, is sealed and held. -/
def sealed7 : Coll := { active7 with seals := [(0, 77)] }
theorem test_chunk_req : keptChunk 5 7 3 0 (posted sealed7) = [] ∧ (heldChunk sealed7 0 (posted sealed7)).map (·.2) = some 77 := by decide +kernel
/-- An arrival held for number 9, which is not posted. -/
def unexpected : State := { grouped with coll := { grouped.coll with held := [⟨5, 9, 3, 64, .inl segZero, 0, false⟩] } }
theorem test_unexp_wait : (∃ h ∈ unexpected.coll.held, h.group = 5 ∧ h.seq = 9 ∧ h.epoch = (getGroup 5 unexpected).epoch) ∧
    unexpected.coll.stalledPairs.contains (5, 9, (getGroup 5 unexpected).epoch) = false ∧
    next (exec (.unexpWaitExpiry 5 9) unexpected) (fun t => t.coll.stalledPairs == [(5, 9, 3)]
      && getN O.STALL_PAIR_A t == 5 * 2 ^ 48 + 9 * 2 ^ 16 + 3) = true := by decide +kernel
/-- R110 to R112: an advance from epoch 65535 to 0, its acknowledgement, and the end of the wait. -/
def atEpoch (e : Nat) (r : Option Resolution) : State := setGroup 5 { group5 with epoch := e, resolution := r } ready
def resolving : Resolution := ⟨4, 0, 1, 0, 1, []⟩
theorem test_epoch : (getGroup 5 (atEpoch 65535 none)).isOpen = true ∧ relayOnly 5 (atEpoch 65535 none) = false ∧
    (getGroup 5 (atEpoch 65535 none)).awaitAdv = false ∧ 0 < epochDiff 0 65535 ∧
    next (exec (.epochAdv ⟨5, 65535, 1, 0, 0⟩ ⟨0, 0, 1, 0⟩) (atEpoch 65535 none)) (fun t => (getGroup 5 t).epoch == 0) = true ∧
    (getGroup 5 (atEpoch 4 (some resolving))).resolution = some resolving ∧ (getGroup 5 (atEpoch 4 (some resolving))).ownChange = none ∧
    next (exec (.epochAck ⟨5, 4, 1, 0, 0⟩ 4 [(7, 2)]) (atEpoch 4 (some resolving))) (fun t => (getGroup 5 t).epoch == 4) = true ∧
    next (exec (.epochResolveTimeout 5) (atEpoch 4 (some resolving))) (fun t => (getGroup 5 t).resolution == none && has t 0x4016 4) = true := by
  decide +kernel

/-! ### The outer step -/

/-- A shard of one XC entry of 2 by 2, group 5 its group, a door queue pair bound in mode ASYNC, the step state and the last committed step. -/
def table1 : List Byte := bytesLE 4 1 ++ List.replicate 12 0#8 ++ bytesLE 4 7 ++ bytesLE 4 2 ++ bytesLE 4 2 ++ bytesLE 2 0 ++ [1, 0] ++ bytesLE 8 0
  ++ List.replicate 8 0#8
def outer (st : Nat) : State :=
  let t := objs [(O.OS_MODE, 1), (O.OS_GROUP, 5), (O.OS_STEP_STATE, st), (O.OS_COMMITTED_STEP, 16383), (O.OS_CUR_STEP, 16384)]
    (setB O.OS_TABLE table1 grouped)
  { t with host := { t.host with qps := [(9, ⟨2, 0, 1, 0, 0, 0, 0, none, 65536, none⟩), (10, ⟨1, 0, 1, 0, 0, 0, 0, none, 65536, none⟩)] } }
/-- What has left, or waits for its port of the local fabric. -/
def out (t : State) : Nat := t.sent.length + t.fabWait.length
/-- The same with a second entry like it, whose page is pending, so that no part is posted yet. -/
def outer2 (st : Nat) : State :=
  let t := setB O.OS_TABLE (bytesLE 4 2 ++ table1.drop 4 ++ table1.drop 16) (outer st)
  { t with os := { t.os with pageTable := [⟨0, 16383⟩, ⟨1, 16382⟩] } }
/-- A door of a step, for entry 0. -/
def door (step : Nat) : Door := ⟨9, BitVec.ofNat 28 (step * 4096)⟩
def entry0 : OsEntry := ⟨2, 2, 0, 1, 0⟩
theorem test_weights_done : (outer2 0).doorOpen (door 0) ∧ (outer2 1).doorOpen (door 0) ∧ doorEntryOk (door 0) (outer2 0) = true ∧
    doorStep (door 0) = (getN O.OS_COMMITTED_STEP (outer2 0) + 1) % 16384 ∧ doorAttempt (door 0) = getN O.OS_ATTEMPT (outer2 0) ∧
    doorStep (door 0) = getN O.OS_CUR_STEP (outer2 1) % 16384 ∧ announced (doorTensor (door 0)) (outer2 1) = false ∧ (outer2 0).undamaged ∧ (outer2 1).undamaged ∧
    next (exec (.weightsDone (door 0)) (outer2 0)) (fun t => getN O.OS_STEP_STATE t == 1 && getN O.OS_CUR_STEP t == 16384
      && t.os.formed.map (·.1) == [0]) = true ∧
    next (exec (.weightsDone (door 0)) (outer2 1)) (fun t => t.os.formed.map (·.1) == [0]) = true ∧
    next (exec (.weightsDone (door 0)) (outer2 2)) (fun t => has t 0x4809 (2 ^ 28)) = true := by
  unfold State.doorOpen State.undamaged; decide +kernel
theorem test_door_modes : doorQp 9 (outer 0) = true ∧ doorQp 9 (setN O.OS_MODE 0 (outer 0)) = true ∧ doorQp 9 (setN O.OS_MODE 2 (outer 0)) = true ∧
    next (exec (.doorKindRejected 15 (door 0)) (outer 0)) (fun t => has t 0x4809 (15 * 2 ^ 28)) = true ∧
    next (exec (.weightsDone (door 0)) (setN O.OS_MODE 0 (outer 0))) (fun t => t.dict.log == []) = true ∧
    next (exec (.weightsDone (door 0)) (setN O.OS_MODE 2 (outer 0))) (fun t => has t 0x4809 (2 ^ 28)) = true := by decide +kernel
theorem test_loads : (outer 0).doorOpen (door 0) ∧ doorAttempt (door 0) = 0 ∧ doorStep (door 0) = 0 ∧
    (osEntries (outer 0))[doorTensor (door 0)]? = some entry0 ∧ mayLoad (outer 0) = true ∧ mayLoad (outer 2) = true ∧
    pendingPages (outer 0) = [] ∧ (outer 0).os.damaged = [] ∧ returnQp (doorTensor (door 0)) (outer 0) = some 10 ∧
    next (exec (.loadMomentum (door 0)) (outer 0)) (fun t => t.os.momLoaded == [0]) = true ∧
    next (exec (.anchorRead (door 0)) (outer 0)) (fun t => out t == 1) = true ∧
    ownCheck 8 O.OS_CMD (.num 2) (outer 0) = 0 ∧
    next (exec (.loadCommit 8) (setN O.OS_LOAD_STEP 9 (outer 0))) (fun t => getN O.OS_COMMITTED_STEP t == 9 && getN O.OS_STEP_STATE t == 0) = true ∧
    ownCheck 8 O.OS_CMD (.num 1) (outer 1) = 0 ∧ (door 0).imm = 0 := by
  unfold State.doorOpen; decide +kernel
/-- A step just decided; its record is due and its anchor has landed. -/
def decided (o : Outcome) : State :=
  { outer 0 with os := { (outer 0).os with decided := some o, recordDue := true, returned := [0] } }
def committed1 : Outcome := { outcome := 1, cause := 0, step := 16384, attempt := 0, committed := 16384 }
theorem test_outcome : (decided committed1).doorOpen (door 0) ∧ (decided committed1).os.decided = some committed1 ∧
    (∀ n < (osEntries (decided committed1)).length, (decided committed1).os.returned.contains n = true) ∧
    (decided committed1).os.retWaits = [] ∧ next (exec (.outcomeQuery (door 0)) (decided committed1)) (fun t => out t == 1) = true ∧
    next (exec .outcomeRecord (decided committed1)) (fun t => !t.os.recordDue && out t == 1) = true := by
  unfold State.doorOpen; decide +kernel
/-- One page pending; an entry whose next anchor is known. -/
def pending1 : State := { outer 0 with os := { (outer 0).os with pageTable := [⟨5, 16382⟩], freePairs := [6, 7], pDone := true, qDone := true } }
theorem test_sweep : pending1.undamaged ∧ pendingPages pending1 = [0] ∧ pageEntry 0 pending1 = some ⟨5, 16382⟩ ∧ (osPages (osEntries pending1))[0]? = some (0, 0) ∧ (osEntries pending1)[0]? = some entry0 ∧
    next (exec .sweepPage pending1) (fun t => pendingPages t == [] && t.os.pageTable == [⟨6, 16383⟩] && t.os.freePairs == [7, 5]) = true := by
  unfold State.undamaged; decide +kernel
def known : State := { outer 1 with os := { (outer 1).os with pDone := true, qDone := true } }
theorem test_next_anchor : (osEntries known)[0]? = some entry0 ∧ known.os.returned.contains 0 = false ∧ returnQp 0 known = some 10 ∧ entryHeld 0 known = false ∧ getN O.OS_STEP_STATE known = 1 ∧
    (if entry0.lr then known.os.qDone else known.os.pDone) = true ∧
    next (exec (.nextAnchorReturn 0) known) (fun t => t.os.returned == [0] && t.os.retWaits == [10]) = true := by decide +kernel
/-- R140: a source of the group; two answers that agree and two that do not; pages that land. -/
def refilling (st : Nat) : State := { setN O.OS_REFILL_STATE st (outer 0) with os := { (setN O.OS_REFILL_STATE st (outer 0)).os with sources := [(0, 1)], refilled := false } }
theorem test_refill : (getGroup (osGroup (outer 0)) (outer 0)).isOpen = true ∧ (getGroup (osGroup (outer 0)) (outer 0)).resolution = none ∧
    bitOf (getGroup (osGroup (outer 0)) (outer 0)).members 1 = true ∧
    pendingPages (outer 0) = [] ∧ (outer 0).undamaged ∧
    getN O.OS_REFILL_STATE (refilling 1) = 1 ∧ (refilling 1).os.sources.length = 1 ∧
    next (exec (.refillRetry [⟨7, 1, 2, []⟩] false) (refilling 1)) (fun t => getN O.OS_REFILL_STATE t == 2) = true ∧
    next (exec (.refillRetry [⟨7, 1, 2, []⟩, ⟨8, 1, 2, []⟩] true) { refilling 1 with os := { (refilling 1).os with sources := [(0, 1), (1, 2)] } })
      (fun t => getN O.OS_REFILL_STATE t == 4 && has t 0x4805 (16383 * 2 ^ 32 + 2)) = true ∧
    (fun u : State => u.os.refilled && !u.dict.log.isEmpty) (refillEnd [⟨0, List.replicate 16 1, List.replicate 16 2⟩] []
      ⟨7, crc64 (List.replicate 16 1), crc64 (List.replicate 16 2), []⟩ (refilling 2)) = true := by
  unfold State.undamaged; decide +kernel
theorem test_hbm : next (exec (.hbmUncorrectable (.word 4096)) ready) (fun t => poisonAt 512 t.poison && !poisonAt 513 t.poison) = true ∧
    next (exec (.hbmUncorrectable (.page 0)) (outer 0)) (fun t => t.os.damaged == [0]) = true ∧
    next (exec (.hbmUncorrectable (.record 3)) (outer 0)) (fun t => t.os.recDamaged == [3]) = true := by decide +kernel

/-! ### Lines -/

/-- Carrier 0 of port 0, ACTIVE in mode L16, in SYNC. -/
def car : Carrier := { cstate := .active, mode := 4, runMode := 4, shutter := false, locked := true, raw := 0, reported := 0, fa := 2, fecLock := true }
def line (x : Carrier) : State := setCar 0 x (setN O.LP_CARRIERS 0x0F ready)
def frameOf (o : Host.Outcome State Fault Refusal) : List Byte :=
  match o with | .next t => (t.sent.findSome? fun m => match m with | .frame _ b => some b | _ => none).getD [] | _ => []
/-- A frame of carrier 0 whose FSEQ is the last. -/
def frame0 : List Byte := frameOf (exec (.frameStart 0) (line { car with fseq := 2 ^ 48 - 1, probeOnly := true }))
/-- R298, R300, R305: a frame carries its FSEQ and carrier, and its header fits its check. -/
theorem test_frame_start : carSends 0 (line { car with fseq := 2 ^ 48 - 1, probeOnly := true }) = true ∧
    next (exec (.frameStart 0) (line { car with fseq := 2 ^ 48 - 1, probeOnly := true })) (fun t => (getCar 0 t).fseq == 0) = true ∧
    frame0.length = 8192 ∧ headerFits (frame0.take 16) = true ∧ hdrFseq frame0 = 2 ^ 48 - 1 ∧ hdrCar frame0 = 0 := by decide +kernel
/-- R279: carrier 0 in Z4 with an Ethernet segment at the head of its port. -/
def bypass : State := setPicked 0 [{ seg := { segZero with kind := 4, data := [9, 8] } }] (line { car with mode := 5, runMode := 5 })
theorem test_z4_frame : (getCar 0 bypass).runMode = modeZ4 ∧ portOfCar 0 bypass = some 0 ∧ carInActive 0 bypass = true ∧
    (getPicked 0 bypass).map (fun x => (x.seg.kind, x.seg.data)) = [(kEth, [9, 8])] ∧
    next (exec (.frameStart 0) bypass) (fun t => t.sent.contains (.z4Frame 0 [9, 8])) = true := by decide +kernel
/-- R312: a candidate of the header, one that has been followed often enough but once, and one once more. -/
def hunting (fa : Nat) (cs : List AlignCand) : State := line { car with fa := fa, cands := cs }
theorem test_aligner : headerFits (frame0.take 16) = true ∧ getN O.FA_PRESYNC_N ready = 4 ∧ (getCar 0 (hunting 0 [])).raw % 4 = 0 ∧
    next (exec (.alignerWindow 0 65535 (frame0.take 16)) (hunting 0 [])) (fun t => (getCar 0 t).fa == 1
      && (getCar 0 t).cands == [⟨65535, 2 ^ 48 - 1, 2 ^ 48 - 1, 0, 1⟩]) = true ∧
    next (exec (.alignerWindow 0 65535 (frame0.take 16)) (hunting 1 [⟨65535, 5, 2 ^ 48 - 2, 0, 2⟩])) (fun t => (getCar 0 t).fa == 1
      && (getCar 0 t).cands.map (·.good) == [3]) = true ∧
    next (exec (.alignerWindow 0 65535 (frame0.take 16)) (hunting 1 [⟨65535, 5, 2 ^ 48 - 2, 0, 3⟩])) (fun t => (getCar 0 t).fa == 2
      && (getCar 0 t).expFseq == 5) = true := by decide +kernel
/-- A position in SYNC whose header is not the expected one, and one whose is. -/
theorem test_frame_received : headerGood { car with expFseq := 7 } (rxFrame frame0) = false ∧
    headerGood { car with expFseq := 2 ^ 48 - 1 } (rxFrame frame0) = true ∧ (rxFrame frame0).isData = false ∧
    natOfBE ((rxFrame frame0).ctrl.take 1) = 0 ∧
    next (exec (.frameReceived 0 ⟨frame0, []⟩ false) (line { car with expFseq := 7 })) (fun t => (getCar 0 t).badCount == 1 && (getCar 0 t).expFseq == 8
      && (getCar 0 t).ledger.badHdr == 1) = true ∧
    next (exec (.frameReceived 0 ⟨frame0, []⟩ false) (line { car with expFseq := 2 ^ 48 - 1 })) (fun t => (getCar 0 t).expFseq == 0
      && (getCar 0 t).ledger.probeRx == 1 && (getCar 0 t).lastGood == some (2 ^ 48 - 1)) = true := by decide +kernel
theorem test_ident : portOfCar 0 (line car) = some 0 ∧ portOfCar 3 (line car) = some 0 ∧ isPeer ⟨1, 0, 0, 0, 0x0F⟩ (line car) = true ∧
    isPeer ⟨1, 7, 0, 0, 0x0F⟩ (line car) = false ∧ getN (O.LP_FAR_ID + 0) (line car) ≠ farId ⟨1, 7, 0, 0, 0x0F⟩ ∧
    next (exec (.ident 0 ⟨1, 7, 0, 0, 0x0F⟩) (line car)) (fun t => has t 0x2021 (farId ⟨1, 7, 0, 0, 0x0F⟩)) = true := by decide +kernel
/-- R319, R329: a good block locks the third time, the sixteenth bad one unlocks. -/
theorem test_fec : next (exec (.losDeclare 0) (line car)) (fun t => bitOf (getCar 0 t).raw 0 && bitOf (getCar 0 t).raw 2 && (getCar 0 t).fa == 0) = true ∧
    next (exec (.lockLost 0) (line car)) (fun t => bitOf (getCar 0 t).raw 1 && !(getCar 0 t).fecLock) = true ∧
    next (exec (.fecBlock 0 ⟨[], [false, false]⟩ 3 1000) (line { car with fecLock := false, fecGood := 2 })) (fun t => (getCar 0 t).fecLock
      && has t 0x2202 4) = true ∧
    next (exec (.fecBlock 0 ⟨[], [true]⟩ 0 1000) (line { car with fecBad := 14 })) (fun t => (getCar 0 t).fecLock && (getCar 0 t).fecBad == 15) = true ∧
    next (exec (.fecBlock 0 ⟨[], [true]⟩ 0 1000) (line { car with fecBad := 15 })) (fun t => !(getCar 0 t).fecLock && has t 0x2201 0) = true ∧
    next (exec (.lockClear 0) (line { car with raw := 2 })) (fun t => !bitOf (getCar 0 t).raw 1) = true ∧
    next (exec (.degInterval 0) (line { car with fecCorr := 1, fecBits := 1024 })) (fun t => getN (O.FEC_PRE_BER + 0) t == 0x3A800000) = true := by
  decide +kernel
/-- R340 to R342: a loss due, an open range, a kept frame a report names, an entry past its time. -/
def port0 (p : LinePort) (x : Carrier) : State := setPort 0 p (line x)
theorem test_loss : next (exec (.lossReportRepeat 0) (port0 { lrDue := [{ carrier := 0, base := 5, count := 3, left := 2 }] } car)) (fun t =>
      (getPort 0 t).lrQ.map (fun r => (r.carrier, r.base, r.map, r.range)) == [(0, 5, 3, true)]) = true ∧
    next (exec (.openRangeRepeat 0) (port0 {} { car with openRange := some 9, reported := 4 })) (fun t => (getPort 0 t).lrQ == [⟨0, true, 9, 0⟩]) = true ∧
    bitOf (lpCarriers 0 (port0 {} car)) 0 = true ∧ carSends 0 (port0 {} car) = true ∧ lncUp 0 (port0 {} car) = true ∧
    bitOf (lpCarriers 0 (port0 {} car)) 7 = false ∧
    next (exec (.lossReport 0 ⟨0, false, 5, 1⟩) (port0 { kept := [{ carrier := 0, fseq := 5, clk := 0, segs := [⟨txseg.seg, false, false⟩] }] } car)) (fun t =>
      (getPort 0 t).kept.map (·.resent) == [true] && getN (O.LR_RX + 0) t == 1) = true ∧
    next (exec (.lossReport 0 ⟨7, false, 5, 1⟩) (port0 {} car)) (fun t => (getCar 0 t).ledger.clUnknown == 1) = true ∧
    next (exec (.resendHoldExpiry 0) (port0 { kept := [{ carrier := 0, fseq := 5, clk := 0, segs := [⟨txseg.seg, false, false⟩] }] } car)) (fun t =>
      (getPort 0 t).kept.length == 1) = true := by decide +kernel

/-! ### Line keys and cipher jobs -/

/-- A device secret and a peer key, so that LKEK exists. -/
def keyed (s : State) : State := setB O.LKEK_PEER (p384Bytes (some p384g)) { s with dev := { s.dev with secret := List.replicate 32 5#8 } }
/-- A record with a wrapped part, and the key records of transmit slot 1 of port 1 and of the cipher jobs of tenant 2: key bytes 0x11, salt
bytes 0x22. -/
def keyRec (use port slot id wrapped : Nat) : List Byte :=
  bytesLE 1 1 ++ bytesLE 1 use ++ bytesLE 1 port ++ bytesLE 1 (slot * 16) ++ bytesLE 4 id ++ bytesBE 56 wrapped
def recTx : List Byte := keyRec 0 1 1 0x01020304
  406577986155150679262526912079122919501918679020446287670502017951942976573124365869967660415014210707237957428262164538373110176073415
def recJob : List Byte := keyRec 2 2 0 5
  282432880714475088943405555217033947415269078140306896845467346347957893927441849770400005637945587014579388175063804819987431452145373
def txKey : KeyRec := ⟨0, 1, 1, 0, 0x01020304, List.replicate 32 0x11, List.replicate 4 0x22⟩
def jobKey : KeyRec := ⟨2, 2, 0, 0, 5, List.replicate 32 0x11, List.replicate 4 0x22⟩
theorem test_key_load : ownCheck 8 O.KEY_LOAD (.bytes recTx) (keyed ready) = 0 ∧ keyLoadServed (keyed ready) = true ∧ recTx.length = 64 ∧
    (openRecord recTx (keyed ready)).toOption = some txKey ∧ keyLoadReason recTx (keyed ready) = 0 ∧
    (targetSlot txKey (keyed ready)).kstate < 2 ∧ keyLoadReason recJob (keyed ready) = 2 ∧
    next (exec (.keyLoad ⟨8, recTx⟩) (keyed ready)) (fun t => (getPort 1 t).tx1.kstate == 1 && (getPort 1 t).tx1.key == txKey.key) = true ∧
    next (exec (.keyLoad ⟨8, recJob⟩) (keyed ready)) (fun t => has t 0x2801 (5 * 2 ^ 32 + 2)) = true := by decide +kernel
/-- Port 0 whose transmit slot 0 is CURRENT and slot 1 in a state. -/
def slots (st : Nat) : LinePort := { tx0 := ⟨3, 7, txKey.key, txKey.salt⟩, tx1 := ⟨st, 8, txKey.key, txKey.salt⟩, changeTo := 1 }
theorem test_change : let p := slots 1
    (p.txSlot (nextTx p)).kstate = 1 ∧ procUp 0 (port0 p car) = true ∧ ownCheck 8 O.KEY_CMD (.num 256) (port0 p car) = 0 ∧
    ownCheck 8 O.KEY_CMD (.num 512) (port0 p car) = 0 ∧ getN O.KEY_AUTO (setN O.KEY_AUTO 1 (port0 p car)) = 1 ∧ p.curTx.isSome ∧
    p.changeDue = false ∧ announcing (slots 2) = true ∧ portLnc 0 (port0 (slots 2) car) = true ∧
    next (exec (.changeNow 8 0) (port0 p car)) (fun t => (getPort 0 t).tx1.kstate == 2 && (getPort 0 t).kcQ == [⟨1, 1, 8, 0, 0⟩]) = true ∧
    next (exec (.keyChangeRetry 0) (port0 { p with changeDue := true } car)) (fun t => (getPort 0 t).tx1.kstate == 2) = true ∧
    next (exec (.keyChangeDue 0) (setN O.KEY_AUTO 1 (port0 p car))) (fun t => (getPort 0 t).tx1.kstate == 2 && (getPort 0 t).changeDue) = true ∧
    next (exec (.eraseNext 8 0) (port0 p car)) (fun t => (getPort 0 t).tx1.kstate == 0 && (getPort 0 t).tx0.kstate == 3) = true ∧
    next (exec (.announceTimeout 0) (port0 (slots 2) car)) (fun t => (getPort 0 t).tx1.kstate == 1 && has t 0x2804 0) = true := by decide +kernel
def rxWith (st : Nat) : State := port0 { rx0 := ⟨st, 8, txKey.key, txKey.salt⟩ } car
def kmsg (ty k st : Nat) : KeyMsg := ⟨ty, k, 8, 0, st⟩
def said (o : Host.Outcome State Fault Refusal) (ty st : Nat) : Bool := next o fun t => (getPort 0 t).kcQ.map (fun m => (m.kcType, m.status)) == [(ty, st)]
theorem test_announce : portOfCar 0 (rxWith 1) = some 0 ∧ portLnc 0 (rxWith 1) = true ∧
    said (exec (.announce 0 (kmsg 1 0 0)) (rxWith 0)) 3 1 = true ∧ said (exec (.announce 0 (kmsg 1 0 0)) (rxWith 4)) 3 3 = true ∧
    said (exec (.announce 0 ⟨1, 0, 9, 0, 0⟩) (rxWith 1)) 3 2 = true ∧ said (exec (.announce 0 (kmsg 1 0 0)) (rxWith 1)) 2 0 = true ∧
    said (exec (.announce 0 (kmsg 1 0 0)) (rxWith 3)) 2 0 = true := by decide +kernel
theorem test_answers : let s := port0 (slots 2) car
    answersChange 0 (kmsg 2 1 0) s = true ∧
    next (exec (.ack 0 (kmsg 2 1 0)) s) (fun t => (getPort 0 t).kcQ.length == 3 && (getPort 0 t).toSwitch == [0]) = true ∧
    next (exec (.nack 0 (kmsg 3 1 3)) s) (fun t => (getPort 0 t).tx1.kstate == 1 && has t 0x2804 3) = true ∧
    next (exec (.boundary 0 (kmsg 4 1 0)) s) (fun t => (getCar 0 t).ledger.clMsgsRx == 1) = true := by decide +kernel
theorem test_switch : let s := port0 { slots 2 with switchAt := 5 } car
    switching { slots 2 with switchAt := 5 } = true ∧ (∀ c ∈ ({ slots 2 with switchAt := 5 } : LinePort).toSwitch, carSends c s = false) ∧
    (slots 2).changeTo ≤ 1 ∧
    next (exec (.keySwitchT 0) s) (fun t => (getPort 0 t).tx1.kstate == 3 && (getPort 0 t).tx0.kstate == 0 && has t 0x2802 8) = true ∧
    next (exec (.keyOverlapExpiry 0) (rxWith 4)) (fun t => (getPort 0 t).rx0.kstate == 0 && has t 0x2805 8) = true ∧
    next (exec (.keyOverlapExpiry 0) (port0 { rx1 := ⟨4, 8, [], []⟩ } car)) (fun t => (getPort 0 t).rx1.kstate == 0) = true := by decide +kernel
/-- A job over host addresses: 20 bytes of text and 4 of AAD, all zero; its ciphertext and tag. -/
def cipherRec (op : Nat) : List Byte := bytesLE 1 op ++ bytesLE 1 1 ++ bytesLE 2 4 ++ bytesLE 4 20 ++ List.replicate 16 0#8 ++
  bytesLE 8 0x100 ++ bytesLE 8 0x200 ++ bytesLE 8 0x300 ++ bytesLE 8 0x400 ++ bytesLE 8 0x500
def cipherText : List Byte := gcmCrypt txKey.key (List.replicate 12 0) (List.replicate 20 0)
def cipherTag : List Byte := gcmTag txKey.key (List.replicate 12 0) (List.replicate 4 0) cipherText
def cipherIn (text tag : List Byte) : CipherData := { key := recJob, aad := List.replicate 4 0, text := text, tag := tag, ok := true }
def mayCipher : State := host 1 (keyed ready)
/-- What a cipher job needs so that the engines take it. -/
def jobOk (op : Nat) (d : CipherData) : Bool := mayConsume 1 src4 mayCipher && !poolsHeld mayCipher &&
  cipherParamsOk (srcTenant src4 mayCipher) op (cipherJob (cipherRec op)) mayCipher && d.ok &&
  decide ((cipherKey (srcTenant src4 mayCipher) (cipherReads (cipherJob (cipherRec op)) d mayCipher).key mayCipher).toOption = some jobKey)
theorem takesJob (op : Nat) (d : CipherData) (h : jobOk op d = true) : mayCipher.takesCipher op src4 (cipherRec op) d jobKey := by
  simp only [jobOk, Bool.and_eq_true, decide_eq_true_eq, Bool.not_eq_true'] at h
  refine ⟨⟨h.1.1.1.1, by decide, h.1.1.1.2, (fun e he => absurd (show e ∈ ([] : List (JobSrc × List Nat)) from he) (by simp))⟩, h.1.1.2, fun _ => h.1.2, ?_⟩
  have h4 := h.2
  generalize cipherKey _ _ _ = x at h4 ⊢
  cases x with
  | error e => simp [Except.toOption] at h4
  | ok k => simp [Except.toOption] at h4; rw [h4]
theorem test_job_forms : (∀ op : Fin 4, bitOf (cipherJob (cipherRec op.val)).flags 0 = true ∧ (cipherJob (cipherRec op.val)).textLen ≠ 0) := by
  decide +kernel
theorem ok_encrypt : jobOk 1 (cipherIn (List.replicate 20 0) []) = true := by decide +kernel
theorem ok_decrypt : jobOk 2 (cipherIn cipherText cipherTag) = true := by decide +kernel
theorem ok_decrypt_bad : jobOk 2 (cipherIn cipherText []) = true := by decide +kernel
theorem ok_check : jobOk 3 (cipherIn cipherText cipherTag) = true := by decide +kernel
theorem test_encrypt : mayCipher.takesCipher 1 src4 (cipherRec 1) (cipherIn (List.replicate 20 0) []) jobKey := takesJob 1 _ ok_encrypt
theorem test_decrypt : mayCipher.takesCipher 2 src4 (cipherRec 2) (cipherIn cipherText cipherTag) jobKey ∧
    mayCipher.takesCipher 2 src4 (cipherRec 2) (cipherIn cipherText []) jobKey := ⟨takesJob 2 _ ok_decrypt, takesJob 2 _ ok_decrypt_bad⟩
theorem test_tag_check : mayCipher.takesCipher 3 src4 (cipherRec 3) (cipherIn cipherText cipherTag) jobKey := takesJob 3 _ ok_check
/-- The status byte of the job's completion entry. -/
def jobSt (o : Host.Outcome State Fault Refusal) (st : Byte) : Bool := next o fun t => t.host.done.map (fun e => e.bytes.getD 4 0xFF) == [st]
theorem test_cipher_results : jobSt (exec (.encrypt src4 (cipherRec 1) (cipherIn (List.replicate 20 0) [])) mayCipher) 0 = true ∧
    jobSt (exec (.decrypt src4 (cipherRec 2) (cipherIn cipherText cipherTag)) mayCipher) 0 = true ∧
    jobSt (exec (.decrypt src4 (cipherRec 2) (cipherIn cipherText [])) mayCipher) 0x10 = true ∧
    jobSt (exec (.tagCheck src4 (cipherRec 3) (cipherIn cipherText [])) mayCipher) 0x10 = true := by decide +kernel

/-! ### Carriers, lasers and margins -/

def laserRead : LaserRead := ⟨9, 1, 500, 40, 100, 7⟩
def module1 : ModuleRead := ⟨0x4C4D, 1, 10, 2 ^ 9, 1, [laserRead]⟩
theorem test_module : module1.id = 0x4C4D ∧ module1.ver = 1 ∧ bitOf module1.status 1 = false ∧ bitOf module1.status 2 = false ∧
    bitOf module1.int laserRead.pos = true ∧ laserRead.pos < 10 ∧ bitOf laserRead.stat 2 = false ∧ bitOf laserRead.stat 3 = false ∧
    ready.line.lmFault = false ∧
    next (exec (.laserInt module1) ready) (fun t => (getLaser 9 t).power == 500 && getN O.LM_IDENT t == 0x4C4D010A) = true ∧
    next (exec (.laserInt { module1 with id := 0 }) ready) (fun t => t.line.lmFault && t.line.laserShutLow && has t 0x2044 1) = true ∧
    next (exec .laserModuleSilent ready) (fun t => has t 0x2044 0) = true ∧
    next (exec (.i2cRetry none) ready) (fun t => getN O.LM_I2C_ERRS t == 2) = true := by decide +kernel
theorem test_locking : let s := line { car with cstate := .tuning, locked := false }
    (getCar 0 s).cstate = .tuning ∧ (getCar 0 s).laserMove = 0 ∧
    next (exec (.lmTuneExpiry 0) s) (fun t => (getCar 0 t).downCause == 1) = true ∧
    next (exec (.lockTimeout 0) (line { car with cstate := .locking, locked := false })) (fun t => (getCar 0 t).downCause == 2) = true ∧
    next (exec (.acquireTimeout 0) (line { car with cstate := .acquiring, raw := 1 })) (fun t => has t 0x2002 6) = true ∧
    carEnabled 0 (setN (carKey 0 1) 1 (line { car with cstate := .down })) = true ∧ mayLight (setN (carKey 0 1) 1 (line { car with cstate := .down })) = true ∧
    next (exec (.downRetry 0) (setN (carKey 0 1) 1 (line { car with cstate := .down }))) (fun t => (getCar 0 t).cstate == .tuning) = true ∧
    lncUp 0 (line car) = true ∧ next (exec (.lfFineSteer 0) (line car)) (fun t => t.freeCtr == 1) = true := by decide +kernel
def locking (run : Nat) : State := line { car with cstate := .locking, locked := false, lockRun := run }
theorem test_locker : wrongOrder true 2500 = false ∧ wrongOrder true (-2500) = false ∧ lockNeeds car = 1000 ∧
    next (exec (.lockerSample 0 50 true 2500) (locking 998)) (fun t => (getCar 0 t).lockRun == 999 && (getCar 0 t).cstate == .locking) = true ∧
    next (exec (.lockerSample 0 (-50) true (-2500)) (locking 999)) (fun t => (getCar 0 t).cstate == .acquiring && !(getCar 0 t).shutter) = true ∧
    next (exec (.lockerSample 0 200 true 0) (line car)) (fun t => (getCar 0 t).cstate == .active && (getCar 0 t).freqErr == 200) = true ∧
    next (exec (.lockerSample 0 201 true 0) (line car)) (fun t => (getCar 0 t).shutter && bitOf (getCar 0 t).raw 1) = true ∧
    next (exec (.lockerSample 0 0 false 9) (line car)) (fun t => (getCar 0 t).cstate == .shuttered && has t 0x2004 9) = true ∧
    next (exec (.lockerSample 0 0 true 0) (line { car with cstate := .shuttered })) (fun t => (getCar 0 t).cstate == .tuning) = true := by
  decide +kernel
/-- Carrier 0 in PROBING, all modes configured, this end at site 0; its partner at site 9 leads not, at site 0 it does. -/
def probing (x : MarginTest) (me far : Nat) (round : Nat := 0) : State :=
  objs [(carKey 0 4, 0x1E), (O.SITE_ID, me)] (line { car with
    cstate := .probing, mode := 0, runMode := 1, round := round, test := x, berSum := 2 ^ 86, berN := 1, ident := some ⟨far, 0, 0, 0, 0x0F⟩ })
def mmsg (ty mode modes round : Nat) : MarginMsg := ⟨ty, round, mode, modes, 0, 0, 300, true, false⟩
theorem test_margin_messages : let s := probing {} 3 5
    lncUp 0 s = true ∧ (getCar 0 s).cstate = .probing ∧ ({} : MarginTest).lastFar = none ∧ Nat.land (sentModes 0 s) 2 ≠ 0 ∧
    Nat.land (sentModes 0 s) 1 = 0 ∧ leads 0 s = true ∧ leads 0 (probing {} 7 5) = false ∧ bitOf (sentModes 0 s) 2 = true ∧
    next (exec (.marginSend 0) (probing { msg := some (mmsg 1 0 2 0) } 3 5)) (fun t => (getCar 0 t).test.msgDue) = true ∧
    next (exec (.offer 0 (mmsg 1 0 2 0)) s) (fun t => (getCar 0 t).test.farModes == some 2) = true ∧
    next (exec (.offer 0 (mmsg 1 0 1 0)) s) (fun t => (getCar 0 t).downCause == 3) = true ∧
    next (exec (.marginReport 0 (mmsg 2 1 2 0)) s) (fun t => (getCar 0 t).test.farRep == some (mmsg 2 1 2 0)) = true ∧
    next (exec (.set 0 (mmsg 3 2 6 1)) (probing {} 7 5)) (fun t => ((getCar 0 t).test.msg.map (·.mgType)) == some 4) = true ∧
    next (exec (.setAck 0 (mmsg 4 2 6 0)) (probing { setPending := true, setMode := 2 } 3 5 255)) (fun t => (getCar 0 t).runMode == 2
      && (getCar 0 t).round == 0) = true := by decide +kernel
theorem test_join : holdsKey 0 (setPort 0 (slots 1) (probing {} 3 5)) = true ∧ (mmsg 5 1 2 0).mode = 1 ∧
    next (exec (.join 0 (mmsg 5 1 2 0)) (setPort 0 (slots 1) (probing {} 3 5))) (fun t => (getCar 0 t).cstate == .active && (getCar 0 t).mode == 1) = true := by
  decide +kernel
theorem test_measurements : let s := probing {} 3 5
    acquiredNow (getCar 0 s) = true ∧ otherSlot 0 312 s = false ∧ otherSlot 0 313 s = true ∧ otherSlot 0 (-312) s = false ∧
    next (exec (.mgMeasEnd 0 1400 (-312) true) s) (fun t => ((getCar 0 t).test.ownRep.map (·.snr)) == some 1400
      && getI O.CAR_SNR_CDB t == 1400) = true ∧
    next (exec (.mgMeasEnd 0 1400 313 true) s) (fun t => has t 0x2008 0) = true ∧
    next (exec (.mgVerifyEnd 0 1400) (probing { verify := true } 3 5)) (fun t => ((getCar 0 t).test.ownRep.map (·.verify)) == some true) = true ∧
    next (exec (.mgAcqTimeout 0) (modCar 0 (fun x => { x with fa := 0, runMode := 3 }) (probing {} 3 5 1))) (fun t => (getCar 0 t).runMode == 2
      && bitOf (getCar 0 t).test.excluded 3) = true ∧
    next (exec (.qmarginUpdate 0 1500) (line { car with berSum := 2 ^ 86, berN := 1 })) (fun t => getI O.CAR_SNR_CDB t == 1500) = true := by decide +kernel
/-- A carrier that drains, the laser of position 8 settled for carrier 0. -/
def draining (n : Nat) : State := line { car with cstate := .draining, drainNext := n }
def lasers (xs : List (Nat × Laser)) (s : State) : State := xs.foldl (fun u x => setLaser x.1 x.2 u) s
theorem test_drains : (next (exec (.drainWaitExpiry 0) (draining 1)) fun t => (getCar 0 t).cstate == .locking) = true ∧
    (next (exec (.drainWaitExpiry 0) (draining 2)) fun t => (getCar 0 t).cstate == .tuning) = true ∧
    (next (exec (.drainWaitExpiry 0) (draining 3)) fun t => (getCar 0 t).cstate == .probing) = true ∧
    (next (exec (.drainWaitExpiry 0) (draining 4)) fun t => (getCar 0 t).cstate == .dark) = true ∧
    (getLaser (8 + 0 / 4) (lasers [(8, { stat := 1 })] (line { car with laserMove := 1 }))).tuned = true ∧ car.mode ≠ modeZ4 ∧
    next (exec (.spareSettle 0) (lasers [(8, { stat := 1 })] (line { car with laserMove := 1 }))) (fun t => (getCar 0 t).laserMove == 2
      && has t 0x2005 1) = true := by decide +kernel
theorem test_lasers : getI O.LASER_IN_MIN_CDBM (line car) ≤ 2000 ∧ -9000 < getI O.LASER_IN_MIN_CDBM (line car) ∧
    bitOf (getLaser 9 (line car)).stat 2 = false ∧ laserInUse 0 (line car) = true ∧ laserPos 0 (line car) = 0 ∧ lncUp 0 (line car) = true ∧
    next (exec (.laserFail 9 (-9000)) (line car)) (fun t => (getLaser 9 t).fault) = true ∧
    next (exec (.laserFail 9 2000) (line car)) (fun t => (getLaser 9 t).power == 2000) = true ∧
    next (exec (.laserTrendSample [⟨0, 1, 500, 40, 100, 7⟩]) (line car)) (fun t => (getLaser 0 t).samples == [(1, 500, 40)]) = true := by
  decide +kernel
def working : State := lasers [(0, { stat := 1, power := 3000 })] (line { car with spareIn := true })
theorem test_car_cmds : ownCheck 8 O.CAR_CMD (.num 0x100) (line car) = 0 ∧ ownCheck 8 O.CAR_CMD (.num 0x200) (line car) = 0 ∧
    ownCheck 8 O.CAR_CMD (.num 0x300) working = 0 ∧ spareUser 0 (line car) = none ∧ (getLaser 8 (line car)).fault = false ∧
    (getLaser 0 working).tuned = true ∧ getI O.LF_FLOOR_CDBM working ≤ (getLaser 0 working).power ∧
    next (exec (.retest 8 0) (line car)) (fun t => (getCar 0 t).drainNext == 3) = true ∧
    next (exec (.laserSpare 8 0) (line car)) (fun t => spareUser 0 t == some 0) = true ∧
    next (exec (.laserReturn 8 0) working) (fun t => (getCar 0 t).laserMove == 4) = true := by decide +kernel
theorem test_calibration : next (exec (.biasDither 0 10) (line car)) (fun t => t.dict.log == []) = true ∧
    next (exec (.biasDither 0 11) (line car)) (fun t => has t 0x2051 1) = true ∧
    next (exec (.launchPowerLoop 0 (50 + getI (carKey 0 5) (line car))) (line car)) (fun t => t.dict.log == []) = true ∧
    next (exec (.launchPowerLoop 0 (51 + getI (carKey 0 5) (line car))) (line car)) (fun t => has t 0x2051 2) = true ∧
    next (exec (.lockerCalCheck 0 (-50)) (line car)) (fun t => (getCar 0 t).lockerOff == 0) = true ∧
    next (exec (.lockerCalCheck 0 151) (line car)) (fun t => (getCar 0 t).lockerOff == -10 && has t 0x2051 3) = true := by decide +kernel

/-! ### Time -/

def timing (xs : List (Nat × Nat)) : State := objs xs ready
/-- 1PPS qualified and first in TS_SRC_PRIO, its last pulse `err` away. -/
def pps (st : Nat) (err : Int) (n : Nat := 0) : State :=
  let s := objs [(O.TIME_STATE, st), (O.TS_SRC_PRIO, 0x10), (O.TS_PPS_EN, 1), (O.TIME_SRC, 0x10)] ready
  { s with time := { s.time with ppsEdges := [2500000000, 1250000000, 0], ppsTodSet := true, ppsErr := err, clocks := 2500000000, holdN := n } }
theorem test_pps_source : srcSelect (pps 1 0) = 0x10 ∧ srcError 0x10 (pps 1 7) = 7 ∧ srcSelect ready = 0 ∧ procUp 4 (pps 1 0) = true ∧
    procUp 4 State.reset = false := by decide +kernel
theorem test_servo : next (exec .servoUpdate ready) (fun t => getN O.TIME_STATE t == 0) = true ∧
    next (exec .servoUpdate (pps 0 0)) (fun t => getN O.TIME_STATE t == 1) = true ∧
    next (exec .servoUpdate (timing [(O.TIME_STATE, 1)])) (fun t => getN O.TIME_STATE t == 0 && getN O.TIME_ERR_EST_NS t == 0xFFFFFFFF) = true ∧
    next (exec .servoUpdate (timing [(O.TIME_STATE, 2), (O.TIME_SRC, 0x10)])) (fun t => getN O.TIME_STATE t == 3 && has t 0x6001 0x203
      && has t 0x6002 0) = true ∧
    next (exec .servoUpdate (timing [(O.TIME_STATE, 3)])) (fun t => getN O.TIME_STATE t == 3) = true := by decide +kernel
/-- LOCKED whose error is ten times TS_LOCK_NS, the most that keeps it; HOLDOVER whose source has returned. -/
def lockLim : Int := nsUnits (getN O.TS_LOCK_NS ready)
theorem test_servo_locked : getN O.TS_LOCK_NS ready ≠ 0 ∧ adjMean (pps 2 (10 * lockLim)) = 0 ∧ -adjMax ≤ 0 ∧
    (((pps 2 (10 * lockLim)).time.ppsErr.natAbs : Int) ≤ 10 * nsUnits (getN O.TS_LOCK_NS (pps 2 (10 * lockLim)))) ∧
    nsUnits (getN O.TS_STEP_NS ready) < (lockLim + nsUnits (getN O.TS_STEP_NS ready)).natAbs ∧
    next (exec .servoUpdate (pps 1 (lockLim + nsUnits (getN O.TS_STEP_NS ready)))) (fun t => getN O.TB_STEP_GEN t == 1) = true := by
  decide +kernel
theorem test_second : (getCar 0 ready).records = [] ∧ getN O.LEDGER_TICK ready < timeSec { ready with time := { ready.time with base := 65536 * 1000000000 } } ∧
    (getCg 0x60 ready).cgState ≠ 2 ∧ (getCg 0x60 (setCg 0x60 { cgState := 2, owner := 0 } ready)).cgState = 2 ∧
    next (exec .secondTick { ready with time := { ready.time with base := 65536 * 1000000000 } }) (fun t => getN O.LEDGER_TICK t == 1
      && (getCar 7 t).records.length == 1 && t.sent.contains .ppsOut) = true ∧
    next (exec .secondTick (setCg 0x60 { cgState := 2, owner := 0 } ready)) (fun t => (getCg 0x60 t).cgState == 0) = true := by decide +kernel
theorem test_ts_set : ownCheck 8 O.TS_SET (.num (5 * 2 ^ 32 + 999999999)) ready = 0 ∧ getN O.TIME_SRC ready = 0 ∧
    ownCheck 8 O.TS_SET (.num 0) (timing [(O.TIME_SRC, 0x10)]) = 0 ∧
    next (exec (.tsSet ⟨8, 5 * 2 ^ 32 + 999999999⟩) ready) (fun t => timeBase t == 5999999999 * 65536 && getN O.TB_STEP_GEN t == 1) = true ∧
    next (exec .ref10mPresent ready) (fun t => bitOf (getN O.TIME_FLAGS t) 11) = true ∧
    bitOf (getN O.TIME_FLAGS (timing [(O.TIME_FLAGS, 2048)])) 11 = true ∧ bitOf (getN O.EMERG_FLAGS ready) 10 = false ∧
    next (exec .ref10mLost (timing [(O.TIME_FLAGS, 2048)])) (fun t => has t 0x6004 1) = true ∧
    next (exec .ppsPulse (pps 2 0)) (fun t => t.time.ppsEdges.length == 3 && getN O.TS_PPS_TOD t == 1) = true := by decide +kernel
/-- Carrier 0 with two samples of the window; with a held delay step; measuring. -/
def tt (x : TtCarrier) (xs : List (Nat × Nat) := []) : State := objs xs (line { car with tt := x })
theorem test_window : ({ n := 2, sumF := 2 * 65536 * 7, sumR := 2 * 65536 * 3, sumRtt := 2 * 65536 * 10 } : TtCarrier).n ≠ 0 ∧
    next (exec .ttWindow (tt { n := 2, sumF := 2 * 65536 * 7, sumR := 2 * 65536 * 3, sumRtt := 2 * 65536 * 10 })) (fun t =>
      getN (O.TT_RTT_PS + 0) t == 10000 && getN (O.TT_OFS_PS + 0) t == 2000 && getN (O.TT_SAMPLES + 0) t == 2) = true := by decide +kernel
def calOk : List (Nat × Nat) := [(O.TIME_STATE, 2), (O.TIME_SRC, 0x10)]
theorem test_settle_and_cal : next (exec (.delaySettleExpiry 0) (tt { held := true, pendingRefs := [(1, 2, 3)] })) (fun t => has t 0x6012 0
      && (getCar 0 t).tt.refs == [(1, 2, 3)]) = true ∧
    calAllowed false 0 (tt { calOn := true, calSum := 65536 * 1000000, calN := 1000000 } calOk) = true ∧
    meanPs (65536 * 1000000) 1000000 = 1000 ∧
    next (exec (.calibrationEnd 0) (tt { calOn := true, calSum := 65536 * 1000000, calN := 1000000 } calOk)) (fun t =>
      getI (O.TT_ASYM_PS + 0) t == 1000 && has t 0x6020 1000) = true ∧
    next (exec (.calibrationEnd 0) (tt { calOn := true, calN := 999999 } calOk)) (fun t => has t 0x6021 2) = true := by decide +kernel
theorem test_cal_cmds : (∀ w : Fin 2, (ownCheck 8 O.TT_CAL_CMD (.num (calCode 1 (w.val == 1) 0)) (tt {} calOk) = 0 ∧
      ownCheck 8 O.TT_CAL_CMD (.num (calCode 2 (w.val == 1) 0)) (tt {} calOk) = 0 ∧ ownCheck 8 O.TT_CAL_CMD (.num (calCode 3 (w.val == 1) 0)) (tt {} calOk) = 0 ∧
      calAllowed (w.val == 1) 0 (tt {} calOk) = true ∧ calAllowed (w.val == 1) 0 (tt {}) = false)) ∧
    calTargets true 0 (tt {}) = [0, 1, 2, 3] ∧
    next (exec (.calibrate 8 true 0) (tt {} calOk)) (fun t => (getCar 3 t).tt.calOn) = true ∧
    next (exec (.calibrate 8 true 0) (tt {})) (fun t => has t 0x6021 (3 * 2 ^ 56 + 1)) = true ∧
    next (exec (.asymClear 8 false 0) (tt {} [(O.TT_ASYM_PS, 5)])) (fun t => getN O.TT_ASYM_PS t == 0) = true ∧
    next (exec (.accept 8 false 0) (tt { lastStep := (9, 4) } [(O.TT_ASYM_PS, 5)])) (fun t => getI O.TT_ASYM_PS t == 10) = true ∧
    ownCheck 8 (O.TT_ASYM_PS + 7) (.num 77) ready = 0 ∧
    next (exec (.ttAsymPs 7 ⟨8, 77⟩) ready) (fun t => getN (O.TT_ASYM_PS + 7) t == 77 && getN (O.TT_ASYM_STATE + 7) t == 1) = true := by
  decide +kernel
/-- What has left, or waits for its fabric port. -/
def outs (t : State) : List Sent := t.sent ++ t.fabWait.map (·.msg)
def ptp (p : PtpPort) (master : Nat) : State := setPtp 15 p (timing [(O.PTP_PORTS, 2 ^ 15), (O.PTP_MASTER, master)])
theorem test_ptp : let d := getN O.PTP_DOMAIN ready
    bitOf (getN O.PTP_PORTS (ptp {} 0)) 15 = true ∧ bitOf (getN O.PTP_MASTER (ptp {} 0)) 15 = false ∧ procUp 4 (ptp {} 0) = true ∧
    bitOf (getN O.PTP_MASTER (ptp {} (2 ^ 15))) 15 = true ∧
    next (exec (.ptpMessage 15 d (.delayReq 9)) (ptp {} (2 ^ 15))) (fun t => outs t == [.ptpSend 15 (.delayResp 9 0)]) = true ∧
    next (exec (.ptpMessage 15 d (.announce 3 6)) (ptp { slave := true, rank := 3 } 0)) (fun t => (getPtp 15 t).clockClass == 6) = true ∧
    next (exec (.ptpMessage 15 d (.sync 100 false)) (ptp { slave := true, delay := 30 } 0)) (fun t => (getPtp 15 t).offset == some (-130)
      && outs t == [.ptpSend 15 (.delayReq 15)]) = true ∧
    next (exec (.ptpMessage 15 d (.delayResp 15 50)) (ptp { slave := true, t1 := some 0, t2 := 30, t3 := 40 } 0)) (fun t =>
      (getPtp 15 t).delay == 20 && (getPtp 15 t).offset == some 10) = true := by decide +kernel

/-! ### The crier and protection -/

/-- The gateway at a place of a board group of nine, all links up. -/
def bg (place : Nat) (xs : List (Nat × Nat) := []) : State :=
  let s := objs xs (objs ((O.BG_MEMBER_MASK, 0x1FF) :: (O.BG_PLACE, place) :: (O.BG_GROUP_ID, 7) :: (O.CR_STATE, 1)
    :: (List.range 8).map fun i => (O.BL_STATUS + i, 2)) ready)
  { s with crier := { s.crier with active := true } }
def hb (from_ : State) : BitVec 64 := BitVec.ofNat 64 (heartbeatWord 5 from_)
def served (s : State) : State := { s with crier := { s.crier with served := true } }
theorem test_heartbeat : crierRuns (bg 1) = true ∧ crierLink 1 (bg 1) = true ∧ linkPlace 1 (bg 1) = 2 ∧ linkPlace 7 (bg 1) = 8 ∧
    crc8 (bytesBE 7 ((hb (bg 2)).toNat / 256)) = (hb (bg 2)).toNat % 256 ∧ field (hb (bg 2)).toNat 63 48 = 7 ∧ field (hb (bg 2)).toNat 47 44 = 2 ∧
    bitOf (hb { bg 2 with devState := .safe }).toNat 15 = true ∧ suspected 2 (bg 1) = false ∧ suspected 2 (bg 1 [(O.CR_SUSPECT, 4)]) = true ∧
    next (exec .heartbeatSend (bg 1)) (fun t => t.sent.length == 8) = true ∧
    next (exec (.heartbeat 1 (hb { bg 2 with devState := .safe })) (bg 1)) (fun t => has t 0x8801 0x202) = true ∧
    next (exec (.heartbeat 1 (hb (bg 2))) (bg 1 [(O.CR_SUSPECT, 4)])) (fun t => has t 0x8802 0x200 && getN O.CR_SUSPECT t == 0) = true ∧
    next (exec (.heartbeat 1 (hb (bg 3))) (bg 1)) (fun t => getN (O.CR_HB_MISSED + 1) t == 1) = true := by decide +kernel
theorem test_displaced : let w := hb (bg 8 [(O.CR_ADOPTED_PLACE, 1)])
    bitOf w.toNat 15 = false ∧ field w.toNat 43 40 = getN O.BG_PLACE (bg 1) ∧ getN O.CR_STATE (bg 1) = 1 ∧ (bg 1).devState = .ready ∧
    crc8 (bytesBE 7 (w.toNat / 256)) = w.toNat % 256 ∧ field w.toNat 47 44 = 8 ∧
    next (exec (.heartbeat 7 w) (bg 1)) (fun t => getN O.CR_STATE t == 5 && has t 0x8806 1) = true := by decide +kernel
theorem test_missed : fitted 8 (bg 1) = true ∧ linkOf 8 (bg 1) = some 7 ∧ fitted 2 (bg 1) = true ∧ linkOf 2 (bg 1) = some 1 ∧
    fitted 8 (bg 1 [(O.BG_MEMBER_MASK, 0xFF)]) = false ∧ crierRuns (bg 1 [(O.BG_MEMBER_MASK, 0xFF)]) = true ∧
    next (exec (.heartbeatMissExpiry 2) (bg 1)) (fun t => has t 0x8801 0x201 && suspected 2 t) = true ∧
    next (exec (.heartbeatMissExpiry 8) (bg 1)) (fun t => suspected 8 t) = true ∧
    next (exec (.heartbeatMissExpiry 2) (bg 1 [(O.BG_MEMBER_MASK, 0xFF)])) (fun t => has t 0x8804 0x201) = true := by decide +kernel
theorem test_fence : guarded { bg 1 with devState := .service } = true ∧ bgMajority (bg 1) = 5 ∧ (otherMembers 0x1D (bg 1)).length = 4 ∧
    (otherMembers 0x3D (bg 1)).length = 5 ∧
    next (exec (.isolationFence 0x1D) { bg 1 with devState := .service }) (fun t => t.devState == .safe && has t 0x8805 1) = true ∧
    next (exec (.isolationFence 0x3D) { bg 1 with devState := .service }) (fun t => t.devState == .service) = true ∧
    getN (O.BL_STATUS + 0) (bg 1) = 2 ∧ getN (O.BL_STATUS + 0) (bg 1 [(O.BL_STATUS, 3)]) = 3 ∧ getN (O.BL_STATUS + 0) (bg 1 [(O.BL_STATUS, 1)]) < 2 ∧
    next (exec (.blLaneFail 0) (bg 1)) (fun t => getN O.BL_STATUS t == 3 && has t 0x8808 0) = true ∧
    next (exec (.blLaneFail 0) (bg 1 [(O.BL_STATUS, 3)])) (fun t => getN O.BL_STATUS t == 0) = true := by decide +kernel
/-- A crier message from place 2 to everyone. -/
def fromTwo (ty : Nat) (body : List Byte) : List Byte := crierFrame ty 0xF body (bg 2)
theorem test_crier_fits : crierBody 1 1 16 [] (bg 1) = none ∧ crierForMe (fromTwo 1 (suspectBody 3 1)) (bg 1) = true ∧
    crierBody 1 1 16 (fromTwo 1 (suspectBody 3 1)) (bg 1) = some (suspectBody 3 1) ∧
    crierBody 1 2 16 (fromTwo 2 (suspectBody 3 0)) (bg 1) = some (suspectBody 3 0) ∧
    crierBody 1 3 16 (fromTwo 3 (promoteBody 1 9)) (bg 1) = some (promoteBody 1 9) ∧
    crierBody 1 4 16 (fromTwo 4 [0, 0, 0, 0]) (bg 1) = some [0, 0, 0, 0] ∧
    crierBody 1 6 16 (fromTwo 6 (promoteBody 3 9)) (bg 1) = some (promoteBody 3 9) := by decide +kernel
theorem test_crier_msgs : next (exec (.suspect 1 (fromTwo 1 (suspectBody 3 1))) (bg 1)) (fun t => t.crier.suspectedBy == [(3, 4)]) = true ∧
    next (exec (.clear 1 (fromTwo 2 (suspectBody 3 0))) (bg 1)) (fun t => t.crier.suspectedBy == []) = true ∧
    next (exec (.promote 1 (fromTwo 3 (promoteBody 1 9))) (bg 1)) (fun t => t.devState == .safe && has t 0x8805 2) = true ∧
    next (exec (.promote 1 (fromTwo 3 (promoteBody 3 9))) (bg 1)) (fun t => t.crier.spareServes == some 3 && getN O.CR_PROMO_GEN t == 9) = true ∧
    next (exec (.fenced 1 (fromTwo 4 [0, 0, 0, 0])) (bg 1)) (fun t => t.crier.lastHb.length == 1) = true ∧
    next (exec (.withdraw 1 (fromTwo 6 (promoteBody 3 9))) (bg 1)) (fun t => getN O.CR_PROMO_GEN t == 9) = true ∧
    next (exec (.suspect 1 []) (bg 1)) (fun t => getN (O.CR_HB_MISSED + 1) t == 1) = true := by decide +kernel
theorem test_report : isSpareGw (bg 8) = true ∧ isSpareGw (bg 1) = false ∧ crierLink 2 (bg 8) = true ∧ (reportBody (bg 2)).length = 100 ∧
    crierForMe (crierFrame 5 8 (reportBody (bg 2)) (bg 2)) (bg 8) = true ∧
    crierBody 2 5 112 (crierFrame 5 8 (reportBody (bg 2)) (bg 2)) (bg 8) = some (reportBody (bg 2)) ∧ crierLink 7 (bg 1) = true ∧
    next (exec (.crierReport 2 (crierFrame 5 8 (reportBody (bg 2)) (bg 2))) (bg 8)) (fun t => t.crier.reports.length == 1) = true ∧
    next (exec .reportSend (bg 1)) (fun t => t.sent.length == 1) = true := by decide +kernel
/-- An item that sets TS_LOCK_NS, and half of it. -/
theorem test_profile : ownCheck 8 (O.PLACE_PROFILE + 3) (.bytes []) (bg 1) = 0 ∧ ownCheck 8 (O.PLACE_PROFILE + 3) (.bytes [1]) (bg 8) = 0 ∧
    profItems (1 / 8 + 1) [1] = none ∧ profileCheck 8 [] (bg 8) = 0 ∧
    next (exec (.placeProfile 3 ⟨8, []⟩) (bg 8)) (fun t => t.sent == [.writeAnswer 8 (O.PLACE_PROFILE + 3) 0]) = true ∧
    next (exec (.placeProfile 3 ⟨8, []⟩) (bg 1)) (fun t => t.sent == [.writeAnswer 8 (O.PLACE_PROFILE + 3) 0x19]) = true ∧
    next (exec (.placeProfile 3 ⟨8, [1]⟩) (bg 8)) (fun t => t.sent == [.writeAnswer 8 (O.PLACE_PROFILE + 3) 0x13]) = true := by decide +kernel
/-- The spare, which suspects place 3 with `m` members beside it; place 3 did or did not serve. -/
def voting (m : Nat) (serving : Bool) (dev : DevState) : State :=
  let s := bg 8 [(O.CR_SUSPECT, 8), (O.CR_ADOPTED_PLACE, 0xFF)]
  { s with devState := dev, crier := { s.crier with suspectedBy := [(3, m)], lastHb := [(3, some ⟨3, 0, false, false, false, false, serving⟩)] } }
theorem test_votes : getN O.CR_ADOPTED_PLACE (voting 0x13 true .ready) = 0xFF ∧ suspected 3 (voting 0x13 true .ready) = true ∧
    suspecters 3 (voting 0x13 true .ready) + 1 < bgMajority (voting 0x13 true .ready) ∧
    bgMajority (voting 0x17 true .ready) ≤ suspecters 3 (voting 0x17 true .ready) + 1 ∧ 3 ≤ bgCount (voting 0x17 true .ready) ∧
    featActive 0 (voting 0x17 true .ready) = true ∧ getB (O.PLACE_PROFILE + 3) (voting 0x17 true .ready) = [] ∧
    crierLink 0 (voting 0x17 true .ready) = true ∧
    next (exec (.voteConfirmExpiry 3) (voting 0x13 true .ready)) (fun t => has t 0x8804 0x304) = true ∧
    next (exec (.voteConfirmExpiry 3) (voting 0x17 true .safe)) (fun t => has t 0x8804 0x306) = true ∧
    next (exec (.voteConfirmExpiry 3) (voting 0x17 false .ready)) (fun t => has t 0x8804 0x305) = true ∧
    next (exec (.voteConfirmExpiry 3) (voting 0x17 true .ready)) (fun t => getN O.CR_ADOPTED_PLACE t == 3 && t.crier.shufSel == 8
      && t.crier.waitingAck) = true := by decide +kernel
def acking : State := let s := bg 8 [(O.CR_ADOPTED_PLACE, 3), (O.LP_CARRIERS, 0x0F)]; { s with crier := { s.crier with waitingAck := true, shufSel := 8 } }
theorem test_shuf : acking.crier.waitingAck = true ∧ acking.crier.saved = [] ∧ (bg 8).crier.waitingAck = false ∧
    next (exec .shufAck acking) (fun t => t.devState == .service && getN O.SHUF_STATE t == 264 && t.crier.unacked.contains 0) = true ∧
    next (exec .shufAckTimeout acking) (fun t => has t 0x8821 3 && getN O.CR_ADOPTED_PLACE t == 0xFF) = true ∧
    getN O.CR_STATE (bg 8 [(O.CR_STATE, 3)]) = 3 ∧ getN O.CR_STATE (bg 8) ≠ 3 ∧
    next (exec .promotionRelease { bg 8 [(O.CR_STATE, 3)] with devState := .service }) (fun t => getN O.CR_STATE t == 2 && t.devState == .ready) = true := by
  decide +kernel
/-- The spare in service on port 0. -/
def adopted (logged : Bool) : State :=
  let s := setN O.CR_STATE 3 (line car)
  { s with crier := { s.crier with unacked := [0], promoLogged := logged }, os := { s.os with refilled := true } }
theorem test_promoted : portOfCar 0 (adopted true) = some 0 ∧ getN O.CR_STATE (adopted true) = 3 ∧ 0 ∈ (adopted true).crier.unacked ∧
    carSends 0 (adopted true) = true ∧ (getCar 0 (adopted true)).fa = 2 ∧ 0 ∉ (line car).crier.unacked ∧
    next (exec (.promotedSend 0) (adopted true)) (fun t => (getCar 0 t).crierDue && t.dict.log == []) = true ∧
    next (exec (.promotedSend 0) (adopted false)) (fun t => (getCar 0 t).crierDue && t.crier.promoLogged && t.dict.log.length == 1) = true ∧
    next (exec (.promoted 0 ⟨1, 5, 0, 0, 9⟩) (setPort 0 { promotedTaken := some 9 } (line car))) (fun t => (getPort 0 t).crierQ.length == 3
      && t.dict.log == []) = true ∧
    next (exec (.promoted 0 ⟨1, 5, 0, 0, 9⟩) (line car)) (fun t => has t 0x8807 9) = true ∧
    next (exec (.promotedAck 0 ⟨2, 5, 0, 0, 9⟩) (adopted true)) (fun t => t.crier.unacked == []) = true := by decide +kernel
def paired : State := objs [(O.PROT_PAIR, 1), (O.PROT_PAIR + 1, 0xFF), (O.PROT_PAIR + 2, 0xFF), (O.PROT_PAIR + 3, 0xFF)] (line car)
theorem test_prot_cmds : (∀ m : Fin 2, (ownCheck 8 O.PROT_CMD (.num (256 + 255 * m.val)) (line car) = 0 ∧
      ownCheck 8 O.PROT_CMD (.num (512 + 255 * m.val)) (line car) = 0)) ∧ pairOf 0 paired = some (0, 1) ∧ pairOf 3 paired = none ∧
    ownCheck 8 O.PROT_CMD (.num 768) paired = 0 ∧ ownCheck 8 O.PROT_CMD (.num 771) paired = 0 ∧ ownCheck 8 O.PROT_CMD (.num 1024) paired = 0 ∧
    ownCheck 8 O.PROT_CMD (.num 1027) paired = 0 ∧
    next (exec (.forceOut 8 255) (line car)) (fun t => (getPort 0 t).forced == 0x0F) = true ∧
    next (exec (.clearForce 8 1) (setPort 0 { forced := 0x0F } (line car))) (fun t => (getPort 0 t).forced == 0x0E) = true ∧
    next (exec (.lockout 8 0) paired) (fun t => (getPort 1 t).lockoutCmd && !(getPort 2 t).lockoutCmd) = true ∧
    next (exec (.lockout 8 3) paired) (fun t => t.sent == [.writeAnswer 8 O.PROT_CMD 0x14]) = true ∧
    next (exec (.clearLockout 8 0) (setPort 1 { lockoutCmd := true } paired)) (fun t => !(getPort 1 t).lockoutCmd) = true := by decide +kernel
def lone : State := setPort 3 { everActive := true } (line car)
theorem test_withdraw : (getPort 3 lone).withdrawn = false ∧ mayWithdraw 3 lone = true ∧ mayWithdraw 0 lone = false ∧
    next (exec (.wtrExpiry 0) (line { car with sfHold := true })) (fun t => !(getCar 0 t).sfHold) = true ∧
    next (exec (.portWithdrawExpiry 3) lone) (fun t => (getPort 3 t).withdrawn && has t 0x8812 (3 * 2 ^ 56 + 1)) = true := by decide +kernel

/-! ### The local fabric, RDMA, the management port and the host -/

/-- Ports 0 and 2 of octet modes 1, port 2 the failover partner of port 0; port 0 in a state, carrying its own identity. -/
def fab (st : Nat) (serving : Nat := 1) (other : Nat := 2) (held : Nat := 4) : State :=
  setFab 2 { lst := other, serving := held } (setFab 0 { lst := st, serving := serving }
    (objs ((List.range 8).map (fun i => (O.LF_OCTET_MODE + i, 1)) ++ (List.range 16).map (fun i => (O.LF_FAILOVER + i, if i = 0 then 2 else 255))) ready))
/-- Port 0 has a MAC and an IPv4 address. -/
def addressed (s : State) : State := objs [(O.LF_PORT_MAC, 9), (O.LF_PORT_IPV4, 0x0A000001 * 2 ^ 32 + 24)] s
/-- A CNP that waits for the data class of port 0. -/
def pausedOut : State :=
  let s := setFab 0 { getFab 0 (fab 2) with paused := 2 } (fab 2)
  { s with fabWait := [⟨0, false, 1, .cnp 9⟩] }
theorem test_fabric : fabExists 0 (fab 1) = true ∧ fabFenced 0 (fab 1) = false ∧ fabPartner 0 (fab 2) = some 2 ∧ fabPartner 2 (fab 2) = none ∧
    (getFab 2 (fab 2)).lst = 2 ∧ fabCarrier 0 (fab 2 0 2 5) = some 2 ∧
    next (exec (.portUp 0) (fab 1)) (fun t => (getFab 0 t).lst == 2 && has t 0x3001 0) = true ∧
    next (exec (.portBringupTimeout 0 1) (fab 3)) (fun t => has t 0x3002 1 && (getFab 0 t).retried) = true ∧
    next (exec (.portUp 0) (fab 4)) (fun t => (getFab 0 t).lst == 2) = true ∧
    next (exec (.portDown 0 ⟨0, 7⟩) (addressed (fab 2))) (fun t => (getFab 0 t).lst == 4 && (getFab 2 t).serving == 5 && (getFab 0 t).uncorr == 7
      && t.sent == [.arpAnnounce 2 9 0x0A000001]) = true ∧
    next (exec (.portDown 2 ⟨0, 0⟩) (fab 2)) (fun t => (getFab 2 t).lst == 3) = true ∧
    next (exec (.failback 0) (fab 2 0 2 5)) (fun t => (getFab 0 t).serving == 1 && (getFab 2 t).serving == 4) = true ∧
    next (exec (.pfcPause 0 1 true) (fab 2)) (fun t => (getFab 0 t).paused == 2) = true ∧
    next (exec (.pfcPause 0 1 false) pausedOut) (fun t => t.sent == [.cnp 9] && t.fabWait == []) = true := by decide +kernel
/-- Link 0 whose receive FIFO is full, between two messages; the words and both sides' sight of them. -/
def fullLink : State := setFifo 0x100 { words := List.replicate 64 (.make 16 1 false 64 false false), wr := 64, wrSeen := 64 } (bg 1)
theorem test_board_links : (getFifo 0x100 (bg 1)).atRest ∧ (getFifo 0x100 fullLink).writeLevel 64 = 64 ∧ (getFifo 0x100 fullLink).overrun = false ∧
    (getFifo 0x100 fullLink).wrMid = false ∧ (getFifo 0x100 fullLink).dropping = false ∧ linksRun (bg 1 [(O.BL_STATUS, 0)]) = true ∧ getN (O.BL_STATUS + 0) (bg 1 [(O.BL_STATUS, 0)]) < 2 ∧
    (bg 1).dev.bist.fenced.contains (62 + 0) = false ∧ 2 ≤ getN (O.BL_STATUS + 0) (bg 1) ∧ linkUsable 0 (bg 1) = true ∧
    next (exec (.boardLinkUp 0 7 0) (bg 1 [(O.BL_STATUS, 0)])) (fun t => getN O.BL_STATUS t == 2 && !bitOf (getN O.BL_PEER_FAULT t) 0) = true ∧
    next (exec (.boardLinkUp 0 7 1) (bg 1 [(O.BL_STATUS, 0)])) (fun t => has t 0x3050 0) = true ∧
    next (exec (.boardLinkDown 0) (bg 1)) (fun t => has t 0x3052 0) = true ∧
    next (exec (.blMsg 0 ⟨[5], []⟩ []) (bg 1)) (fun t => t.host.blMsgs == [(0, [5])]) = true ∧
    next (exec (.blMsg 0 ⟨[5], [0]⟩ []) (bg 1)) (fun t => t.host.blMsgs == []) = true ∧
    next (exec (.blMsg 0 ⟨[5], []⟩ (List.replicate 16 [])) fullLink) (fun t => t.host.blMsgs.isEmpty && getN O.BL_RX_OVERFLOW t == 1 && has t 0x5806 0) = true ∧
    ownCheck 8 O.BL_MSG_TX (.bytes [2, 9]) (bg 1) = 0 ∧ ownCheck 8 O.BL_MSG_TX (.bytes [2]) (bg 1) = 0 ∧ linkOf 2 (bg 1) = some 1 ∧
    fitted (linkPlace 1 (bg 1)) (bg 1) = true ∧ linkUsable 1 (bg 1) = true ∧
    next (exec (.blMsgTx ⟨8, [2, 9]⟩) (bg 1)) (fun t => t.sent == [.blMessage 1 [2, 9], .writeAnswer 8 O.BL_MSG_TX 0]) = true ∧
    next (exec (.blMsgTx ⟨8, [2]⟩) (bg 1)) (fun t => t.sent == [.writeAnswer 8 O.BL_MSG_TX 0x14]) = true := by
  unfold Fifo.atRest; decide +kernel
/-- A shard of one entry of 2 by 2, all windows open on port 0; a connected queue pair of a service. -/
def rdma (svc : Nat) : State :=
  let t := objs [(O.OS_MODE, 1), (O.LF_WIN_PORTS, 1)] (setB O.OS_TABLE table1 (fab 2))
  { t with host := { t.host with qps := if svc = 0 then [] else [(9, ⟨svc, 0, 1, 0, 0, 0, 0, none, 65536, none⟩)] } }
theorem test_cm : fabReached 0 (rdma 0) = true ∧ serviceOf 5 = 0 ∧ serviceOf 0x4E4C00000003 = 3 ∧ windowLen (rdma 0) = 8 ∧
    bitOf (getN O.LF_WIN_PORTS (rdma 0)) 0 = true ∧ featActive 5 (rdma 0) = true ∧ (newQpn 1 (rdma 0)).isSome ∧ (newQpn 3 (rdma 0)).isSome ∧
    newQpn 2 (rdma 0) = some (doorQpn (rdma 0)) ∧
    next (exec (.cmReq 0 5 1 ⟨0, 0, 0, 0⟩) (rdma 0)) (fun t => outs t == [.cmRej 0]) = true ∧
    next (exec (.cmReq 0 0x4E4C00000001 1 ⟨0, 0, 0, 0⟩) (rdma 0)) (fun t => t.host.qps.map (fun p => p.2.service) == [1]) = true ∧
    next (exec (.cmReq 0 0x4E4C00000003 1 ⟨0, 0, 0, 0⟩) (rdma 0)) (fun t => getN O.LF_QP_USED t == 1) = true := by decide +kernel
theorem test_rdma : (findQp 9 (rdma 1)).map (fun x => (x.service, fabReached x.port (rdma 1))) = some (1, true) ∧
    (findQp 9 (rdma 2)).map (·.service) = some 2 ∧ (findQp 9 (rdma 3)).map (·.service) = some 3 ∧
    findQp (getN O.LF_QPN_BASE (rdma 0) + 4095) (rdma 0) = none ∧
    next (exec (.rdmaWrite ⟨9, false⟩ 7 [7]) (rdma 1)) (fun t => outs t == [.rdmaAck 9] && memRead 7 1 t.os.window == [7]) = true ∧
    next (exec (.rdmaWrite ⟨9, true⟩ 7 [7, 8]) (rdma 1)) (fun t => outs t == [.cnp 9, .rdmaNak 9 nakAccess]) = true ∧
    next (exec (.rdmaWrite ⟨9, false⟩ 0 [7]) (rdma 3)) (fun t => outs t == [.rdmaAck 9]) = true ∧
    next (exec (.rdmaRead ⟨9, false⟩ 0 8) (rdma 1)) (fun t => outs t == [.rdmaReadData 9 (List.replicate 8 0#8)]) = true ∧
    next (exec (.rdmaRead ⟨9, false⟩ 1 8) (rdma 1)) (fun t => outs t == [.rdmaNak 9 nakAccess]) = true ∧
    next (exec (.rcAcknowledgement 9 true) { rdma 1 with os := { (rdma 1).os with retWaits := [9, 10] } }) (fun t => t.os.retWaits == [10]) = true ∧
    next (exec (.cnp 9) (rdma 2)) (fun t => (findQp 9 t).any (·.cnpClk == some 0)) = true ∧
    next (exec (.rdmaWrite ⟨getN O.LF_QPN_BASE (rdma 0) + 4095, false⟩ 0 [7]) (setN O.CR_STATE 3 (rdma 0))) (fun t =>
      getN O.LF_NAK_UNCONNECTED t == 1) = true := by decide +kernel
theorem test_mgmt : let s := objs [(O.MGMT_IP_FLAGS, 0), (O.MGMT_IPV4, 0x0A000001 * 2 ^ 32 + 24)] ready
    let d := setN O.MGMT_IP_FLAGS 3 ready
    mgmtServed s = true ∧ mgmtServed d = true ∧ mgmtHas false 0x0A000001 s = true ∧ bitOf (getN O.MGMT_IP_FLAGS d) 0 = true ∧
    bitOf (getN O.MGMT_IP_FLAGS d) 1 = true ∧
    next (exec (.mgmtArp 0x0A000001) s) (fun t => t.sent.length == 1) = true ∧
    next (exec (.mgmtIcmpEcho false 0x0A000001 [1]) s) (fun t => t.sent == [.mgmtEcho false 0x0A000001 [1]]) = true ∧
    next (exec (.dhcpv4Message 5 0x0A000002 24) d) (fun t => mgmtIpv4 t == 0x0A000002) = true ∧
    next (exec (.dhcpv4Message 6 0 0) d) (fun t => mgmtIpv4 t == 0) = true := by decide +kernel
/-- The link up; VF 0 of tenant 2. -/
def linked : State :=
  let s := setN O.HOST_LINK 0x510 ready
  { s with host := { s.host with vfTenant := [(0, some 2)] } }
def boxed (b : Mailbox) : State := setBox 8 b linked
def ringed (r : Ring) : State := setRing (ringKey 0xFF 31) r linked
theorem test_mailbox : fnLive 0xFF linked = true ∧ fnLive 0 linked = true ∧ fnSess 0xFF = 8 ∧ (getBox 8 (boxed { busy := true })).busy = true ∧
    next (exec (.mbDoorbell 255 16) linked) (fun t => (getBox 8 t).busy && (getBox 8 t).reqLen == 16) = true ∧
    next (exec (.mbDoorbell 255 4097) linked) (fun t => getN O.HOST_RING_ERRS t == 1) = true ∧
    next (exec (.mbDoorbell 255 4096) (boxed { busy := true })) (fun t => getN O.HOST_RING_ERRS t == 1) = true ∧
    next (exec (.respAck 255 1) (boxed { respReady := true })) (fun t => !(getBox 8 t).respReady) = true ∧
    next (exec (.noteAck 255 1) (boxed { noteReady := true })) (fun t => !(getBox 8 t).noteReady) = true := by decide +kernel
theorem test_rings : 31 < fnRings 255 ∧ 7 < fnRings 0 ∧ ringCtrlOk 255 (ringCtrlMask 255 0x61) = true ∧ bitOf (ringCtrlMask 255 0x61) 0 = true ∧
    ringCtrlOk 255 (ringCtrlMask 255 0x51) = false ∧ ({ ctrl := 0x61 } : Ring).on = true ∧ ({ ctrl := 0x61 } : Ring).size = 64 ∧
    next (exec (.ringCtrl 255 31 0x61) linked) (fun t => (getRing (ringKey 0xFF 31) t).ctrl == 0x61) = true ∧
    next (exec (.ringCtrl 255 31 0x51) linked) (fun t => getN O.HOST_RING_ERRS t == 1) = true ∧
    next (exec (.ringCtrl 255 31 0x71) (ringed { ctrl := 0x61 })) (fun t => getN O.HOST_RING_ERRS t == 1) = true ∧
    next (exec (.subTail 255 31 63) (ringed { ctrl := 0x61 })) (fun t => (getRing (ringKey 0xFF 31) t).subTail == 63) = true ∧
    next (exec (.compHead 255 31 64) (ringed { ctrl := 0x61 })) (fun t => getN O.HOST_RING_ERRS t == 1) = true ∧
    next (exec (.registerWrite 255 0x11F08 0x5000) linked) (fun t => (getRing (ringKey 0xFF 31) t).compBase == 0x5000) = true := by decide +kernel
def finished : State := { ringed { ctrl := 0x61, compTail := 5 } with host := { (ringed { ctrl := 0x61, compTail := 5 }).host with
  done := [⟨⟨0xFF, 31, 2⟩, [1, 2]⟩] } }
theorem test_completion : (finished.host.done.find? fun d => d.src.fn == 255 && d.src.ring == 31).isSome ∧
    (getRing (ringKey 255 31) finished).hasRoom = true ∧
    next (exec (.jobCompletion 255 31 none) finished) (fun t => t.host.done.length == 0 && (getRing (ringKey 255 31) t).compTail == 6) = true ∧
    getN O.HOST_LINK linked ≠ 0 ∧ (vfTenantOf 0 linked).isSome ∧
    next (exec (.functionLevelReset 0) linked) (fun t => has t 0x3802 0) = true ∧
    next (exec .pcieLinkLoss linked) (fun t => getN O.HOST_LINK t == 0 && has t 0x3801 0x510) = true ∧
    next (exec (.sriovVfEnable 64) linked) (fun t => getN O.HOST_NUM_VFS t == 64 && (vfTenantOf 63 t).isSome) = true ∧
    endpointUp ready = true ∧ endpointUp State.reset = false ∧
    next (exec (.pcieLinkUp 5 16) ready) (fun t => getN O.HOST_LINK t == 0x510) = true := by decide +kernel
/-- Rings of each kind, a crate of tenant 2, a host channel, a block of tallies of the PF. -/
def jobs (kind : Nat) : State :=
  let s := setCrate (mkHandle 4 0) { rstate := 1, refs := 1, tenant := 2 } (host kind (list1 (objs [(O.PORTER_HOST_CH, 1), (O.TALLY_QUOTA + 2, 65535)] ready)))
  { setTally 1024 { tstate := 1, tenant := 2, kind := 1, count := 5 } s with comp := { s.comp with
    blocks := [⟨1024, 16, 2, .host 0xFF⟩], tallies := (setTally 1024 { tstate := 1, tenant := 2, kind := 1, count := 5 } s).comp.tallies } }
theorem test_porter_job : mayConsume 2 src4 (jobs 2) = true ∧ srcTenant src4 (jobs 2) = 2 ∧
    (List.range 384).find? (fun c => hostChanFree c (jobs 2)) = some 0 ∧ operandReach 2 (mkHandle 3 0 * 2 ^ 32) 32 (jobs 2) = true ∧
    next (exec (.porterJobStart src4 false (mkHandle 3 0 * 2 ^ 32) true) (jobs 2)) (fun t => (getChan 0 t).job == some src4) = true ∧
    jobSt (exec (.porterJobStart src4 true 33 true) (jobs 2)) 0x12 = true := by decide +kernel
theorem test_tally_jobs : mayConsume 3 src4 (jobs 3) = true ∧ talliesThere (jobs 3) = true ∧
    (allocBlock (2 ^ 10) 2 0 1 (.host 0xFF) (entryTaken src4 1 (jobs 3))).1.isSome ∧ (hostBlock 2 1024 (jobs 3)).map (·.base) = some 1024 ∧
    hostBlock 2 5000 (jobs 3) = none ∧ (getTally 1024 (jobs 3)).tstate = 1 ∧ (getTally 1024 (jobs 3)).count = 5 ∧
    jobSt (exec (.tallyJobAlloc src4 11 true) (jobs 3)) 0x12 = true ∧ jobSt (exec (.tallyJobAlloc src4 10 true) (jobs 3)) 0 = true ∧
    jobSt (exec (.tallyJobFree src4 1024 true) (jobs 3)) 0 = true ∧ jobSt (exec (.tallyJobReset src4 5000 true) (jobs 3)) 0x12 = true ∧
    next (exec (.tallyJobAdd src4 1024 (2 ^ 32 - 6) true) (jobs 3)) (fun t => (getTally 1024 t).count == 2 ^ 32 - 1) = true ∧
    next (exec (.tallyJobReset src4 1024 true) (jobs 3)) (fun t => (getTally 1024 t).count == 0) = true := by decide +kernel
def placing : PlaceEntry := ⟨true, 1, 0xFFFFFFFF, 0x9000, listAt, true⟩
theorem test_place_job : mayConsume 4 src4 (jobs 4) = true ∧ takesNoWork (jobs 4) = false ∧ (findProgram 1 (jobs 4)).isSome ∧ isVendor 1 = true ∧
    (tenantList 2 listAt (jobs 4)).isSome ∧ tallyBaseOk 0xFFFFFFFF 2 (vendorProgram 1).tallies (jobs 4) = true ∧
    bitOf (vendorProgram 1).tenantMask 2 = true ∧
    next (exec (.placeJobStart src4 placing ⟨true, [1]⟩) (jobs 4)) (fun t => t.comp.placeQueue.length == 1 || !t.comp.placements.isEmpty) = true := by
  decide +kernel
def xfer (len : Nat) : XferEntry := ⟨true, false, 0, 1, 77, len, 0x9000, 1, 1, 5, true⟩
def xjobs : State := host 5 (setGroup 5 group5 ready)
theorem test_xfer_jobs : mayConsume 5 src4 xjobs = true ∧ getN O.PWR_STATE xjobs ≠ 2 ∧ (getGroup 5 xjobs).isOpen = true ∧
    (getGroup 5 xjobs).tenant = srcTenant src4 xjobs ∧ (getGroup 5 (host 5 ready)).isOpen = false ∧ mayConsume 5 src4 (host 5 ready) = true ∧
    xferEntryOk true (xfer 8) xjobs = true ∧ xferEntryOk true (xfer 7) xjobs = false ∧ xferEntryOk false (xfer 8) xjobs = true ∧
    xferEntryOk false (xfer 0) xjobs = false ∧ findXfer 2 1 77 xjobs = none ∧
    next (exec (.xferSend src4 (xfer 8) ⟨true, List.replicate 8 1⟩) xjobs) (fun t => t.host.xferOut.map (·.number) == [77]) = true ∧
    jobSt (exec (.xferSend src4 (xfer 7) ⟨true, List.replicate 7 1⟩) xjobs) 0x12 = true ∧
    next (exec (.xferReceive src4 (xfer 8) ⟨true, []⟩) xjobs) (fun t => (findXfer 2 1 77 t).isSome) = true := by decide +kernel

/-! ### Start-up, the device states and firmware -/

/-- An image of one body byte of a kind, signed with the private key 1, whose public key is the base point; the signature is given. -/
def fwImage (kind sig : Nat) : List Byte :=
  bytesLE 4 0x4E4C4957 ++ bytesLE 2 1 ++ bytesLE 1 kind ++ [0] ++ bytesLE 4 0x00010203 ++ bytesLE 4 0 ++ bytesLE 4 1 ++ List.replicate 12 0#8
    ++ sha384 [0x55] ++ bytesLE 2 1 ++ List.replicate 14 0#8 ++ p384Bytes (some p384g) ++ List.replicate 7 0#8 ++ bytesBE 96 sig
    ++ List.replicate 24 0#8 ++ [0x55]
def stage1Image : List Byte := fwImage 1
  437018433332189572150203081238904422083842191582020936151628202671209958410087673691832451621156030226877944812460707293358920040845537416598285619903502416960776253635911290215025700848006952874688701568978531859467684295977417482
def mgtImage : List Byte := fwImage 0x11
  437018433332189572150203081238904422083842191582020936151628202671209958410087673691832451621156030226877944812460715903355145316134523843867954338438938074862055361905148602172315236467518941846436686964329977163928013922953144414
/-- The fuses hold that key's hash; slot A holds the stage-1 image. -/
def fused (s : State) : State := setB O.FW_KEY_HASH (sha384 (p384Bytes (some p384g)) ++ List.replicate 144 0#8) { s with dev := { s.dev with slotA := stage1Image } }
theorem test_image : fwCheck [1] stage1Image (fused ready) = 0 ∧ fwCheck storeKinds mgtImage (fused ready) = 0 ∧
    fwCheck storeKinds stage1Image (fused ready) = 2 ∧ fwCheck [1] stage1Image ready = 5 ∧
    fwCheck [1] (stage1Image.set 319 1) (fused ready) = 1 ∧ fwCheck [1] (stage1Image.set 290 1) (fused ready) = 7 ∧
    fwCheck [1] (stage1Image.set 320 1) (fused ready) = 8 := by decide +kernel
def factory : FactoryData := ⟨[65], 1, 2, [], [], [], [], [1], [2], [3], 0⟩
def at_ (d : DevState) (s : State) : State := { s with devState := d }
theorem test_aux : State.reset.devState = .off ∧ State.reset.dev.made = false ∧ emergFlag 11 ready = false ∧
    next (exec (.auxApplied 8 factory) State.reset) (fun t => t.devState == .aux && getN O.BG_PLACE t == 8 && t.dev.slotA == [1] && getN O.LC_STATE t == 1) = true ∧
    next (exec (.auxApplied 3 factory) { State.reset with dev := { State.reset.dev with made := true, slotA := [9] } }) (fun t => t.dev.slotA == [9]) = true ∧
    next (exec .auxLost (at_ .aux (fused ready))) (fun t => t.devState == .off && t.dev.slotA == stage1Image) = true ∧
    next (exec .auxLost ready) (fun t => emergFlag 11 t && t.devState == .ready) = true := by decide +kernel
theorem test_boot : (at_ .aux ready).dev.keyHold = false ∧ (at_ .aux ready).dev.trip = none ∧
    next (exec (.bootStart true none) (at_ .aux ready)) (fun t => t.devState == .boot && has t 0x1001 0x102 && getN O.PROC_STATE t == 1) = true ∧
    next (exec (.bootStart true (some (.rail 3 800))) (at_ .aux ready)) (fun t => t.devState == .halt) = true ∧
    getN O.BG_PLACE (at_ .boot (fused ready)) ≤ 8 ∧ fwCheck [1] (slotImage 0 (at_ .boot (fused ready))) (at_ .boot (fused ready)) = 0 ∧
    (∀ p ∈ stage1Sources (at_ .boot ready), fwCheck [p.2.2] p.2.1 (at_ .boot ready) ≠ 0) ∧
    next (exec (.stage1Start true) (at_ .boot (fused ready))) (fun t => t.devState == .load && t.dev.stage1 == stage1Image) = true ∧
    next (exec (.stage1Start true) (at_ .boot ready)) (fun t => getN O.DEV_LAST_CAUSE t == 0x12) = true ∧
    next (exec (.stage1Start false) (at_ .boot ready)) (fun t => getN O.DEV_LAST_CAUSE t == 0x16) = true ∧
    next (exec .pcieFundamentalReset (at_ .halt ready)) (fun t => t.devState == .boot) = true := by decide +kernel
/-- PROVISIONED, in a state. -/
def prov (d : DevState) : State := objs [(O.LC_STATE, 1), (O.BG_MEMBER_MASK, 3)] (at_ d ready)
theorem test_dev_cmd : (∀ v : Fin 6, ownCheck 8 O.DEV_CMD (.num v.val) (prov .ready) = 0) ∧ mayServe (prov .ready) = true ∧ mayServe ready = false ∧
    colActivates (prov .ready) = false ∧ mayHoldLine (prov .ready) = true ∧ mayLeave (prov .service) = true ∧ inService (prov .service) = true ∧
    ownCheck 8 O.DEV_CMD (.num 3) (prov .lineHold) = 0 ∧ mayLeave (prov .lineHold) = true ∧ (prov .lineHold).dev.returning = none ∧
    (prov .ready).dev.flashing = none ∧ (prov .ready).dict.cfgBusy = 0 ∧ ownCheck 8 O.DEV_CMD (.num 4) (prov .safe) = 0 ∧
    next (exec (.devCmdService 8) (prov .ready)) (fun t => t.devState == .service) = true ∧
    next (exec (.devCmdService 8) ready) (fun t => t.sent == [.writeAnswer 8 O.DEV_CMD 0x30]) = true ∧
    next (exec (.devCmdLineHold 8) (prov .ready)) (fun t => t.devState == .lineHold && getN O.PWR_STATE t == 1) = true ∧
    next (exec (.devCmdReady 8) (prov .service)) (fun t => t.devState == .ready) = true ∧
    next (exec (.devCmdRestart 8 false) (prov .safe)) (fun t => t.devState == .boot && t.dev.keyHold) = true ∧
    next (exec (.devCmdSafe 8) (prov .ready)) (fun t => t.devState == .safe && getN O.DEV_LAST_CAUSE t == 6) = true := by decide +kernel
/-- LINE_HOLD is refused, and READY is, while a collective is open. -/
def heldBack : State := { prov .service with coll := { (prov .service).coll with colls := [{ coll7 with placement := some 0 }] } }
theorem test_dev_cmd_refused : mayLeave heldBack = false ∧ mayHoldLine { heldBack with devState := .ready } = false ∧
    next (exec (.devCmdReady 8) heldBack) (fun t => t.sent == [.writeAnswer 8 O.DEV_CMD 0x30]) = true ∧
    next (exec (.devCmdLineHold 8) { heldBack with devState := .ready }) (fun t => t.sent == [.writeAnswer 8 O.DEV_CMD 0x30]) = true := by decide +kernel
def comingBack (d : DevState) : State := { prov .lineHold with dev := { (prov .lineHold).dev with returning := some d } }
theorem test_compute_back : next (exec (.computeDiesReady none []) (comingBack .ready)) (fun t => t.devState == .ready && t.dev.returning == none) = true ∧
    next (exec (.computeDiesReady none []) (comingBack .service)) (fun t => t.devState == .service) = true ∧
    next (exec (.computeDiesReady (some (.rail 3 800)) []) (comingBack .ready)) (fun t => t.devState == .safe) = true := by decide +kernel
def initing (bits : Nat) : State := setN O.INIT_PROGRESS bits (at_ .init ready)
theorem test_init : initRuns 1 (initing 0) = true ∧ initRuns 4 (initing 0x0E) = true ∧ initRuns 7 (initing 0x7E) = true ∧ initRuns 2 (initing 2) = true ∧
    initRuns 5 (initing 0x1E) = true ∧ initRuns 6 (initing 0x1E) = true ∧ initCond 6 (initing 0xBE) = true ∧ initRuns 6 (initing 0xBE) = true ∧
    next (exec (.initStepComplete 6 [] []) (initing 0xBE)) (fun t => t.devState == .ready) = true ∧
    next (exec (.initStepComplete 6 [] []) (initing 0x9E)) (fun t => t.devState == .init && initDone 6 t) = true ∧
    next (exec (.initStepComplete 2 [] [0]) (initing 2)) (fun t => getN O.DEV_LAST_CAUSE t == 0x14) = true ∧
    next (exec (.initStepLimit 7 []) (initing 0x7E)) (fun t => t.devState == .ready && has t 0x100C 0) = true ∧
    next (exec (.initStepLimit 5 []) (initing 0x1E)) (fun t => initDone 5 t && has t 0x100A 5) = true := by decide +kernel
def dl (st : Nat) (d : DevState) : State := setN O.DL_STATUS (st * 2 ^ 28) (at_ d (fused ready))
def staged1 : State := { dl 3 .ready with dev := { (dl 3 .ready).dev with staged := some mgtImage } }
theorem test_dl : (∀ v : Fin 6, ownCheck 8 O.DL_CMD (.num v.val) (dl 0 .load) = 0) ∧ ownCheck 0 O.DL_CMD (.num 2) session = 0 ∧
    getN O.DL_KINDS (setN O.DL_KINDS 127 (dl 0 .load)) % 128 = 127 ∧ dlState (dl 0 .load) ≠ 1 ∧ stages (dl 0 .ready) = true ∧
    abortCheck 8 (dl 0 .ready) = 0 ∧ activateCheck staged1 = 0 ∧ imageKind mgtImage ∈ storeKinds ∧ getN O.EMERG_FLAGS staged1 = 0 ∧
    next (exec (.dlCmdDone 8) (setN O.DL_KINDS 127 (dl 0 .load))) (fun t => t.devState == .init) = true ∧
    next (exec (.dlCmdDone 8) (setN O.DL_KINDS 63 (dl 0 .load))) (fun t => t.sent == [.writeAnswer 8 O.DL_CMD 0x14]) = true ∧
    next (exec (.dlCmdDone 0) session) (fun t => t.sent == [.writeAnswer 0 O.DL_CMD 0x19]) = true ∧
    next (exec (.dlCmdFetch 8) (dl 0 .load)) (fun t => dlState t == 1) = true ∧
    next (exec (.dlCmdAbort 8) staged1) (fun t => t.dev.staged == none && dlState t == 0) = true ∧
    next (exec (.dlCmdActivate 8) staged1) (fun t => t.dev.actKind == some 0x11 && storedImage 0x11 t == mgtImage) = true ∧
    next (exec (.dlCmdActivate 8) (setN O.EMERG_FLAGS 1 staged1)) (fun t => t.dev.deferred && has t 0x1005 (0x11 * 2 ^ 56 + 1)) = true := by
  decide +kernel
theorem test_flash : flashCheck (dl 0 .ready) = 0 ∧ fwCheck (flashKinds (dl 0 .ready)) stage1Image (dl 0 .ready) = 0 ∧
    fwCheck (flashKinds (dl 0 .ready)) mgtImage (dl 0 .ready) = 2 ∧
    next (exec (.dlCmdFlash 8 (some stage1Image)) (dl 0 .ready)) (fun t => t.dev.flashing == some stage1Image && dlState t == 6) = true ∧
    next (exec (.dlCmdFlash 8 (some mgtImage)) (dl 0 .ready)) (fun t => has t 0x1003 (0x11 * 2 ^ 56 + 2)) = true := by decide +kernel
theorem test_flash_done : let s := { dl 6 .ready with dev := { (dl 6 .ready).dev with flashing := some stage1Image } }
    imageKind stage1Image = 1 ∧ fwCheck [1] stage1Image s = 0 ∧ fwCheck [1] [] s ≠ 0 ∧
    next (exec (.flashDone stage1Image) s) (fun t => dirSlot t == 1 && t.dev.slotB == stage1Image) = true ∧
    next (exec (.flashDone []) s) (fun t => dirSlot t == 0 && t.dev.slotB == []) = true := by decide +kernel
theorem test_fetch : dlState (dl 1 .load) = 1 ∧ fwCheck storeKinds mgtImage (dl 1 .load) = 0 ∧ fwCheck storeKinds stage1Image (dl 1 .load) = 2 ∧
    next (exec (.fetchComplete (some mgtImage)) (dl 1 .load)) (fun t => storedImage 0x11 t == mgtImage && getN O.FW_VERSION t != 7) = true ∧
    next (exec (.fetchComplete (some mgtImage)) (setN O.POOL_H1M_MIB 64 (dl 1 .ready))) (fun t => t.dev.store == []) = true ∧
    next (exec (.fetchComplete (some stage1Image)) (dl 1 .load)) (fun t => has t 0x1003 (2 ^ 56 + 2)) = true := by decide +kernel
theorem test_activation : let s := { staged1 with dev := { staged1.dev with deferred := true } }
    let r := { ready with dev := { ready.dev with actKind := some 0x11 } }
    s.dev.deferred = true ∧ stages s = true ∧ r.dev.actLeft = [] ∧ (∀ p < 8, procKind p = 0x11 → getN (O.PROC_STATE + p) r ≠ 3) ∧
    next (exec .activationStart s) (fun t => t.dev.actKind == some 0x11) = true ∧
    next (exec .activationStart (setN O.EMERG_FLAGS 1 s)) (fun t => t.dev.deferred) = true ∧
    next (exec .activationWaitExpiry s) (fun t => !t.dev.deferred && has t 0x1006 (0x11 * 2 ^ 56)) = true ∧
    next (exec .activationSoakExpiry r) (fun t => t.dev.actKind == none && has t 0x1004 (0x11 * 2 ^ 56)) = true := by decide +kernel
def dog (xs : List Nat) : State := { at_ .service ready with dev := { ready.dev with wdogs := [(4, xs)] } }
theorem test_processors : runtimeRuns 4 (dog []) = true ∧ (dog []).dev.actKind = none ∧ (wdogTimes 4 (dog [])).length < 3 ∧ 3 ≤ (wdogTimes 4 (dog [0, 0])).length ∧
    next (exec (.procWatchdog 4 true) (dog [])) (fun t => getN (O.PROC_STATE + 4) t == 2 && has t 0x1007 0x401) = true ∧
    next (exec (.procTrap 4 true) (dog [0, 0])) (fun t => getN O.DEV_LAST_CAUSE t == 3 && has t 0x1007 0x402) = true ∧
    next (exec (.procTrap 4 false) (dog [])) (fun t => getN O.DEV_LAST_CAUSE t == 7) = true ∧
    ownCheck 8 O.PROC_CMD (.num 260) ready = 0 ∧ getN (O.PROC_STATE + 4) ready ≠ 0 ∧ getN (O.PROC_STATE + 4) (setN (O.PROC_STATE + 4) 0 ready) = 0 ∧
    ownCheck 8 O.PROC_CMD (.num 260) (setN (O.PROC_STATE + 4) 0 ready) = 0 ∧
    next (exec (.procCmdRestart 8 4 true) ready) (fun t => has t 0x1007 0x403) = true ∧
    next (exec (.procRestartComplete 4) (setN (O.PROC_STATE + 4) 2 ready)) (fun t => getN (O.PROC_STATE + 4) t == 1) = true ∧
    mayHalt 4 (setN O.DBG_STATE 1 ready) = true ∧ mayHalt 4 ready = false ∧
    next (exec (.debuggerHalt 4) (setN O.DBG_STATE 1 ready)) (fun t => bitOf t.dev.halted 4) = true ∧
    next (exec (.debuggerResume 4) { ready with dev := { ready.dev with halted := 16 } }) (fun t => !bitOf t.dev.halted 4) = true := by decide +kernel
theorem test_feat : ownCheck 8 O.FEAT_DRIVER (.num 2) ready = 0 ∧ ownCheck 8 (O.FEAT_DRIVER + 1) (.num 2) ready = 0 ∧ ownCheck 8 O.FEAT_DRIVER (.num 0x10002) ready = 0 ∧
    next (exec (.featDriver 0 ⟨8, 2⟩) ready) (fun t => t.sent == [.writeAnswer 8 O.FEAT_DRIVER 0x14]) = true ∧
    next (exec (.featDriver 0 ⟨8, 0x10002⟩) ready) (fun t => getN O.FEAT_DRIVER t == 0x10002) = true := by decide +kernel

/-! ### Security and debug -/

/-- A lifecycle, the owner's keys the base point's, a challenge of UNLOCK for session 8 with a nonce of bytes 9. -/
def lc (v : Nat) (xs : List (Nat × Nat) := []) : State :=
  let s := objs xs (setN O.LC_STATE v ready)
  let h := sha384 (p384Bytes (some p384g))
  { s with dev := { s.dev with vendorDbg := h, owner := h ++ h, passed := [(8, 4), (8, 2), (8, 3)] } }
def challenged (p : Nat) (fails locked : List Nat) : State :=
  let s := lc 2
  { s with dev := { s.dev with challenges := [(8, some (p, List.replicate 32 9, 0))], failures := [(p, fails)], locked := locked } }
def response : List Byte := p384Bytes (some p384g) ++ bytesBE 96
  437018433332189572150203081238904422083842191582020936151628202671209958410087673691832451621156030226877944812460713637905342292118824180182611879333213058618920348739580052690569390902949809946029489967679010411786273145052861185
theorem test_challenge : (∀ v : Fin 5, ownCheck 8 O.SEC_CHAL_REQ (.num v.val) (lc 1) = 0) ∧ secUp (lc 1) = true ∧ (lc 1).dev.locked.contains 4 = false ∧
    purposeRule 3 8 (lc 1) = .refused ∧ purposeRule 1 8 (lc 1) = .granted ∧ purposeRule 3 8 (lc 0) = .granted ∧
    purposeRule 4 8 (lc 1) = .signed (lc 1).dev.vendorDbg ∧ (challenged 4 [] [4]).dev.locked.contains 4 = true ∧ ownCheck 8 O.SEC_CHAL_REQ (.num 4) (challenged 4 [] [4]) = 0 ∧
    next (exec (.secChalReq ⟨8, 4⟩) (challenged 4 [] [4])) (fun t => t.sent == [.writeAnswer 8 O.SEC_CHAL_REQ 0x30]) = true ∧
    next (exec (.secChalReq ⟨8, 3⟩) (lc 1)) (fun t => t.sent == [.writeAnswer 8 O.SEC_CHAL_REQ 0x19]) = true ∧
    next (exec (.secChalReq ⟨8, 1⟩) (lc 1)) (fun t => (getSess 8 t).unlocked) = true ∧
    next (exec (.secChalReq ⟨8, 3⟩) (lc 0)) (fun t => hasPassed 8 3 t) = true ∧
    next (exec (.secChalReq ⟨8, 4⟩) (lc 1)) (fun t => t.freeCtr == 1) = true := by decide +kernel
theorem test_response : ownCheck 8 O.SEC_RESPONSE (.bytes response) (challenged 1 [] []) = 0 ∧ response.length = 193 ∧
    getChallenge 8 (challenged 1 [] []) = some (1, List.replicate 32 9, 0) ∧ responseGood 8 response (challenged 1 [] []) = true ∧
    responseGood 8 response (challenged 4 [] []) = false ∧ (challenged 1 [] [1]).dev.locked.contains 1 = true ∧
    next (exec (.secResponse ⟨8, response⟩) (challenged 1 [] [])) (fun t => (getSess 8 t).unlocked && getChallenge 8 t == none) = true ∧
    next (exec (.secResponse ⟨8, response⟩) (challenged 4 [0] [])) (fun t => has t 0x6803 (8 * 2 ^ 56 + 4) && t.dev.locked == []) = true ∧
    next (exec (.secResponse ⟨8, response⟩) (challenged 4 [0, 0] [])) (fun t => has t 0x6804 4 && t.dev.locked == [4]) = true ∧
    next (exec (.secResponse ⟨8, response⟩) (challenged 1 [] [1])) (fun t => t.sent == [.writeAnswer 8 O.SEC_RESPONSE 0x30]) = true ∧
    next (exec (.challengeLockoutExpiry 4) (challenged 1 [] [4, 1])) (fun t => t.dev.locked == [1]) = true := by decide +kernel
/-- The same with session 8 unlocked; the second with no purpose passed. -/
def ul (v : Nat) (xs : List (Nat × Nat) := []) : State := setSess 8 { getSess 8 ready with unlocked := true } (lc v xs)
def bare (v : Nat) : State := setSess 8 { getSess 8 ready with unlocked := true } (setN O.LC_STATE v ready)
def blank : State := setB O.SERIAL [65] (setB O.FW_KEY_HASH [1] (ul 0))
theorem test_lifecycle : (∀ v : Fin 4, ownCheck 8 O.LC_CMD (.num v.val) (ul 1) = 0) ∧ ownCheck 8 O.LC_CMD (.num 1) blank = 0 ∧ secUp blank = true ∧
    getN O.LC_STATE blank = 0 ∧ getN O.DBG_STATE blank = 0 ∧ getB O.FW_KEY_HASH blank ≠ [] ∧ getB O.SERIAL blank ≠ [] ∧ blank.dev.vendorDbg ≠ [] ∧
    (getB O.LC_OWNER (setB O.LC_OWNER (List.replicate 96 1) (ul 1))).length = 96 ∧ hasPassed 8 4 (ul 1) = true ∧
    ownCheck 8 O.LC_CMD (.num 3) (bare 1) = 0 ∧ hasPassed 8 4 (bare 1) = false ∧
    ownCheck 8 O.LC_CMD (.num 2) (at_ .safe (ul 1)) = 0 ∧
    next (exec (.lcCmdProvision 8 true true) blank) (fun t => t.devState == .boot && getN O.LC_STATE t == 1 && t.dev.secretGen == 1) = true ∧
    next (exec (.lcCmdProvision 8 false true) blank) (fun t => t.sent == [.writeAnswer 8 O.LC_CMD 0x30]) = true ∧
    next (exec (.lcCmdProvision 8 true true) (ul 1)) (fun t => t.sent == [.writeAnswer 8 O.LC_CMD 0x30]) = true ∧
    next (exec (.lcCmdField 8 true) (setB O.LC_OWNER (List.replicate 96 1) (ul 1))) (fun t => getN O.LC_STATE t == 2) = true ∧
    next (exec (.lcCmdReturn 8 false) (ul 1)) (fun t => getN O.LC_STATE t == 3 && t.dev.keyHold) = true ∧
    next (exec (.lcCmdReturn 8 false) (bare 1)) (fun t => t.sent == [.writeAnswer 8 O.LC_CMD 0x30]) = true := by decide +kernel
theorem test_debug : (∀ v : Fin 4, ownCheck 8 O.DBG_CMD (.num v.val) (ul 1) = 0) ∧ hasPassed 8 2 (ul 1) = true ∧ hasPassed 8 3 (ul 1) = true ∧
    hasPassed 8 2 ready = false ∧ (∀ v : Fin 4, ownCheck 8 O.DBG_CMD (.num v.val) ready = 0) ∧
    next (exec (.authenticate 8) (ul 1)) (fun t => getN O.DBG_STATE t == 1 && has t 0x6802 (8 * 2 ^ 56 + 1)) = true ∧
    next (exec (.authenticate 8) ready) (fun t => t.sent == [.writeAnswer 8 O.DBG_CMD 0x30]) = true ∧
    next (exec (.dbgOpen 8) (ul 1 [(O.DBG_STATE, 1)])) (fun t => getN O.DBG_STATE t == 2 && has t 0x6802 (8 * 2 ^ 56 + 0x102)) = true ∧
    next (exec (.dbgClose 8) (ul 1 [(O.DBG_STATE, 2)])) (fun t => getN O.DBG_STATE t == 0 && has t 0x6802 (8 * 2 ^ 56 + 0x200)) = true := by decide +kernel
def fuses : State := setB O.SVN_MIN (List.replicate 9 5) (ul 1)
theorem test_fuses : ownCheck 8 O.FUSE_CMD (.num (2 ^ 24 + 3)) fuses = 0 ∧ fuseCheck (2 ^ 24 + 3) fuses = 0 ∧
    ownCheck 8 O.FUSE_CMD (.num (2 * 2 ^ 24 + 0x20 * 2 ^ 16 + 63)) fuses = 0 ∧ fuseCheck (2 * 2 ^ 24 + 0x20 * 2 ^ 16 + 63) fuses = 0 ∧
    fuseCheck (2 * 2 ^ 24 + 0x20 * 2 ^ 16 + 64) fuses = 0x14 ∧ (getB O.SVN_MIN fuses).length = 9 ∧ svnMin 0x20 fuses = 5 ∧
    (∃ i ∈ heldImages (fused fuses), (i.getD 7 0).toNat = 0) ∧ ownCheck 8 O.FUSE_CMD (.num (2 ^ 24)) (fused fuses) = 0 ∧
    next (exec (.fuseRevoke 8 3) fuses) (fun t => getN O.FW_KEY_REVOKED t == 8) = true ∧
    next (exec (.fuseRevoke 8 0) (fused fuses)) (fun t => t.sent == [.writeAnswer 8 O.FUSE_CMD 0x30]) = true ∧
    next (exec (.fuseSvn 8 0x20 63) fuses) (fun t => svnMin 0x20 t == 63 && svnMin 0x15 t == 5) = true ∧
    next (exec (.fuseSvn 8 0x20 4) fuses) (fun t => t.sent == [.writeAnswer 8 O.FUSE_CMD 0x14]) = true := by decide +kernel
/-- A point that is none of the curve. -/
def offCurve : List Byte := 4 :: List.replicate 96 1
theorem test_lkek_peer : ownCheck 8 O.LKEK_PEER (.bytes (p384Bytes (some p384g))) (ul 1) = 0 ∧ (p384Bytes (some p384g)).length = 97 ∧
    (p384Point (p384Bytes (some p384g))).isSome ∧ p384Point offCurve = none ∧ offCurve.length = 97 ∧
    ownCheck 8 O.LKEK_PEER (.bytes offCurve) (ul 1) = 0 ∧ ownCheck 8 O.LKEK_PEER (.bytes []) (ul 1) = 0 ∧
    ownCheck 8 O.ATT_NONCE (.bytes (List.replicate 32 1)) ready = 0 ∧ secUp ready = true ∧
    next (exec (.lkekPeer ⟨8, p384Bytes (some p384g)⟩) (ul 1)) (fun t => (getB O.LKEK_PEER t).length == 97) = true ∧
    next (exec (.lkekPeer ⟨8, offCurve⟩) (ul 1)) (fun t => t.sent == [.writeAnswer 8 O.LKEK_PEER 0x14]) = true := by decide +kernel

/-! ### Supply, temperature, clocks and the PMBus -/

def supply (xs : List (Nat × Nat) := []) : State := objs xs ready
def flagged (k : Nat) : State := supply [(O.EMERG_FLAGS, 2 ^ k), (O.EMERG_LATCH, 2 ^ k)]
/-- A command raises a flag: it is set, latched and logged. -/
def raised (k arg : Nat) (o : Host.Outcome State Fault Refusal) : Bool :=
  next o (fun t => emergFlag k t && bitOf (getN O.EMERG_LATCH t) k && has t 0x7001 (k * 2 ^ 56 + arg))
theorem test_junctions : (supply).devState ≠ .off ∧ tjLimit 4 supply = 8500 ∧ inService supply = true ∧ emergFlag 0 supply = false ∧
    emergFlag 1 supply = false ∧ emergFlag 2 supply = false ∧ (supply).devState ≠ .aux ∧ (supply).dev.switchOpen = false := by decide +kernel
theorem test_junctions_raise : raised 0 (4 * 2 ^ 40 + 7500) (exec (.otWarn 4 7500) supply) ∧
    next (exec (.otWarn 4 7499) supply) (fun t => t.dict.log == []) = true ∧
    raised 1 (4 * 2 ^ 40 + 8200) (exec (.otThrottle 4 8200) supply) ∧
    next (exec (.otThrottle 4 8199) supply) (fun t => t.dict.log == []) = true ∧
    raised 2 (4 * 2 ^ 40 + 8500) (exec (.otCrit 4 8500) supply) ∧
    next (exec (.otCrit 4 8500) supply) (fun t => t.devState == .safe && getN O.DEV_LAST_CAUSE t == 2) = true ∧
    next (exec (.otCrit 4 8499) supply) (fun t => t.devState == .ready) = true ∧
    next (exec (.thermalTrip 4 9500) supply) (fun t => t.dev.switchOpen && t.dev.trip == some (4, 9500)) = true := by decide +kernel
theorem test_input : getN O.PWR_CAP_W supply = 1150 ∧
    raised 3 11501 (exec (.powerCap 11501) supply) ∧ next (exec (.powerCap 11500) supply) (fun t => getN O.EMERG_FLAGS t == 0) = true ∧
    raised 4 35999 (exec (.vinLow 35999) supply) ∧ next (exec (.vinLow 36000) supply) (fun t => getN O.EMERG_FLAGS t == 0) = true ∧
    raised 6 44001 (exec (.vinHigh 44001) supply) ∧ next (exec (.vinHigh 44000) supply) (fun t => getN O.EMERG_FLAGS t == 0) = true ∧
    raised 7 34001 (exec (.oc 34001) supply) ∧ next (exec (.oc 34000) supply) (fun t => getN O.EMERG_FLAGS t == 0) = true ∧
    raised 11 2999 (exec (.auxLow 2999) supply) ∧ next (exec (.auxLow 3000) supply) (fun t => getN O.EMERG_FLAGS t == 0) = true ∧
    raised 5 29999 (exec (.vinHard 29999) supply) ∧ next (exec (.vinHard 29999) supply) (fun t => t.dev.switchOpen) = true ∧
    next (exec (.vinAbove46v 46001) supply) (fun t => t.dev.switchOpen && getN O.EMERG_FLAGS t == 0) = true ∧
    next (exec (.vinAbove46v 46000) supply) (fun t => !t.dev.switchOpen) = true := by decide +kernel
theorem test_coolant_rails : raised 8 4501 (exec (.coolant 4501 4501) supply) ∧ raised 8 1000 (exec (.coolant 1000 3001) supply) ∧
    next (exec (.coolant 4500 6500) supply) (fun t => getN O.EMERG_FLAGS t == 0) = true ∧
    (let s := supply [(O.RAIL_SET_MV, 1000)]
     raised 9 949 (exec (.rail 0 949) s) ∧ raised 9 1051 (exec (.rail 0 1051) s) ∧
     next (exec (.rail 0 1051) s) (fun t => t.devState == .safe && has t 0x7004 1051) = true ∧
     next (exec (.rail 0 950) s) (fun t => t.devState == .ready) = true ∧ next (exec (.rail 0 1050) s) (fun t => t.devState == .ready) = true) := by
  decide +kernel
theorem test_refclk : raised 10 0 (exec .refclk supply) ∧ emergFlag 10 (flagged 10) = true ∧ emergFlag 10 supply = false ∧
    next (exec .refclkHoldExpiry (flagged 10)) (fun t => t.devState == .safe) = true ∧
    next (exec (.emergFlagClear 10) (flagged 10)) (fun t => !emergFlag 10 t && has t 0x7002 (10 * 2 ^ 56)) = true ∧
    next (exec (.emergFlagClear 5) (flagged 5)) (fun t => emergFlag 5 t) = true ∧
    next (exec (.emergFlagClear 4) supply) (fun t => t.dict.log == []) = true := by decide +kernel
/-- Row 3 at 1,600 MHz, row 4 at 850, both under POWER_CAP. -/
def capped : State := supply [(O.EMERG_FLAGS, 8), (O.ROW_FREQ_ACT + 3, 1600), (O.ROW_FREQ_ACT + 4, 850), (O.ROW_FREQ_ACT + 5, 800)]
def ramped : State := let s := supply [(O.ROW_FREQ_ACT + 3, 1100)]; { s with dev := { s.dev with ramping := 8 } }
def moving3 : State := { capped with comp := { capped.comp with migrations := [⟨24, 31, 0⟩] } }
theorem test_throttle : rowDown 11501 0 3 capped = true ∧ rowMigrating 3 capped = false ∧ rowDown 11500 0 3 capped = false ∧ rowHeld 3 capped = true ∧ rowMigrating 3 moving3 = true ∧
    next (exec (.throttleStep 11501 0) moving3) (fun t => getN (O.ROW_FREQ_ACT + 3) t == 1600) = true ∧
    rowDown 0 0 3 ramped = false ∧ rowHeld 3 ramped = false ∧ bitOf ramped.dev.ramping 3 = true ∧ rowMigrating 3 ramped = false ∧
    rowLimit 3 ramped = 1400 ∧
    next (exec (.throttleStep 11501 0) capped) (fun t => getN (O.ROW_FREQ_ACT + 3) t == 1500 && getN (O.ROW_FREQ_ACT + 4) t == 800
      && getN (O.ROW_FREQ_ACT + 5) t == 800) = true ∧
    next (exec (.throttleStep 11500 0) capped) (fun t => getN (O.ROW_FREQ_ACT + 3) t == 1600) = true ∧
    next (exec (.throttleStep 0 0) ramped) (fun t => getN (O.ROW_FREQ_ACT + 3) t == 1200) = true := by decide +kernel
def switched (aux : Bool) : State := { ready with dev := { ready.dev with switchOpen := true, auxPresent := aux } }
theorem test_hotswap : (switched true).dev.switchOpen = true ∧ (switched true).dev.auxPresent = true ∧ ready.dev.switchOpen = false ∧
    next (exec (.hotswapAuxEntry false) (switched true)) (fun t => t.devState == .aux && t.dev.keyHold && has t 0x6805 1
      && getN O.PWR_STATE t == 3) = true ∧
    next (exec (.hotswapAuxEntry true) (switched false)) (fun t => t.devState == .off) = true := by decide +kernel
def idling : State := supply [(O.PWR_STATE, 2)]
theorem test_power_command : ownCheck 8 O.PWR_CMD (.num 1) supply = 0 ∧ ownCheck 8 O.PWR_CMD (.num 2) supply = 0 ∧ idleCheck supply = 0 ∧
    getN O.PWR_STATE supply ≠ 2 ∧ ownCheck 8 O.PWR_CMD (.num 1) idling = 0 ∧ ownCheck 8 O.PWR_CMD (.num 2) idling = 0 ∧
    getN O.PWR_STATE idling = 2 ∧ idleCheck (at_ .safe supply) = 0x30 ∧ ownCheck 8 O.PWR_CMD (.num 1) (at_ .safe supply) = 0 ∧
    next (exec (.pwrCmdIdle 8) supply) (fun t => getN O.PWR_STATE t == 2 && t.line.laserShutLow && getN (O.PROC_STATE + 6) t == 0) = true ∧
    next (exec (.pwrCmdIdle 8) (at_ .safe supply)) (fun t => t.sent == [.writeAnswer 8 O.PWR_CMD 0x30]) = true ∧
    next (exec (.pwrCmdActive 8) idling) (fun t => t.dev.waking) = true := by decide +kernel
def wakes : State := { idling with dev := { idling.dev with waking := true } }
theorem test_wake : wakes.dev.waking = true ∧ wakes.devState = .ready ∧
    next (exec (.p0Reached none []) wakes) (fun t => getN O.PWR_STATE t == 0 && !t.dev.waking && getN (O.PROC_STATE + 7) t == 1) = true := by
  decide +kernel
theorem test_pmbus : ready.devState ≠ .off ∧
    next (exec .statusWord (flagged 4)) (fun t => t.freeCtr == 1) = true ∧
    next (exec (.readTemperature2 [4550]) ready) (fun t => getI (O.TJ_CC + 12) t == 4550) = true ∧
    next (exec (.readTemperature1 []) ready) (fun t => t.sent == [.pmbusWord 0x8D 0]) = true ∧
    next (exec (.readVin (some 40000)) ready) (fun t => getN O.VIN_MV t == 40000) = true ∧
    next (exec .mfrDevState ready) (fun t => t.sent == [.pmbusByte 0xD0 5]) = true ∧
    next (exec (.pmbusWrite 0x21) ready) (fun t => t.sent == [.pmbusNack 0x21]) = true := by decide +kernel

/-! ### Self-test, ageing and re-planning -/

def bistAt (b : Bist) (xs : List (Nat × Nat) := []) : State :=
  let s := objs ((O.BIST_EN, 1) :: xs) ready
  { s with dev := { s.dev with bist := b } }
def slice (i : Nat) (again : Bool) : Slice := { slot := 0, island := i, item := .part 16, again := again }
theorem test_slice_start : supUp (bistAt {}) = true ∧ cycleSlices (bistAt {}) = 7524 ∧ supUp State.reset = false ∧ sliceMayStart 0 0 (.part 16) 40 (rotateRows (setI O.BIST_HEADROOM_W 40 (bistAt {}))) = true ∧
    sliceMayStart 0 0 (.part 17) 40 (rotateRows (setI O.BIST_HEADROOM_W 40 (bistAt {}))) = false ∧
    next (exec (.bistSliceStart 0 0 (.part 16) 40) (bistAt {})) (fun t => t.dev.bist.slices == [slice 0 false]) = true ∧
    next (exec (.bistSliceStart 0 0 (.part 16) 39) (bistAt {})) (fun t => t.dev.bist.slices == []) = true ∧
    next (exec (.bistSliceStart 1 1 (.part 16) (-1)) (bistAt { slices := [slice 0 false] })) (fun t => t.dev.bist.slices == []
      && getN O.BIST_ABANDONED t == 1) = true := by decide +kernel
/-- A test of a row island's stall, a port island and a critical island, about to end. -/
def tested (i : Nat) (again : Bool) (done : Nat := 0) : State := bistAt { slices := [slice i again], done := done }
theorem test_slice_pass : (tested 0 false).dev.bist.slices.find? (fun z => z.slot == 0) = some (slice 0 false) ∧
    (bistAt {}).dev.bist.slices.find? (fun z => z.slot == 0) = none ∧ (tested 0 false).dev.bist.done + 1 < cycleSlices (tested 0 false) ∧
    cycleSlices (tested 0 false 7523) ≤ (tested 0 false 7523).dev.bist.done + 1 ∧ (slice 0 false).item = .part 16 ∧
    next (exec (.bistSliceEnd 0 true) (tested 0 false)) (fun t => t.dev.bist.done == 1 && t.dev.bist.slices == []) = true ∧
    next (exec (.bistSliceEnd 0 true) (tested 0 false 7523)) (fun t => t.dev.bist.done == 0 && getN O.BIST_CYCLES t == 1) = true := by
  decide +kernel
theorem test_slice_fail : islandFenced 60 (tested 60 true) = false ∧ islandFenced 16 (tested 16 true) = false ∧ islandCritical 60 = false ∧
    islandCritical 16 = true ∧ inService (tested 16 true) = true ∧ (slice 0 true).again = true ∧ (slice 0 false).again = false ∧
    next (exec (.bistSliceEnd 0 false) (tested 60 false)) (fun t => t.dev.bist.slices == [slice 60 true] && has t 0x7801 (60 * 256)) = true ∧
    next (exec (.bistSliceEnd 0 false) (tested 60 true)) (fun t => islandFenced 60 t && t.devState == .ready && has t 0x100B 60) = true ∧
    next (exec (.bistSliceEnd 0 false) (tested 16 true)) (fun t => t.devState == .safe && has t 0x7802 (16 * 256 + 1)) = true := by decide +kernel
theorem test_overdue : (bistAt {}).dev.bist.overdue = false ∧ inService (bistAt {}) = true ∧ (bistAt { overdue := true }).dev.bist.overdue = true ∧
    next (exec (.bistCycleOverdue 9) (bistAt {})) (fun t => has t 0x7803 9) = true ∧
    next (exec (.bistCycleOverdue 9) (bistAt { overdue := true })) (fun t => t.dict.log == []) = true := by decide +kernel
theorem test_ageing : supUp (bistAt {}) = true ∧ ([-7] : List Int)[0]? = some (-7) ∧ getN O.AGE_EYE_MIN_MUI (bistAt {}) = 80 ∧
    ((bistAt {}).dev.bist.eqFine) / 2 ^ 64 < 105192 ∧
    105192 ≤ (105192 * 2 ^ 64 - 1 + ageRate 9000 * 2 ^ 64 / fxOne / 3600) / 2 ^ 64 ∧
    next (exec (.ageSlackSample [-7]) (bistAt {})) (fun t => getI O.AGE_SLACK_PS t == -7) = true ∧
    next (exec (.ageEyeSample [80, 79]) (bistAt {})) (fun t => t.dict.log.length == 1 && has t 0x7023 (256 + 19)) = true ∧
    next (exec (.ageTempSample 9000) (bistAt {})) (fun t => t.dev.bist.eqSecs == 1 && t.dev.bist.eqFine == 2 ^ 64 / 3600) = true ∧
    next (exec (.ageTempSample 9000) (bistAt { eqFine := 105192 * 2 ^ 64 - 1 })) (fun t => has t 0x7025 105192) = true := by decide +kernel
/-- Carrier 2 in service has lost 0.12 dB; row rail 11 and rail 0, which is never raised, are short of slack. -/
def plan (short : List Nat) : ReplanData := { losses := [(2, 12)], pd := [5], short := short }
def inUse (b : Bist) (xs : List (Nat × Nat) := []) : State := setCar 2 { getCar 2 ready with cstate := .active } (bistAt b xs)
theorem test_replan : replanAllowed (inUse {}) = true ∧ replanAllowed (at_ .safe (inUse {})) = false ∧ (inUse {}).dev.bist.replanning = false ∧
    (inUse {}).dev.bist.replanDue = false ∧ (inUse {}).dev.bist.slices = [] ∧ worstLoss (plan [11, 0]) (inUse {}) = 15 ∧
    (tested 0 false).dev.bist.slices ≠ [] ∧ replanAllowed (tested 0 false) = true ∧ (inUse { replanning := true }).dev.bist.replanning = true ∧
    ownCheck 8 O.REPLAN_CMD (.num 1) (inUse {}) = 0 ∧
    next (exec (.replanDue (plan [11, 0])) (inUse {})) (fun t => t.dev.bist.short == [11] && t.dev.bist.replanning
      && getN O.MG_TARGET_CDB t == getN O.MG_TARGET_FLOOR_CDB t + 15) = true ∧
    next (exec (.replanDue (plan [0])) (inUse {})) (fun t => t.dev.bist.short == [] && has t 0x7021 (getN O.MG_TARGET_CDB t)) = true ∧
    next (exec (.replanDue (plan [])) (at_ .safe (inUse {}))) (fun t => has t 0x7024 0 && t.dev.bist.replanDue) = true ∧
    next (exec (.replanDue (plan [])) (tested 0 false)) (fun t => t.dev.bist.replanDue) = true ∧
    next (exec (.replanCmdNow 8 (plan [])) (inUse {})) (fun t => t.sent == [.writeAnswer 8 O.REPLAN_CMD 0]) = true := by decide +kernel
def raising (k mv ceil : Nat) : State :=
  bistAt { replanning := true, short := [k] } [(O.RAIL_SET_MV + k, mv), (O.ROW_FREQ_CEIL + (k - 11), ceil), (O.ROW_FREQ_CEIL + 15, 1600)]
theorem test_voltage : (raising 11 845 900).dev.bist.replanning = true ∧ 11 ∈ (raising 11 845 900).dev.bist.short ∧ supUp (raising 11 845 900) = true ∧
    845 + 5 ≤ railMax 11 ∧ railMax 11 < 846 + 5 ∧ railMax 27 < getN (O.RAIL_SET_MV + 27) (raising 27 2000 1600) + 5 ∧
    11 ∉ (raising 12 845 900).dev.bist.short ∧
    next (exec (.voltageStep 11 29) (raising 11 845 900)) (fun t => getN (O.RAIL_SET_MV + 11) t == 850 && t.dev.bist.short == [11]) = true ∧
    next (exec (.voltageStep 11 30) (raising 11 845 900)) (fun t => t.dev.bist.short == [] && !t.dev.bist.replanning) = true ∧
    next (exec (.voltageStep 11 29) (raising 11 846 900)) (fun t => getN O.ROW_FREQ_CEIL t == 800 && has t 0x7022 800) = true ∧
    next (exec (.voltageStep 11 29) (raising 11 846 899)) (fun t => islandFenced 0 t) = true ∧
    next (exec (.voltageStep 27 0) (raising 27 2000 1600)) (fun t => getN (O.RAIL_SET_MV + 27) t == 2000 && t.dev.bist.short == []) = true := by
  decide +kernel

/-! ### The whole machine -/

/-- A byte of device memory and a command at the front. -/
def small : State := { ready with mem := [(4, 1#8)], pending := [.pmbusRevision] }
theorem test_canonical : small.memWf = true ∧ State.reset.memWf = true ∧ { small with mem := [(4, 0#8)] }.memWf = false ∧
    next (step small) (fun t => t.memWf) = true := by decide +kernel
def seg1 : Segment :=
  ⟨5, true, false, true, 7, 63, 255, 254, 65535, 65534, 2 ^ 32 - 1, 253, 252, 251, 2 ^ 32 - 2, 2 ^ 64 - 1, 2 ^ 32 - 3, 2 ^ 64 - 2, [9#8, 8#8, 7#8]⟩
def seg2 : Segment := ⟨1, false, true, false, 1, 2, 3, 4, 5, 6, 7, 8, 9, 10, 11, 12, 13, 14, []⟩
def hdr : CtlHdr := ⟨65535, 65534, 255, 254, 2 ^ 32 - 1⟩
theorem test_round_trip : wfSegment seg1 = true ∧ wfSegment seg2 = true ∧ payloadLen [{ seg := seg1 }, { seg := seg2 }] ≤ 8112 ∧
    (parsePayload 127 (payloadBytes [{ seg := seg1 }, { seg := seg2 }])).segs = [seg1, seg2] ∧
    (Instr.hello hdr ⟨2 ^ 64 - 1, 2 ^ 64 - 2, true⟩).wf = true ∧ (Instr.confirm hdr ⟨255, true, 2 ^ 32 - 1, 1, 2⟩).wf = true ∧
    (Instr.chunkReq hdr (2 ^ 32 - 1) 15).wf = true ∧ (Instr.cancel hdr).wf = true ∧ (Instr.endStatus hdr 255 254).wf = true ∧
    (Instr.epochAdv hdr ⟨65535, 1, 2, 2 ^ 32 - 1⟩).wf = true ∧ (Instr.epochAck hdr 65535 (List.replicate 16 (2 ^ 32 - 1, 255))).wf = true ∧
    (Instr.credit hdr (2 ^ 32 - 1) (2 ^ 48 - 1) (2 ^ 48 - 2)).wf = true ∧
    ctlOfBytes (ctlBytes (.epochAck hdr 65535 (List.replicate 16 (2 ^ 32 - 1, 255)))) = some (.epochAck hdr 65535 (List.replicate 16 (2 ^ 32 - 1, 255))) ∧
    ctlOfBytes (ctlBytes (.credit hdr (2 ^ 32 - 1) (2 ^ 48 - 1) (2 ^ 48 - 2))) = some (.credit hdr (2 ^ 32 - 1) (2 ^ 48 - 1) (2 ^ 48 - 2)) := by
  decide +kernel
/-- The first bytes of a segment header, written out from Table 11.11: KIND, flags, SC, job, source, destination, length, group, epoch. -/
theorem test_segment_layout : (segBytes seg2).take 12 = [1#8, 0x40#8, 0x20#8, 8#8, 3#8, 4#8, 0#8, 64#8, 0#8, 5#8, 0#8, 6#8] ∧
    (ctlBytes (.cancel ⟨1, 2, 3, 4, 5⟩)).take 16 = [4#8, 1#8, 0#8, 1#8, 0#8, 2#8, 3#8, 4#8, 0#8, 0#8, 0#8, 5#8, 0#8, 0#8, 0#8, 0#8] := by
  decide +kernel

/-! ### Ill-formed commands -/

theorem test_wf_rop_item : let b : RopItem := ⟨0, 0, 0, 0, false, false, []⟩
    wfRopItem b = true ∧ ([{ b with index := 2 ^ 16 },
      { b with sub := 256 },
      { b with type := 256 },
      { b with length := 2 ^ 16 },
      { b with value := List.replicate (2 ^ 16) 0#8 }] : List RopItem).all (fun x => !wfRopItem x) = true := by decide +kernel
theorem test_wf_rop_request : let b : RopReq := ⟨72, 0, 0, 0, false, 0, 0, 0, []⟩
    wfRopReq b = true ∧ ([{ b with sess := 73 },
      { b with port := 2 ^ 16 },
      { b with version := 256 },
      { b with requestId := 2 ^ 32 },
      { b with itemCount := 2 ^ 16 },
      { b with bodyLength := 2 ^ 16 },
      { b with msgLen := 2 ^ 32 },
      { b with items := [⟨2 ^ 16, 0, 0, 0, false, false, []⟩] }] : List RopReq).all (fun x => !wfRopReq x) = true := by decide +kernel
theorem test_wf_object_write : let b : ObjWrite := ⟨72, 2 ^ 80 - 1⟩
    wfObjWrite b = true ∧ ([{ b with sess := 73 },
      { b with value := 2 ^ 80 }] : List ObjWrite).all (fun x => !wfObjWrite x) = true := by decide +kernel
theorem test_wf_blob_write : let b : BlobWrite := ⟨72, []⟩
    wfBlobWrite b = true ∧ ([{ b with sess := 73 }] : List BlobWrite).all (fun x => !wfBlobWrite x) = true := by decide +kernel
theorem test_wf_handshake : let b : Handshake := ⟨0, 0, true, true, 0x1302, false, false, false, true, 2⟩
    wfHandshake b = true ∧ ([{ b with srcAddr := 2 ^ 128 },
      { b with dstPort := 2 ^ 16 },
      { b with suite := 2 ^ 16 },
      { b with anchor := 3 }] : List Handshake).all (fun x => !wfHandshake x) = true := by decide +kernel
theorem test_wf_segment : let b : Segment := seg2
    wfSegment b = true ∧ ([{ b with kind := 256 },
      { b with sc := 8 },
      { b with job := 64 },
      { b with src := 256 },
      { b with dst := 256 },
      { b with group := 2 ^ 16 },
      { b with epoch := 2 ^ 16 },
      { b with seq := 2 ^ 32 },
      { b with op := 256 },
      { b with dir := 256 },
      { b with hop := 256 },
      { b with chunk := 2 ^ 32 },
      { b with offset := 2 ^ 64 },
      { b with chunkLen := 2 ^ 32 },
      { b with sealV := 2 ^ 64 },
      { b with data := List.replicate 8049 0#8 }] : List Segment).all (fun x => !wfSegment x) = true := by decide +kernel
theorem test_wf_control_header : let b : CtlHdr := hdr
    wfCtlHdr b = true ∧ ([{ b with group := 2 ^ 16 },
      { b with epoch := 2 ^ 16 },
      { b with src := 256 },
      { b with dst := 256 },
      { b with seq := 2 ^ 32 }] : List CtlHdr).all (fun x => !wfCtlHdr x) = true := by decide +kernel
theorem test_wf_hello_body : let b : HelloBody := ⟨0, 0, false⟩
    wfHelloBody b = true ∧ ([{ b with descDigest := 2 ^ 64 },
      { b with rangeDigest := 2 ^ 64 }] : List HelloBody).all (fun x => !wfHelloBody x) = true := by decide +kernel
theorem test_wf_confirm_body : let b : ConfirmBody := ⟨0, false, 0, 0, 0⟩
    wfConfirmBody b = true ∧ ([{ b with op := 256 },
      { b with k := 2 ^ 32 },
      { b with sealDigest := 2 ^ 64 },
      { b with paramDigest := 2 ^ 64 }] : List ConfirmBody).all (fun x => !wfConfirmBody x) = true := by decide +kernel
theorem test_wf_epoch_change : let b : EpochChange := ⟨0, 0, 0, 0⟩
    wfEpochChange b = true ∧ ([{ b with newEpoch := 2 ^ 16 },
      { b with kind := 256 },
      { b with site := 256 },
      { b with ports := 2 ^ 32 }] : List EpochChange).all (fun x => !wfEpochChange x) = true := by decide +kernel
theorem test_wf_job_source : let b : JobSrc := ⟨255, 31, 0⟩
    wfJobSrc b = true ∧ ([{ b with fn := 256 },
      { b with ring := 32 },
      { b with entry := 2 ^ 32 }] : List JobSrc).all (fun x => !wfJobSrc x) = true := by decide +kernel
theorem test_wf_posting : let b : Posting := ⟨0, 0, 0, 0, 0, 0, 0, 0, 0, 0, 0⟩
    wfPosting b = true ∧ ([{ b with group := 2 ^ 16 },
      { b with pflags := 256 },
      { b with seq := 2 ^ 32 },
      { b with length := 2 ^ 64 },
      { b with inList := 2 ^ 64 },
      { b with outList := 2 ^ 64 },
      { b with program := 2 ^ 32 },
      { b with redop := 256 },
      { b with elem := 256 },
      { b with coding := 256 },
      { b with tallyBase := 2 ^ 32 }] : List Posting).all (fun x => !wfPosting x) = true := by decide +kernel
theorem test_wf_door : let b : Door := ⟨0, 0⟩
    wfDoor b = true ∧ ([{ b with qp := 2 ^ 24 }] : List Door).all (fun x => !wfDoor x) = true := by decide +kernel
theorem test_wf_source_answer : let b : SourceAnswer := ⟨0, 0, 0, [0, 0, 0, 0, 0]⟩
    wfSourceAnswer b = true ∧ ([{ b with committed := 2 ^ 64 },
      { b with anchorFp := 2 ^ 64 },
      { b with momFp := 2 ^ 64 },
      { b with hp := [0, 0, 0, 0, 0, 0] },
      { b with hp := [2 ^ 32] }] : List SourceAnswer).all (fun x => !wfSourceAnswer x) = true := by decide +kernel
theorem test_wf_refill_page : let b : RefillPage := ⟨0, [], []⟩
    wfRefillPage b = true ∧ ([{ b with page := 2 ^ 32 }] : List RefillPage).all (fun x => !wfRefillPage x) = true := by decide +kernel
theorem test_wf_hbm : wfHbmHit (.word (2 ^ 64 - 1)) = true ∧ ([.word (2 ^ 64), .ring 0 (2 ^ 64), .page (2 ^ 32), .record (2 ^ 32), .residual 0 (2 ^ 32)] : List HbmHit).all (fun x => !wfHbmHit x) = true := by
  decide +kernel
theorem test_wf_store_errs : let b : StoreErrs := ⟨[0], [262143]⟩
    wfStoreErrs b = true ∧ ([{ b with single := [262144] },
      { b with double := [262144] }] : List StoreErrs).all (fun x => !wfStoreErrs x) = true := by decide +kernel
theorem test_wf_move : let b : MoveOp := move
    wfMoveOp b = true ∧ ([{ b with length := 2 ^ 32 },
      { b with src := 2 ^ 64 },
      { b with dst := 2 ^ 64 },
      { b with blockElems64 := 64 },
      { b with reserved := 2 ^ 64 }] : List MoveOp).all (fun x => !wfMoveOp x) = true := by decide +kernel
theorem test_wf_loop : let b : LoopOp := ⟨1, 1, 0, 0, 0, 0⟩
    wfLoopOp b = true ∧ ([{ b with count := 2 ^ 16 },
      { b with body := 2 ^ 16 },
      { b with sstride := 2 ^ 63 },
      { b with dstride := -(2 ^ 63) - 1 },
      { b with vstride := 2 ^ 31 },
      { b with reserved := 2 ^ 64 }] : List LoopOp).all (fun x => !wfLoopOp x) = true := by decide +kernel
theorem test_wf_tally_operand : let b : TallyOp := ⟨false, 0, 0, 0⟩
    wfTallyOp b = true ∧ ([{ b with tally := 2 ^ 32 },
      { b with value := 2 ^ 32 },
      { b with reserved := 2 ^ 192 }] : List TallyOp).all (fun x => !wfTallyOp x) = true := by decide +kernel
theorem test_wf_crate_request : let b : CrateReq := ⟨0, 0, 0, false, false, 0, 0, 0⟩
    wfCrateReq b = true ∧ ([{ b with size := 2 ^ 32 },
      { b with owner := 2 ^ 16 }] : List CrateReq).all (fun x => !wfCrateReq x) = true := by decide +kernel
theorem test_wf_crate_operand : let b : CrateOp := ⟨0, 0, 0⟩
    wfCrateOp b = true ∧ ([{ b with handle := 2 ^ 32 },
      { b with source := 2 ^ 16 }] : List CrateOp).all (fun x => !wfCrateOp x) = true := by decide +kernel
theorem test_wf_margin : let b : MarginMsg := ⟨0, 0, 0, 0, 0, 0, 0, false, false⟩
    wfMarginMsg b = true ∧ ([{ b with mgType := 256 },
      { b with round := 256 },
      { b with mode := 256 },
      { b with modes := 256 },
      { b with snr := 2 ^ 15 },
      { b with qmargin := -(2 ^ 15) - 1 },
      { b with target := 2 ^ 16 }] : List MarginMsg).all (fun x => !wfMarginMsg x) = true := by decide +kernel
theorem test_wf_ident : let b : IdentInfo := ⟨0, 0, 0, 0, 0⟩
    wfIdentInfo b = true ∧ ([{ b with site := 256 },
      { b with group := 2 ^ 16 },
      { b with place := 256 },
      { b with port := 256 },
      { b with carriers := 256 }] : List IdentInfo).all (fun x => !wfIdentInfo x) = true := by decide +kernel
theorem test_wf_loss_report : let b : LossReport := ⟨7, false, 0, 0⟩
    wfLossReport b = true ∧ ([{ b with carrier := 8 },
      { b with base := 2 ^ 48 },
      { b with map := 2 ^ 64 }] : List LossReport).all (fun x => !wfLossReport x) = true := by decide +kernel
theorem test_wf_key_message : let b : KeyMsg := ⟨0, 1, 0, 0, 0⟩
    wfKeyMsg b = true ∧ ([{ b with kcType := 256 },
      { b with slot := 2 },
      { b with keyId := 2 ^ 32 },
      { b with t := 2 ^ 48 },
      { b with status := 256 }] : List KeyMsg).all (fun x => !wfKeyMsg x) = true := by decide +kernel
theorem test_wf_crier_message : let b : CrierMsg := ⟨0, 0, 0, 0, 0⟩
    wfCrierMsg b = true ∧ ([{ b with clType := 256 },
      { b with site := 256 },
      { b with group := 2 ^ 16 },
      { b with place := 256 },
      { b with gen := 2 ^ 16 }] : List CrierMsg).all (fun x => !wfCrierMsg x) = true := by decide +kernel
theorem test_wf_laser : let b : LaserRead := ⟨9, 0, 0, 0, 0, 0⟩
    wfLaserRead b = true ∧ ([{ b with pos := 10 },
      { b with stat := 256 },
      { b with power := 2 ^ 15 },
      { b with bias := 2 ^ 16 },
      { b with biasEol := 2 ^ 16 },
      { b with fmon := -(2 ^ 15) - 1 }] : List LaserRead).all (fun x => !wfLaserRead x) = true := by decide +kernel
theorem test_wf_module : let b : ModuleRead := ⟨0, 0, 0, 0, 0, []⟩
    wfModuleRead b = true ∧ ([{ b with id := 2 ^ 16 },
      { b with ver := 256 },
      { b with count := 256 },
      { b with int := 2 ^ 16 },
      { b with status := 256 },
      { b with lasers := List.replicate 11 ⟨0, 0, 0, 0, 0, 0⟩ },
      { b with lasers := [⟨10, 0, 0, 0, 0, 0⟩] }] : List ModuleRead).all (fun x => !wfModuleRead x) = true := by decide +kernel
theorem test_wf_cipher : let b : CipherData := ⟨List.replicate 32 0#8, [], [], List.replicate 16 0#8, true, 0⟩
    wfCipherData b = true ∧ ([{ b with key := List.replicate 33 0#8 },
      { b with tag := List.replicate 17 0#8 }] : List CipherData).all (fun x => !wfCipherData x) = true := by decide +kernel
theorem test_wf_ptp : wfPtpBody (.sync 0 true) = true ∧ ([.announce 0 256, .sync (2 ^ 96) true, .followUp (2 ^ 96), .delayReq (2 ^ 80), .delayResp (2 ^ 80) 0, .delayResp 0 (2 ^ 96)] : List PtpBody).all
    (fun x => !wfPtpBody x) = true := by decide +kernel
theorem test_wf_door_buffers : let b : DoorBufs := ⟨0, 0, 0, 0⟩
    wfDoorBufs b = true ∧ ([{ b with retVa := 2 ^ 64 },
      { b with retRkey := 2 ^ 32 },
      { b with outVa := 2 ^ 64 },
      { b with outRkey := 2 ^ 32 }] : List DoorBufs).all (fun x => !wfDoorBufs x) = true := by decide +kernel
theorem test_wf_xfer_entry : let b : XferEntry := ⟨false, false, 0, 0, 0, 0, 0, 0, 0, 0, true⟩
    wfXferEntry b = true ∧ ([{ b with fmt := 256 },
      { b with table := 256 },
      { b with number := 2 ^ 32 },
      { b with length := 2 ^ 64 },
      { b with addr := 2 ^ 64 },
      { b with site := 256 },
      { b with block64 := 256 },
      { b with group := 2 ^ 16 }] : List XferEntry).all (fun x => !wfXferEntry x) = true := by decide +kernel
theorem test_wf_xfer_end : let b : XferEnd := ⟨0, 0, true, none⟩
    wfXferEnd b = true ∧ ([{ b with site := 256 },
      { b with number := 2 ^ 32 },
      { b with again := some (2 ^ 41, 0) },
      { b with again := some (0, 2 ^ 41) }] : List XferEnd).all (fun x => !wfXferEnd x) = true := by decide +kernel
theorem test_wf_place_entry : let b : PlaceEntry := ⟨false, 0, 0, 0, 0, true⟩
    wfPlaceEntry b = true ∧ ([{ b with prog := 2 ^ 32 },
      { b with tallyBase := 2 ^ 32 },
      { b with user := 2 ^ 64 },
      { b with list := 2 ^ 64 }] : List PlaceEntry).all (fun x => !wfPlaceEntry x) = true := by decide +kernel
theorem test_wf_factory : let b : FactoryData := ⟨[], 0, 0, [], [], [], [], [], [], [], 1⟩
    wfFactoryData b = true ∧ ([{ b with serial := List.replicate 33 0#8 },
      { b with mgmtMac := 2 ^ 48 },
      { b with portMacs := 2 ^ 48 },
      { b with slackT0 := List.replicate 113 0 },
      { b with slackT0 := [2 ^ 31] },
      { b with dirSlot := 2 }] : List FactoryData).all (fun x => !wfFactoryData x) = true := by decide +kernel
theorem test_wf_found : let b : BistFail := ⟨111, some 255⟩
    wfBistFail b = true ∧ ([{ b with island := 112 },
      { b with item := some 256 }] : List BistFail).all (fun x => !wfBistFail x) = true := by decide +kernel
theorem test_wf_rails : wfRails none = true ∧ ([some (.inrush (2 ^ 32)), some (.rail 29 0), some (.rail 0 (2 ^ 32))] : List (Option RailFault)).all (fun x => !wfRails x) = true ∧
    ([.stall 40, .part 40, .core 256] : List BistItem).all (fun x => !wfBistItem x) = true ∧ wfBistItem (.core 255) = true ∧
    wfReading (some (2 ^ 32)) = false ∧ wfReading none = true ∧ wfBoardMsg (List.replicate 4097 0#8) = false := by decide +kernel
theorem test_wf_replan : let b : ReplanData := ⟨[28], [(7, 0)], []⟩
    wfReplanData b = true ∧ ([{ b with short := [29] },
      { b with losses := [(8, 0)] },
      { b with losses := [(0, 2 ^ 31)] },
      { b with pd := List.replicate 9 0 },
      { b with pd := [2 ^ 31] }] : List ReplanData).all (fun x => !wfReplanData x) = true := by decide +kernel
theorem test_wf_fifo : wfFifoEvent (.upset 63 0 65535 true) = true ∧ ([.write (2 ^ 512) false 0 false, .write 0 false 64 false, .upset 64 0 0 false, .upset 0 (2 ^ 512) 0 false, .upset 0 0 65536 false] : List FifoEvent).all (fun x => !wfFifoEvent x) = true := by
  decide +kernel
theorem test_wf_some : Instr.wf (.subscriptionTimer 0 63) = true ∧ Instr.wf (.refillServe 0 32 31) = true ∧ Instr.wf (.mgmtIcmpEcho true (2 ^ 32) []) = true ∧ Instr.wf (.dhcpv4Message 0 0 32) = true := by decide +kernel
theorem test_ill_formed_0 : ([.dtlsHandshake ⟨0, 0, true, true, 0, false, false, false, true, 3⟩,
    .subscriptionTimer 0 64,
    .ropOpNotKnown 256 ⟨0, 0, 0, 0, false, 0, 0, 0, []⟩,
    .ropOpNotKnown 2 ⟨0, 0, 0, 0, false, 0, 0, 0, []⟩,
    .collActivate 0 (2 ^ 32),
    .chunkReq hdr (2 ^ 32) 0,
    .chunkReq hdr 0 256,
    .chunkWaitExpiry 0 (2 ^ 32) 0,
    .chunkWaitExpiry 0 0 (2 ^ 32),
    .collTimeout 0 (2 ^ 32),
    .confirmResend 0 (2 ^ 32),
    .endStatus hdr 256 0,
    .endStatus hdr 0 256,
    .epochAck hdr (2 ^ 16) [],
    .epochAck hdr 0 (List.replicate 17 (0, 0)),
    .epochAck hdr 0 [(2 ^ 32, 0)],
    .epochAck hdr 0 [(0, 256)],
    .unexpWaitExpiry 0 (2 ^ 32),
    .refillServe 0 0 0,
    .refillServe 0 33 0,
    .refillServe 0 1 1,
    .rtreeComplete (2 ^ 32) 0 0,
    .rcAcknowledgement (2 ^ 24) true,
    .readTemperature1 [0, 0, 0, 0, 0]] : List Instr).all (fun i => !i.wf) = true := by decide +kernel
theorem test_ill_formed_1 : ([.readTemperature2 [2 ^ 31],
    .readTemperature3 (List.replicate 9 0),
    .mgmtArp (2 ^ 32),
    .mgmtNeighbourDiscovery (2 ^ 128),
    .mgmtIcmpEcho false (2 ^ 32) [],
    .dhcpv4Message 256 0 0,
    .dhcpv4Message 0 (2 ^ 32) 0,
    .dhcpv4Message 0 0 33,
    .routerAdvertisement (2 ^ 128) 0 true,
    .routerAdvertisement 0 129 true,
    .crateWaitServed (2 ^ 32),
    .allocWaitExpiry (2 ^ 32),
    .ref ⟨0, 0, 0⟩ (2 ^ 16),
    .give ⟨0, 0, 0⟩ (2 ^ 16),
    .dropRest ⟨2 ^ 16, []⟩,
    .porterStop 0 ⟨0, false⟩ (2 ^ 128),
    .porterBurst 0 (List.replicate 4097 0#8) true,
    .enqueueRoom (2 ^ 32),
    .credit hdr (2 ^ 32) 0 0,
    .credit hdr 0 (2 ^ 48) 0,
    .credit hdr 0 0 (2 ^ 48),
    .tenantEthRx (List.replicate 9217 0#8),
    .lockerSample 0 (2 ^ 15) false 0,
    .lockerSample 0 0 false (2 ^ 16)] : List Instr).all (fun i => !i.wf) = true := by decide +kernel
theorem test_ill_formed_2 : ([.qmarginUpdate 0 (2 ^ 15),
    .laserTrendSample (List.replicate 11 ⟨0, 0, 0, 0, 0, 0⟩),
    .laserFail 0 (2 ^ 15),
    .biasDither 0 (2 ^ 15),
    .launchPowerLoop 0 (2 ^ 15),
    .lockerCalCheck 0 (2 ^ 15),
    .ptpMessage 0 256 (.delayReq 0),
    .isolationFence (2 ^ 9),
    .cmReq 0 (2 ^ 64) 0 ⟨0, 0, 0, 0⟩,
    .cmReq 0 0 (2 ^ 24) ⟨0, 0, 0, 0⟩,
    .rdmaWrite ⟨2 ^ 24, false⟩ 0 [],
    .rdmaWrite ⟨0, false⟩ (2 ^ 64) [],
    .rdmaRead ⟨0, false⟩ 0 (2 ^ 31),
    .rdmaSend ⟨2 ^ 24, false⟩ [],
    .portDown 0 ⟨0, 2 ^ 32⟩,
    .cnp (2 ^ 24),
    .blMsg 0 ⟨[], []⟩ [],
    .blMsg 0 ⟨List.replicate 1025 0#8, []⟩ [],
    .blMsg 0 ⟨[0], List.replicate 17 0⟩ [],
    .blMsg 0 ⟨[0], []⟩ (List.replicate 17 []),
    .boardLinkUp 0 (2 ^ 16) 0,
    .boardLinkUp 0 0 256,
    .alignerWindow 0 65536 [],
    .frameReceived 0 ⟨List.replicate 8193 0#8, []⟩ false] : List Instr).all (fun i => !i.wf) = true := by decide +kernel
theorem test_ill_formed_3 : ([.frameReceived 0 ⟨[], List.replicate 129 0⟩ false,
    .fecBlock 0 ⟨List.replicate 9 [], []⟩ 0 0,
    .fecBlock 0 ⟨[], []⟩ (2 ^ 32) 0,
    .mbDoorbell 0 (2 ^ 32),
    .respAck 0 (2 ^ 32),
    .noteAck 0 (2 ^ 32),
    .subTail 0 0 (2 ^ 32),
    .compHead 0 0 (2 ^ 32),
    .ringCtrl 0 0 (2 ^ 32),
    .registerWrite 0 (2 ^ 26) 0,
    .registerWrite 0 0 (2 ^ 64),
    .initStepComplete 0 [] (List.replicate 7 0),
    .initStepComplete 0 [⟨112, none⟩] [],
    .otWarn 0 (2 ^ 31),
    .powerCap (2 ^ 32),
    .coolant (2 ^ 31) 0,
    .coolant 0 (-(2 ^ 31) - 1),
    .rail 0 (2 ^ 32),
    .throttleStep (2 ^ 32) 0,
    .throttleStep 0 (2 ^ 32),
    .bistSliceStart 0 0 (.part 0) (2 ^ 31),
    .bistCycleOverdue (2 ^ 32),
    .ageSlackSample (List.replicate 113 0),
    .ageEyeSample (List.replicate 81 0)] : List Instr).all (fun i => !i.wf) = true := by decide +kernel
theorem test_ill_formed_4 : ([.ageEyeSample [2 ^ 32],
    .ageTempSample (2 ^ 31),
    .voltageStep 0 (2 ^ 31)] : List Instr).all (fun i => !i.wf) = true := by decide +kernel

end Sys2Proof.Tests
end

section
/-! PROOF. What tallies read as at reset: the model lists none, and one that is not listed is FREE, in the range that R163 keeps for
firmware and the fixed engines too. -/

namespace Sys2Proof.Machine

/-- No tally is listed at reset, so each reads as one that nothing has allocated. -/
@[simp] theorem getTally_reset (n : Nat) : getTally n State.reset = tallyDefault n := smGet_nil tallyDefault n

/-- Refutes O58: tally 0, one of those that R163 keeps for firmware, is FREE at reset, where the statement has it HELD. -/
theorem not_resetValues : ¬ Obligations.ResetValues := by
  unfold Obligations.ResetValues
  intro ⟨_, _, _, _, _, _, _, _, _, _, _, _, _, tallies, _⟩
  have held : (getTally 0 State.reset).tstate = 1 := tallies 0
  have free : (getTally 0 State.reset).tstate = 0 := by rw [getTally_reset, tallyDefault]
  exact absurd (free.symm.trans held) Nat.zero_ne_one

end Sys2Proof.Machine
end

section
/-! PROOF. What requests and events come to, for the statements about the dictionary: an event that is logged, a request that is answered,
a quiet state that settling leaves. -/

namespace Sys2Proof.Machine

/-! ### Events -/

/-- An event raised in a state whose log is that of `s` is one logged since `s`. -/
theorem State.logged_logEvent {s u : State} (h : u.dict.log = s.dict.log) (code arg : Nat) : s.logged (logEvent code arg u) code arg := by
  obtain ⟨m, hm⟩ := logEvent_log code arg u
  exact ⟨evRecord code arg u, by rw [hm, h, List.drop_left]; exact List.mem_cons_self, rfl, rfl⟩

/-- What has been logged is read from the log alone. -/
theorem State.logged_congr {s t u : State} {code arg : Nat} (h : t.dict.log = u.dict.log) :
    s.logged t code arg ↔ s.logged u code arg := by
  unfold State.logged; rw [h]

@[simp] theorem getObj_logEvent (key code arg : Nat) (s : State) : getObj key (logEvent code arg s) = getObj key s :=
  getObj_congr (logEvent_objs code arg s) key

@[simp] theorem getN_logEvent (key code arg : Nat) (s : State) : getN key (logEvent code arg s) = getN key s :=
  getN_congr (logEvent_objs code arg s) key

@[simp] theorem getCg_logEvent (id code arg : Nat) (s : State) : getCg id (logEvent code arg s) = getCg id s := by
  unfold getCg; rw [logEvent_groups]

/-! ### Settling -/

/-- Whether a state is quiet is read from its collectives and its objects alone; settling leaves a quiet one as it is. -/
theorem settle_of_quiet {s t : State} (h : s.quiet) (hc : t.coll = s.coll) (ho : t.dict.objs = s.dict.objs) : settle t = t := by
  obtain ⟨colls, ended, idle⟩ := h
  exact settle_quiet (hc ▸ colls) (hc ▸ ended) (getN_congr ho O.OS_STEP_STATE ▸ idle)

/-! ### Updates of the dictionary: what each leaves of its other parts -/

@[simp] theorem setSess_dict (n : Nat) (x : Session) (s : State) :
    (setSess n x s).dict.objs = s.dict.objs ∧ (setSess n x s).dict.groups = s.dict.groups ∧ (setSess n x s).dict.log = s.dict.log :=
  ⟨rfl, rfl, rfl⟩

@[simp] theorem setCg_dict (id : Nat) (g : CommitGroup) (s : State) :
    (setCg id g s).dict.objs = s.dict.objs ∧ (setCg id g s).dict.sessions = s.dict.sessions ∧ (setCg id g s).dict.log = s.dict.log :=
  ⟨rfl, rfl, rfl⟩

/-- Commit groups are read from the dictionary's groups alone. -/
theorem getCg_congr {s t : State} (h : t.dict.groups = s.dict.groups) (id : Nat) : getCg id t = getCg id s := by
  unfold getCg; rw [h]

/-! ### Answering a request (R50 to R55) -/

/-- A response is an output or a mailbox's; the dictionary and the engines stay as they are. -/
@[simp] theorem answerSent_frame (n : Nat) (r : RopResp) (s : State) :
    (answerSent n r s).dict = s.dict ∧ (answerSent n r s).devState = s.devState ∧ (answerSent n r s).comp = s.comp ∧
    (answerSent n r s).line = s.line := by
  unfold answerSent; split <;> simp

/-- Nothing sent before a response is lost by it. -/
theorem mem_sent_answerSent {o : Sent} {s : State} (h : o ∈ s.sent) (n : Nat) (r : RopResp) : o ∈ (answerSent n r s).sent := by
  unfold answerSent; split <;> simp [emit, h]

/-- A response changes no object and no commit group, kept or not. -/
@[simp] theorem respond_frame (n : Nat) (keep : Bool) (r : RopResp) (s : State) :
    (respond n keep r s).dict.objs = s.dict.objs ∧ (respond n keep r s).dict.groups = s.dict.groups ∧
    (respond n keep r s).dict.log = s.dict.log ∧ (respond n keep r s).devState = s.devState ∧ (respond n keep r s).comp = s.comp ∧
    (respond n keep r s).line = s.line := by
  unfold respond; cases keep <;> simp

/-- A kept response is the newest of the 16 its session keeps (R54). -/
theorem getSess_respond (n : Nat) (r : RopResp) (s : State) :
    getSess n (respond n true r s) = { getSess n s with kept := (r :: (getSess n s).kept).take 16 } := by
  simp [respond, getSess, setSess]

/-- The response a request gets is sent. -/
theorem mem_sent_respond (n : Nat) (keep : Bool) (r : RopResp) (s : State) : Sent.ropResponse n r ∈ (respond n keep r s).sent :=
  mem_sent_answerSent (by simp [emit]) n r

/-- The response to a request of one item has that item's status. -/
theorem firstStatus_singleton (i : RespItem) : firstStatus [i] = i.status := by
  by_cases h : i.status = 0 <;> simp [firstStatus, h]

/-- A new request without an error of its header gets what its operation answers, once, and the response is kept. -/
theorem ropRequest_new {r : RopReq} {s : State} (h : s.hears r) {op : Nat} (hop : opKnown op = true)
    (body : State → List RespItem × State) :
    ropRequest op r body s =
      respond r.sess true ⟨op % 128 + 128, firstStatus (body s).1, r.requestId, (body s).1⟩ (body s).2 := by
  obtain ⟨hears, up, served, header, new⟩ := h
  simp [ropRequest, requestError, hears, up, served, header, new, hop]

end Sys2Proof.Machine
end

section
/-! PROOF. Saving and erasing the configuration (R41 to R43). -/

namespace Sys2Proof.Machine

/-- In READY with nothing being written, CFG_SAVE is refused at 100,000 saves and accepted before (R43). -/
theorem cfgSaveCheck_save {s : State} (ready : s.devState = .ready) (idle : s.dict.cfgBusy = 0) :
    cfgSaveCheck cfgSaveCode s = if 100000 ≤ getN O.CFG_SAVE_COUNT s then 0x31 else 0 := by
  simp [cfgSaveCheck, ready, idle]

/-- In READY with nothing being written, the erase code is accepted, whatever the count of saves (R41). -/
theorem cfgSaveCheck_erase {s : State} (ready : s.devState = .ready) (idle : s.dict.cfgBusy = 0) :
    cfgSaveCheck cfgEraseCode s = 0 := by
  simp [cfgSaveCheck, cfgSaveCode, cfgEraseCode, ready, idle]

/-- CFG_SAVE accepted: the copy that is not the newest is being written with the live values. -/
theorem exec_cfgSave_taken {sess : Fin 73} {s : State} (own : ownCheck sess.val O.CFG_SAVE (.num cfgSaveCode) s = 0)
    (accepted : cfgSaveCheck cfgSaveCode s = 0) :
    exec (.cfgSave sess) s = .next (emit (.writeAnswer sess.val O.CFG_SAVE 0) (cfgStart 1 (cfgSnapshot s) s)) :=
  congrArg Host.Outcome.next (numRow_taken own accepted)

/-- CFG_SAVE refused by its own check: nothing but the answer. -/
theorem exec_cfgSave_refused {sess : Fin 73} {s : State} {e : Nat} (own : ownCheck sess.val O.CFG_SAVE (.num cfgSaveCode) s = 0)
    (refused : cfgSaveCheck cfgSaveCode s = e) (he : e ≠ 0) :
    exec (.cfgSave sess) s = .next (emit (.writeAnswer sess.val O.CFG_SAVE e) s) :=
  congrArg Host.Outcome.next (numRow_refused own refused he)

/-- The erase code accepted: an erasure is in progress. -/
theorem exec_cfgErase_taken {sess : Fin 73} {s : State} (own : ownCheck sess.val O.CFG_SAVE (.num cfgEraseCode) s = 0)
    (accepted : cfgSaveCheck cfgEraseCode s = 0) :
    exec (.cfgErase sess) s = .next (emit (.writeAnswer sess.val O.CFG_SAVE 0) (cfgStart 2 [] s)) :=
  congrArg Host.Outcome.next (numRow_taken own accepted)

/-- Writing begins on the copy that is not the newest; the newest stays as it is (R42). -/
theorem cfgStart_copies (busy : Nat) (saved : List (Nat × ObjVal)) (s : State) :
    if s.dict.cfgNewest = 0 then (cfgStart busy saved s).dict.cfgA = s.dict.cfgA ∧ (cfgStart busy saved s).dict.cfgB = ⟨false, saved⟩
    else (cfgStart busy saved s).dict.cfgB = s.dict.cfgB ∧ (cfgStart busy saved s).dict.cfgA = ⟨false, saved⟩ := by
  by_cases newestA : s.dict.cfgNewest = 0 <;> simp [cfgStart, newestA]

/-- What ends when a save is whole: the dictionary before the save is counted. -/
def savedDict (d : Dict) : Dict :=
  { d with
    cfgBusy := 0, cfgNewest := 1 - d.cfgNewest
    cfgA := { d.cfgA with valid := d.cfgA.valid || d.cfgNewest == 1 }
    cfgB := { d.cfgB with valid := d.cfgB.valid || d.cfgNewest == 0 } }

/-- The state a whole save leaves before the save is logged. -/
def savedCounted (s : State) : State := addN O.CFG_SAVE_COUNT 1 { s with dict := savedDict s.dict }

/-- A save that is whole is counted, then logged with the count. -/
theorem cfgDone_save {s : State} (saving : s.dict.cfgBusy = 1) :
    cfgDone s = logEvent 0x0420 (getN O.CFG_SAVE_COUNT (savedCounted s)) (savedCounted s) := by
  simp [cfgDone, saving, savedCounted, savedDict]

/-- An erasure that is done leaves both copies without a value. -/
theorem cfgDone_erase {s : State} (erasing : s.dict.cfgBusy = 2) : cfgDone s =
    { s with dict := { s.dict with cfgBusy := 0, cfgA := {}, cfgB := {}, cfgNewest := 1 - s.dict.cfgNewest } } := by
  simp [cfgDone, erasing]

theorem getN_savedCounted (s : State) : getN O.CFG_SAVE_COUNT (savedCounted s) =
    (getN O.CFG_SAVE_COUNT s + 1) % 2 ^ objBits O.CFG_SAVE_COUNT := by
  unfold savedCounted addN; rw [getN_setN_self]; rfl

theorem savedCounted_log (s : State) : (savedCounted s).dict.log = s.dict.log := rfl

/-- Settles O25: each command's check is decided by the state's count and the value written, and its effect is one update of the copies. -/
theorem configurationSave : Obligations.ConfigurationSave := by
  unfold Obligations.ConfigurationSave
  refine ⟨fun sess s ready idle => ⟨fun own below => ?_, fun own full => ?_, fun own => ?_⟩,
    fun s => ⟨fun saving => ?_, fun erasing => ?_⟩⟩
  case refine_1 =>
    have accepted : cfgSaveCheck cfgSaveCode s = 0 := by rw [cfgSaveCheck_save ready idle, if_neg (by omega)]
    refine ⟨_, exec_cfgSave_taken own accepted, rfl, ?_, rfl, rfl⟩
    have copies := cfgStart_copies 1 (cfgSnapshot s) s
    split <;> rename_i newest
    · obtain ⟨kept, written⟩ := (if_pos newest).mp copies
      exact ⟨kept, congrArg CfgCopy.valid written, congrArg CfgCopy.saved written⟩
    · obtain ⟨kept, written⟩ := (if_neg newest).mp copies
      exact ⟨kept, congrArg CfgCopy.valid written, congrArg CfgCopy.saved written⟩
  case refine_2 =>
    have refused : cfgSaveCheck cfgSaveCode s = 0x31 := by rw [cfgSaveCheck_save ready idle, if_pos full]
    exact exec_cfgSave_refused own refused (by decide)
  case refine_3 =>
    exact ⟨_, exec_cfgErase_taken own (cfgSaveCheck_erase ready idle), rfl, rfl, rfl, rfl⟩
  case refine_4 =>
    refine ⟨_, congrArg Host.Outcome.next (cfgDone_save saving), ?_⟩
    obtain ⟨copyA, copyB, newest, busy, -⟩ := logEvent_cfg 0x0420 (getN O.CFG_SAVE_COUNT (savedCounted s)) (savedCounted s)
    rw [copyA, copyB, newest, busy, getN_logEvent]
    refine ⟨rfl, rfl, fun newestA => ?_, fun newestB => ?_, getN_savedCounted s, ?_⟩
    · simp [savedCounted, addN, setN, setObj, savedDict, newestA]
    · simp [savedCounted, addN, setN, setObj, savedDict, newestB]
    · exact State.logged_logEvent (savedCounted_log s) _ _
  case refine_5 =>
    exact ⟨_, congrArg Host.Outcome.next (cfgDone_erase erasing), rfl, rfl, rfl, rfl⟩

end Sys2Proof.Machine
end

section
/-! PROOF. COMMIT, ABORT, the lease and the boundary of a commit group (R62 to R67). -/

namespace Sys2Proof.Machine

/-! ### The values of a shadow taken at one instant (R64 t3) -/

/-- Objects given values one after the other: what the application of a group does with its shadow. -/
def setObjs (ps : List (Nat × ObjVal)) (s : State) : State := ps.foldl (fun u p => setObj p.1 p.2 u) s

theorem cgLoad_eq_setObjs (id : Nat) (s : State) : cgLoad id s = setObjs (getCg id s).shadow s := rfl

theorem setObjs_cons (p : Nat × ObjVal) (ps : List (Nat × ObjVal)) (s : State) :
    setObjs (p :: ps) s = setObjs ps (setObj p.1 p.2 s) := rfl

/-- Taking values changes no commit group and logs nothing. -/
@[simp] theorem setObjs_dict (ps : List (Nat × ObjVal)) (s : State) :
    (setObjs ps s).dict.groups = s.dict.groups ∧ (setObjs ps s).dict.log = s.dict.log := by
  induction ps generalizing s with
  | nil => exact ⟨rfl, rfl⟩
  | cons p ps ih => exact ih (setObj p.1 p.2 s)

/-- An object that none of the values is for keeps its own. -/
theorem getObj_setObjs_of_forall_ne {ps : List (Nat × ObjVal)} {k : Nat} (h : ∀ p ∈ ps, p.1 ≠ k) (s : State) :
    getObj k (setObjs ps s) = getObj k s := by
  induction ps generalizing s with
  | nil => rfl
  | cons p ps ih =>
    obtain ⟨other, rest⟩ := List.forall_mem_cons.1 h
    rw [setObjs_cons, ih rest, getObj_setObj_ne other.symm]

/-- With one value for each object, every object has the value meant for it. -/
theorem getObj_setObjs_of_mem {ps : List (Nat × ObjVal)} (nodup : (ps.map (·.1)).Nodup) {p : Nat × ObjVal} (hp : p ∈ ps) (s : State) :
    getObj p.1 (setObjs ps s) = p.2 := by
  induction ps generalizing s with
  | nil => cases hp
  | cons q ps ih =>
    obtain ⟨fresh, nodup⟩ := List.nodup_cons.1 nodup
    rcases List.mem_cons.1 hp with rfl | hp
    · rw [setObjs_cons, getObj_setObjs_of_forall_ne fun r hr same => fresh (List.mem_map.2 ⟨r, hr, same⟩), getObj_setObj_self]
    · exact ih nodup hp _

/-! ### What ends a change -/

/-- A group whose application is done is CLEAN with the next ticket, its outcome applied. -/
theorem getCg_cgDone (id : Nat) (s : State) : getCg id (cgDone id s) = { getCg id s with
    ticket := ((getCg id s).ticket + 1) % 65536, cgState := 0, outcome := 1, lastError := 0, owner := 0xFF, shadow := [], stale := [],
    waitCarriers := [], loaded := false, before := [] } := by
  simp [cgDone]

/-- An aborted group is CLEAN with its ticket, its outcome aborted. -/
theorem getCg_cgAbort (id : Nat) (s : State) : getCg id (cgAbort id s) = { getCg id s with
    cgState := 0, outcome := 3, lastError := 0, owner := 0xFF, shadow := [], stale := [], waitCarriers := [], loaded := false,
    before := [] } := by
  simp [cgAbort]

/-- An abort is logged and changes no object and no collective. -/
theorem cgAbort_frame (id : Nat) (s : State) :
    (cgAbort id s).dict.objs = s.dict.objs ∧ (cgAbort id s).coll = s.coll ∧ s.logged (cgAbort id s) 0x0403 id := by
  exact ⟨by simp [cgAbort], by simp [cgAbort], State.logged_logEvent (setCg_dict id _ s).2.2 _ _⟩

/-- An application that is done is logged with the ticket. -/
theorem logged_cgDone (id : Nat) {s u : State} (h : u.dict.log = s.dict.log) :
    s.logged (cgDone id u) 0x0401 (((getCg id u).ticket + 1) % 65536) :=
  State.logged_logEvent ((setCg_dict id _ u).2.2.trans h) _ _

/-- What holds once a group's members have taken their values, before the group acts: it is CLEAN with the next ticket, which is logged;
every member has its value, and no other object another. -/
theorem cgDone_cgLoad {id : Nat} {s : State} (nodup : ((getCg id s).shadow.map (·.1)).Nodup) :
    let u := cgDone id (cgLoad id s)
    (getCg id u).cgState = 0 ∧ (getCg id u).outcome = 1 ∧ (getCg id u).ticket = ((getCg id s).ticket + 1) % 65536 ∧
    s.logged u 0x0401 (((getCg id s).ticket + 1) % 65536) ∧ (∀ p ∈ (getCg id s).shadow, getObj p.1 u = p.2) ∧
    ∀ k, (∀ p ∈ (getCg id s).shadow, p.1 ≠ k) → getObj k u = getObj k s := by
  have group : getCg id (cgLoad id s) = getCg id s := getCg_congr (setObjs_dict _ s).1 id
  have values (k : Nat) : getObj k (cgDone id (cgLoad id s)) = getObj k (setObjs (getCg id s).shadow s) := by
    rw [cgDone, getObj_logEvent]; rfl
  refine ⟨by rw [getCg_cgDone], by rw [getCg_cgDone], by rw [getCg_cgDone, group], ?_, fun p hp => ?_, fun k hk => ?_⟩
  · have logged := logged_cgDone id (setObjs_dict (getCg id s).shadow s).2
    rwa [← cgLoad_eq_setObjs, group] at logged
  · rw [values, getObj_setObjs_of_mem nodup hp]
  · rw [values, getObj_setObjs_of_forall_ne hk]

/-! ### COMMIT and ABORT -/

/-- A COMMIT of a group without stale members that keeps its rules arms it. -/
theorem cgCommit_armed {id : Nat} {s : State} (stale : (getCg id s).stale = [])
    (rule : (cgRule id (fun k => shadowVal (getCg id s) k s) s).1 = 0) : cgCommit id s = (0, settle (cgArm id s)) := by
  simp [cgCommit, stale, rule]

/-- A COMMIT of a group without stale members that breaks a rule is rejected with that rule. -/
theorem cgCommit_rejected {id : Nat} {s : State} (stale : (getCg id s).stale = [])
    (rule : (cgRule id (fun k => shadowVal (getCg id s) k s) s).1 ≠ 0) :
    cgCommit id s = (0x21, cgReject id 0x21 (cgRule id (fun k => shadowVal (getCg id s) k s) s).1
      (cgRule id (fun k => shadowVal (getCg id s) k s) s).2 (cgRule id (fun k => shadowVal (getCg id s) k s) s).1 s) := by
  simp [cgCommit, stale, rule]

/-- A rejected COMMIT is recorded in its group, which stays as it is otherwise. -/
theorem getCg_cgReject (id err rule key arg : Nat) (s : State) : getCg id (cgReject id err rule key arg s) = { getCg id s with
    outcome := 2, lastError := err, ruleId := rule, badIndex := key / 256, badSub := key % 256 } := by
  simp [cgReject]

/-- A rejected COMMIT is logged and changes no object. -/
theorem cgReject_frame (id err rule key arg : Nat) (s : State) :
    (cgReject id err rule key arg s).dict.objs = s.dict.objs ∧ s.logged (cgReject id err rule key arg s) 0x0402 arg :=
  ⟨by simp [cgReject], State.logged_logEvent (setCg_dict id _ s).2.2 _ _⟩

/-- Arming a group whose boundary comes later, and not with a frame, makes it ARMED and nothing else. -/
theorem cgArm_waits {id : Nat} {s : State} (later : boundaryCome id (setCg id { getCg id s with cgState := 2 } s) = false)
    (frame : cgBoundary id ≠ 1) : cgArm id s = setCg id { getCg id s with cgState := 2 } s := by
  simp [cgArm, later, frame]

/-- Arming a group whose boundary has come applies it. -/
theorem cgArm_comes {id : Nat} {s : State} (come : boundaryCome id (setCg id { getCg id s with cgState := 2 } s) = true) :
    cgArm id s = cgCome id (setCg id { getCg id s with cgState := 2 } s) := by
  simp [cgArm, come]

/-- The one item that answers a COMMIT or an ABORT: CG_STATUS as it then stands. -/
def statusItem (r : RopReq) (i : RopItem) (status : Nat) (s : State) : RespItem :=
  ⟨i.index, i.sub, ObjType.u32.code, false, false, status, bytesOrd (sessBe r.sess) 4 (cgStatus i.sub s)⟩

section
variable {r : RopReq} {i : RopItem} {s : State} (hears : s.hears r) (admin : observer r.sess s = false) (item : r.items = [i])
include hears admin item

/-- A COMMIT that may be made answers what the group's COMMIT came to. -/
theorem exec_commit (allowed : commitError r.sess i.index i.sub false s = 0) : exec (.commit r) s =
    .next (respond r.sess true ⟨131, (cgCommit i.sub s).1, r.requestId,
      [statusItem r i (cgCommit i.sub s).1 (cgCommit i.sub s).2]⟩ (cgCommit i.sub s).2) := by
  change Host.Outcome.next (ropRequest 3 r (ropCommit false r) s) = _
  have body : ropCommit false r s = ([statusItem r i (cgCommit i.sub s).1 (cgCommit i.sub s).2], (cgCommit i.sub s).2) := by
    simp [ropCommit, item, admin, allowed, statusItem]
  rw [ropRequest_new hears rfl, body, firstStatus_singleton]
  rfl

/-- An ABORT that may be made ends the group's change and answers its status. -/
theorem exec_abort (allowed : commitError r.sess i.index i.sub true s = 0) : exec (.abort r) s =
    .next (respond r.sess true ⟨131, 0, r.requestId, [statusItem r i 0 (settle (cgAbortArmed i.sub s))]⟩
      (settle (cgAbortArmed i.sub s))) := by
  change Host.Outcome.next (ropRequest 3 r (ropCommit true r) s) = _
  have body : ropCommit true r s = ([statusItem r i 0 (settle (cgAbortArmed i.sub s))], settle (cgAbortArmed i.sub s)) := by
    simp [ropCommit, item, admin, allowed, statusItem]
  rw [ropRequest_new hears rfl, body, firstStatus_singleton]
  rfl

end

/-- An ABORT of a group no frame has taken the values of, where nothing is set in motion. -/
theorem settle_cgAbortArmed {id : Nat} {s : State} (quiet : s.quiet) (loaded : (getCg id s).loaded = false) :
    settle (cgAbortArmed id s) = cgAbort id s := by
  obtain ⟨objs, coll, -⟩ := cgAbort_frame id s
  have waiting : cgAbortArmed id s = cgAbort id s := by simp [cgAbortArmed, loaded]
  rw [waiting, settle_of_quiet quiet coll objs]

/-! ### The boundary and the lease -/

/-- In READY every boundary comes at arming (R65). -/
theorem boundaryCome_ready {s : State} (ready : s.devState = .ready) (id : Nat) : boundaryCome id s = true := by
  simp [boundaryCome, ready]

/-- The boundary of an ARMED group that waits for one applies it once it has come. -/
theorem cgBoundaryAt_comes {id : Nat} {s : State} (armed : (getCg id s).cgState = 2) (loaded : (getCg id s).loaded = false)
    (come : boundaryCome id s = true) (c : Nat) : cgBoundaryAt id c s = cgCome id s := by
  simp [cgBoundaryAt, armed, loaded, come]

theorem cgOwnerGone_open {id : Nat} {s : State} (h : (getCg id s).cgState = 1) : cgOwnerGone id s = cgAbort id s := by
  simp [cgOwnerGone, h]

theorem cgOwnerGone_armed {id : Nat} {s : State} (h : (getCg id s).cgState = 2) :
    cgOwnerGone id s = setCg id { getCg id s with owner := 0xFF } s := by
  simp [cgOwnerGone, h]

/-- Settles O23: what a COMMIT comes to follows the verdict of the group's rules and its boundary; an application is the members taking
their values, then the group's own effect. -/
theorem commitGroups : Obligations.CommitGroups := by
  unfold Obligations.CommitGroups
  refine ⟨fun r i s hears admin item => ⟨fun allowed stale => ⟨fun rule later frame quiet => ?_, fun rule come nodup => ?_,
    fun rule => ?_⟩, fun allowed quiet loaded => ?_⟩, fun id s ready => boundaryCome_ready ready id,
    fun id s => ⟨fun isOpen => ?_, fun armed => ?_, fun part armed loaded come nodup => ?_⟩⟩
  case refine_1 =>
    have armed : cgCommit i.sub s = (0, setCg i.sub { getCg i.sub s with cgState := 2 } s) := by
      rw [cgCommit_armed stale rule, cgArm_waits later frame,
        settle_of_quiet quiet (setCg_frame _ _ s).2.1 (setCg_dict _ _ s).1]
    refine ⟨_, exec_commit hears admin item allowed, ?_, ?_, ?_⟩ <;> rw [armed]
    · rw [getCg_congr (respond_frame _ _ _ _).2.1, getCg_setCg_self]
    · exact (respond_frame _ _ _ _).1
    · have status : cgStatus i.sub (setCg i.sub { getCg i.sub s with cgState := 2 } s) =
          (getCg i.sub s).ticket * 2 ^ 16 + 2 * 2 ^ 12 + (getCg i.sub s).outcome * 2 ^ 8 + (getCg i.sub s).lastError := by
        simp [cgStatus]
      rw [← status]
      exact mem_sent_respond _ _ _ _
  case refine_2 =>
    let s1 := setCg i.sub { getCg i.sub s with cgState := 2 } s
    have group : getCg i.sub s1 = { getCg i.sub s with cgState := 2 } := getCg_setCg_self _ _ _
    obtain ⟨clean, -, ticket, -, values, -⟩ := cgDone_cgLoad (id := i.sub) (s := s1) (by rw [group]; exact nodup)
    rw [group] at ticket values
    refine ⟨cgDone i.sub (cgLoad i.sub s1), _, rfl, ?_, clean, ticket, values⟩
    rw [exec_commit hears admin item allowed, cgCommit_armed stale rule, cgArm_comes come]
    rfl
  case refine_3 =>
    refine ⟨_, exec_commit hears admin item allowed, ?_⟩
    rw [cgCommit_rejected stale rule]
    obtain ⟨objs, groups, log, -⟩ := respond_frame r.sess true ⟨131, 0x21, r.requestId, [statusItem r i 0x21 _]⟩ _
    rw [getCg_congr groups, getCg_cgReject, State.logged_congr log, objs]
    obtain ⟨objs, logged⟩ := cgReject_frame i.sub 0x21 _ _ _ s
    exact ⟨rfl, rfl, rfl, rfl, rfl, logged, objs⟩
  case refine_4 =>
    refine ⟨_, exec_abort hears admin item allowed, ?_⟩
    rw [settle_cgAbortArmed quiet loaded]
    obtain ⟨objs, groups, log, -⟩ := respond_frame r.sess true ⟨131, 0, r.requestId, [statusItem r i 0 (cgAbort i.sub s)]⟩
      (cgAbort i.sub s)
    rw [getCg_congr groups, getCg_cgAbort, State.logged_congr log, objs]
    obtain ⟨objs, -, logged⟩ := cgAbort_frame i.sub s
    exact ⟨rfl, rfl, rfl, logged, objs⟩
  case refine_5 =>
    obtain ⟨objs, -, logged⟩ := cgAbort_frame id.val s
    exact ⟨_, congrArg Host.Outcome.next (cgOwnerGone_open isOpen), by rw [getCg_cgAbort], by rw [getCg_cgAbort], logged, objs⟩
  case refine_6 => exact congrArg Host.Outcome.next (cgOwnerGone_armed armed)
  case refine_7 =>
    exact ⟨_, congrArg (Host.Outcome.next ∘ settle) (cgBoundaryAt_comes armed loaded come part.val), cgDone_cgLoad nodup⟩

end Sys2Proof.Machine
end

section
/-! PROOF. Subscriptions and NOTIFY (R59, R60). -/

namespace Sys2Proof.Machine

/-! ### SUBSCRIBE -/

/-- A subscription of an object that the session may read, in an allowed mode and at an allowed interval, is entered behind the session's
others, with the value the object reads now. -/
theorem subscribeItem_enters {sess : Nat} {i : RopItem} {s : State} {d : ObjDesc} {b : Subscr} (object : i.index ≠ 0)
    (readable : readCheck sess i.index i.sub s = .ok d) (type : i.type = ObjType.blob.code) (len : i.value.length = 8)
    (ready : s.devState = .ready) (asked : subOf (sessBe sess) i.index i.sub i.value = some b)
    (few : (getSess sess s).subs.length < 64) (total : subsTotal s < 512)
    (fresh : ∀ c ∈ (getSess sess s).subs, c.idx ≠ i.index ∨ c.sub ≠ i.sub) :
    subscribeItem sess i s = (0, setSess sess { getSess sess s with
      subs := (getSess sess s).subs ++
        [{ b with lastSent := some (viewVal (sessBe sess) sess (objKey i.index i.sub) s) }] } s) := by
  have others : (getSess sess s).subs.filter (fun c => !(c.idx == i.index && c.sub == i.sub)) = (getSess sess s).subs :=
    List.filter_eq_self.2 fun c hc => by rcases fresh c hc with other | other <;> simp [other]
  have value : i.value ≠ [] := by intro none; simp [none] at len
  simp only [subscribeItem, others]
  simp [object, readable, ready, type, len, value, asked, few, total]

/-- A SUBSCRIBE of one item answers what that item came to. -/
theorem exec_subscribe {r : RopReq} {i : RopItem} {s : State} (hears : s.hears r) (item : r.items = [i]) : exec (.subscribe r) s =
    .next (respond r.sess true ⟨132, (subscribeItem r.sess i s).1, r.requestId, [plainItem i (subscribeItem r.sess i s).1]⟩
      (subscribeItem r.sess i s).2) := by
  change Host.Outcome.next (ropRequest 4 r (ropSubscribe r) s) = _
  have body : ropSubscribe r s = ([plainItem i (subscribeItem r.sess i s).1], (subscribeItem r.sess i s).2) := by
    simp [ropSubscribe, item, subscribeItems]
  rw [ropRequest_new hears rfl, body, firstStatus_singleton]
  rfl

/-! ### The queue -/

/-- A notification goes to the end of a queue that is not full. -/
theorem queueNotif_of_room {n : Nat} {s : State} (room : (getSess n s).queue.length < 256) (v : Notif) :
    queueNotif n v s = setSess n { getSess n s with queue := (getSess n s).queue ++ [v] } s := by
  simp [queueNotif, Session.enqueue, room]

/-- The period of a PERIODIC subscription of an object that may be read queues the value it reads. -/
theorem subTimer_periodic {sess k : Nat} {b : Subscr} {v : ObjVal} {s : State} (entry : (getSess sess s).subs[k]? = some b)
    (periodic : b.mode = 2) (up : answererDown s = false) (readable : subVal sess b s = some v) :
    subTimer sess k s = queueNotif sess (.value b.idx b.sub v) (setSub sess k { b with lastSent := some v } s) := by
  simp [subTimer, entry, periodic, up, readable]

/-- Only ON_CHANGE subscriptions are sampled. -/
theorem sampleSubs_of_forall {n : Nat} {s : State} (h : ∀ b ∈ (getSess n s).subs, b.mode ≠ 1) : sampleSubs n s = s := by
  unfold sampleSubs
  refine List.foldlRecOn (motive := (· = s)) _ _ rfl fun u hu p hp => ?_
  have mode : p.1.mode ≠ 1 := h p.1 (List.fst_mem_of_mem_zipIdx hp)
  rw [if_neg fun c => mode c.1, hu]

/-! ### NOTIFY -/

/-- No type of a fixed size is wider than 10 bytes (Table 2.2). -/
theorem objType_size_le (t : ObjType) : t.size.getD 0 ≤ 10 := by cases t <;> decide

theorem pad4_le (n : Nat) : pad4 n ≤ n + 3 := by unfold pad4; omega

/-- Every notification fits in an empty message: a STR or BLOB that would not is cut to the room there is (R52). -/
theorem notifBytes_le {room : Nat} (h : 40 ≤ room) (x : Notif) : notifBytes room x ≤ room := by
  match x with
  | .value idx sub (.num _) =>
    simp only [notifBytes]
    split
    · rename_i d _
      have := pad4_le (d.ty.size.getD 0)
      have := objType_size_le d.ty
      omega
    · omega
  | .value _ _ (.bytes bs) => simp only [notifBytes]; split <;> omega
  | .event _ => exact h

/-- A message takes no more notifications than it may have items. -/
theorem fitCount_le (room n left : Nat) (xs : List Notif) : fitCount room n left xs ≤ n := by
  induction n generalizing left xs with
  | zero => simp [fitCount]
  | succ n ih =>
    cases xs with
    | nil => simp [fitCount]
    | cons x xs =>
      have := ih (left - notifBytes room x) xs
      simp only [fitCount]
      split <;> omega

/-- An empty message takes at least the oldest notification. -/
theorem fitCount_pos {room n : Nat} {xs : List Notif} (h : 40 ≤ room) (waiting : xs ≠ []) : 1 ≤ fitCount room (n + 1) room xs := by
  cases xs with
  | nil => exact absurd rfl waiting
  | cons x xs =>
    have := notifBytes_le h x
    simp only [fitCount]
    rw [if_neg (by omega)]
    omega

theorem msgLimit_room (n : Nat) : 40 ≤ msgLimit n - 16 := by unfold msgLimit; split <;> decide

/-- How many of a session's waiting notifications the next NOTIFY takes. -/
def noteCount (n : Nat) (s : State) : Nat := fitCount (msgLimit n - 16) 32 (msgLimit n - 16) (getSess n s).queue

/-- A session whose oldest notifications have been taken into the NOTIFY of the next number. -/
def noteTaken (n : Nat) (s : State) : State :=
  let x := getSess n s
  emit (.ropNotify n ((x.notifySeq + 1) % 2 ^ 32) false 0 ((x.queue.take (noteCount n s)).map (clipNotif (msgLimit n - 16))))
    (setSess n { x with queue := x.queue.drop (noteCount n s), notifySeq := (x.notifySeq + 1) % 2 ^ 32, overflow := false } s)

/-- The bytes of a NOTIFY leave: in a datagram, or in the mailbox of a function. -/
def noteLeaves (n : Nat) (m : List Byte) (u : State) : State :=
  if sessMgmt n then emit (.datagram n m) u
  else emit (.interrupt (sessFn n) 0) (setBox n { getBox n u with noteReady := true, note := m } u)

@[simp] theorem noteLeaves_dict (n : Nat) (m : List Byte) (u : State) : (noteLeaves n m u).dict = u.dict := by
  unfold noteLeaves; split <;> simp

theorem mem_sent_noteLeaves {o : Sent} {u : State} (h : o ∈ u.sent) (n : Nat) (m : List Byte) : o ∈ (noteLeaves n m u).sent := by
  unfold noteLeaves; split <;> simp [emit, h]

/-- A NOTIFY that may leave, for a session whose queue holds something and has lost nothing, and that has no ON_CHANGE subscription. -/
theorem sendNotify_waiting {n : Nat} {s : State} (may : mayNotify n s = true) (waiting : (getSess n s).queue ≠ [])
    (lossless : (getSess n s).overflow = false) (unsampled : ∀ b ∈ (getSess n s).subs, b.mode ≠ 1) :
    sendNotify n s = noteLeaves n (notifyMessage (sessBe n) (msgLimit n - 16) (((getSess n s).notifySeq + 1) % 2 ^ 32) false
      (getSess n s).lost ((getSess n s).queue.take (noteCount n s))) (noteTaken n s) := by
  have sampled : (if answererDown s then s else sampleSubs n s) = s := by rw [sampleSubs_of_forall unsampled, ite_self]
  simp only [sendNotify, sampled]
  simp [may, waiting, lossless, noteLeaves, noteTaken, noteCount]

/-- Settles O24: each command is one update of its session, whose other fields and whose objects stay. -/
theorem subscriptionsAndNotify : Obligations.SubscriptionsAndNotify := by
  unfold Obligations.SubscriptionsAndNotify
  refine ⟨fun r i d b s hears item object readable type len ready asked few total fresh => ?_,
    fun sess k b v s entry periodic up readable room => ?_, fun sess s may waiting lossless unsampled => ?_⟩
  case refine_1 =>
    refine ⟨_, viewVal (sessBe r.sess) r.sess (objKey i.index i.sub) s, exec_subscribe hears item, ?_⟩
    rw [subscribeItem_enters object readable type len ready asked few total fresh, getSess_respond, getSess_setSess_self]
    exact ⟨rfl, mem_sent_respond _ _ _ _, (respond_frame _ _ _ _).1⟩
  case refine_2 =>
    have session : getSess sess.val (setSub sess.val k { b with lastSent := some v } s) =
        { getSess sess.val s with subs := (getSess sess.val s).subs.set k { b with lastSent := some v } } := by
      simp [setSub]
    refine ⟨_, congrArg Host.Outcome.next (subTimer_periodic entry periodic up readable), ?_⟩
    rw [queueNotif_of_room (by rw [session]; exact room), getSess_setSess_self, session]
    exact ⟨rfl, rfl, rfl⟩
  case refine_3 =>
    refine ⟨_, noteCount sess.val s, congrArg Host.Outcome.next (sendNotify_waiting may waiting lossless unsampled),
      fitCount_pos (msgLimit_room _) waiting, fitCount_le _ _ _ _, ?_, ?_, ?_, mem_sent_noteLeaves (by simp [noteTaken, emit]) _ _⟩
    · simp [getSess, noteTaken, setSess]
    · simp [getSess, noteTaken, setSess]
    · rw [noteLeaves_dict]; rfl

end Sys2Proof.Machine
end

section
/-! PROOF. WRITE (R52, R57, R62): the items at fault, and the member of a commit group. -/

namespace Sys2Proof.Machine

/-! ### Refusals -/

/-- Nothing beyond the log and what follows from logging changed: the objects, the commit groups, the device state and the engines named
are as before. -/
def onlyLogged (s t : State) : Prop :=
  t.dict.objs = s.dict.objs ∧ t.dict.groups = s.dict.groups ∧ t.devState = s.devState ∧ t.comp = s.comp ∧ t.line = s.line

theorem onlyLogged_refl (s : State) : onlyLogged s s := ⟨rfl, rfl, rfl, rfl, rfl⟩

theorem onlyLogged.trans {s t u : State} (h : onlyLogged s t) (h' : onlyLogged t u) : onlyLogged s u := by
  obtain ⟨objs, groups, dev, comp, line⟩ := h
  obtain ⟨objs', groups', dev', comp', line'⟩ := h'
  exact ⟨objs'.trans objs, groups'.trans groups, dev'.trans dev, comp'.trans comp, line'.trans line⟩

theorem onlyLogged_logEvent (code arg : Nat) (s : State) : onlyLogged s (logEvent code arg s) := by
  simp [onlyLogged]

theorem onlyLogged_respond (n : Nat) (keep : Bool) (r : RopResp) (s : State) : onlyLogged s (respond n keep r s) := by
  simp [onlyLogged]

theorem onlyLogged_ite {p : Prop} [Decidable p] {s t : State} (h : onlyLogged s t) : onlyLogged s (if p then t else s) := by
  split
  · exact h
  · exact onlyLogged_refl s

/-- Steps that each only log only log together. -/
theorem onlyLogged_foldl {β : Type} {f : State → β → State} (hf : ∀ u b, onlyLogged u (f u b)) (l : List β) (s : State) :
    onlyLogged s (l.foldl f s) :=
  List.foldlRecOn (motive := onlyLogged s) l f (onlyLogged_refl s) fun u hu b _ => hu.trans (hf u b)

/-- A write that an object's own check refuses is at most logged. -/
theorem onlyLogged_writeRefused (key : Nat) (v : ObjVal) (sess : Nat) (s : State) : onlyLogged s (writeRefused key v sess s) := by
  unfold writeRefused
  split
  · exact onlyLogged_ite (onlyLogged_logEvent _ _ s)
  · split
    · exact onlyLogged_logEvent _ _ s
    · exact onlyLogged_ite (onlyLogged_foldl (fun u c => onlyLogged_logEvent _ _ u) _ s)

theorem onlyLogged_logRefusals (r : RopReq) (cs : List Checked) (s : State) : onlyLogged s (logRefusals r cs s) := by
  refine onlyLogged_foldl (fun u p => ?_) _ s
  split
  · exact onlyLogged_ite (onlyLogged_writeRefused _ _ _ u)
  · exact onlyLogged_refl u

/-! ### Members of commit groups -/

/-- The rows of the carriers span one index for each of the eight (Table 14.10). -/
theorem carrierRow_span : ∀ d ∈ objTable, d.group = 0x21 → d.idxHi ≤ d.idxLo + 7 := by decide +kernel

/-- The row that holds an object is one of the table's and spans it. -/
theorem findDesc_some {idx sub : Nat} {d : ObjDesc} (h : findDesc idx sub = some d) :
    d ∈ objTable ∧ d.idxLo ≤ idx ∧ idx ≤ d.idxHi ∧ d.subLo ≤ sub ∧ sub ≤ d.subHi := by
  refine ⟨List.mem_of_find?_eq_some h, ?_⟩
  have := List.find?_some h
  simp at this
  omega

theorem objKey_div {idx sub : Nat} (h : sub < 256) : objKey idx sub / 256 = idx := by unfold objKey; omega
theorem objKey_mod {idx sub : Nat} (h : sub < 256) : objKey idx sub % 256 = sub := by unfold objKey; omega

theorem groupOfKey_objKey {idx sub : Nat} {d : ObjDesc} (h : findDesc idx sub = some d) (hs : sub < 256) :
    groupOfKey (objKey idx sub) = d.groupAt idx := by
  simp [groupOfKey, objKey_div hs, objKey_mod hs, h]

/-- An object of a commit group is one of the group's members. -/
theorem mem_cgMembers {idx sub : Nat} {d : ObjDesc} (h : findDesc idx sub = some d) (hg : d.groupAt idx ≠ 0) :
    objKey idx sub ∈ cgMembers (d.groupAt idx) := by
  obtain ⟨row, lo, hi, subLo, subHi⟩ := findDesc_some h
  have column : objKey idx sub ∈ (List.range (d.subHi + 1 - d.subLo)).map fun j => objKey idx (d.subLo + j) :=
    List.mem_map.2 ⟨sub - d.subLo, List.mem_range.2 (by omega), by rw [Nat.add_sub_cancel' subLo]⟩
  refine List.mem_flatMap.2 ⟨d, row, ?_⟩
  by_cases carrier : d.group = 0x21
  · have span := carrierRow_span d row carrier
    have group : d.groupAt idx = 0x21 + (idx - d.idxLo) := if_pos carrier
    have index : d.idxLo + (0x21 + (idx - d.idxLo) - 0x21) = idx := by omega
    have range : 0x21 + (idx - d.idxLo) ≤ 0x28 := by omega
    simp only [group, carrier, index]
    simpa [range] using column
  · have group : d.groupAt idx = d.group := if_neg carrier
    rw [group] at hg ⊢
    rw [if_neg hg, if_neg carrier, if_pos rfl]
    exact List.mem_flatMap.2 ⟨idx - d.idxLo, List.mem_range.2 (by omega), by rwa [Nat.add_sub_cancel' lo]⟩

/-! ### The shadow a first write opens (R62) -/

/-- The shadow of a group that a write of a member has opened: the live values, but the member's. -/
def openedShadow (ks : List Nat) (key : Nat) (v : ObjVal) (s : State) : List (Nat × ObjVal) :=
  (ks.map fun k => (k, getObj k s)).map fun p => if p.1 == key then (key, v) else p

/-- A group that a first write of a member has opened for a session. -/
def openedGroup (id sess key : Nat) (v : ObjVal) (s : State) : CommitGroup :=
  { getCg id s with cgState := 1, owner := sess, shadow := openedShadow (cgMembers id) key v s, stale := [] }

/-- A CLEAN group opens for the session that first writes a member, its shadow holding the live values but that one. -/
theorem shadowWrite_clean {id : Nat} {s : State} (clean : (getCg id s).cgState = 0) (sess key : Nat) (v : ObjVal) :
    shadowWrite id sess key v s = setCg id (openedGroup id sess key v s) s := by
  simp [shadowWrite, clean, openedGroup, openedShadow]

/-- The written member is found in the opened shadow with the value written, -/
theorem find_openedShadow_self {ks : List Nat} {key : Nat} (h : key ∈ ks) (v : ObjVal) (s : State) :
    (openedShadow ks key v s).find? (fun p => p.1 == key) = some (key, v) := by
  induction ks with
  | nil => cases h
  | cons k ks ih =>
    by_cases same : k = key
    · simp [openedShadow, same]
    · have later : key ∈ ks := (List.mem_cons.1 h).resolve_left (Ne.symm same)
      simpa [openedShadow, same] using ih later

/-- and every other member with its live value. -/
theorem find_openedShadow_ne {k key : Nat} (hk : k ≠ key) (ks : List Nat) (v : ObjVal) (s : State) :
    (openedShadow ks key v s).find? (fun p => p.1 == k) = none ∨
      (openedShadow ks key v s).find? (fun p => p.1 == k) = some (k, getObj k s) := by
  induction ks with
  | nil => exact .inl rfl
  | cons j ks ih =>
    by_cases written : j = key
    · have other : (key == k) = false := by simpa using hk.symm
      simpa [openedShadow, written, other] using ih
    · by_cases found : j = k
      · exact .inr (by simp [openedShadow, found, hk])
      · simpa [openedShadow, written, found] using ih

section
variable {id sess key k : Nat} {v : ObjVal} {s t : State}

/-- The opened group holds the value written for the member written, -/
theorem shadowVal_openedGroup_self (h : key ∈ cgMembers id) : shadowVal (openedGroup id sess key v s) key t = v := by
  simp [shadowVal, openedGroup, find_openedShadow_self h]

/-- and gives every other object its live value. -/
theorem shadowVal_openedGroup_ne (hk : k ≠ key) (live : t.dict.objs = s.dict.objs) :
    shadowVal (openedGroup id sess key v s) k t = getObj k s := by
  unfold shadowVal openedGroup
  rcases find_openedShadow_ne hk (cgMembers id) v s with missing | found
  · simpa [missing] using getObj_congr live k
  · simp [found]

end

/-! ### The request -/

/-- A WRITE of a session that is no observer gets what its items come to. -/
theorem exec_write {r : RopReq} {s : State} (hears : s.hears r) : exec (.write r) s =
    .next (respond r.sess true ⟨130, firstStatus (ropWrite r s).1, r.requestId, (ropWrite r s).1⟩ (ropWrite r s).2) := by
  change Host.Outcome.next (ropRequest 2 r (ropWrite r) s) = _
  rw [ropRequest_new hears rfl]

/-- With an item at fault, every item answers its own error, and nothing takes effect (R57). -/
theorem ropWrite_fault {r : RopReq} {s : State} (admin : observer r.sess s = false)
    (fault : ((checkItems r.sess (afterWrite r s) s r.items (getSess r.sess s).staging).any fun c => c.err != 0) = true) :
    ropWrite r s = ((r.items.zip (checkItems r.sess (afterWrite r s) s r.items (getSess r.sess s).staging)).map
        fun p => plainItem p.1 p.2.err,
      logRefusals r (checkItems r.sess (afterWrite r s) s r.items (getSess r.sess s).staging) s) := by
  simp only [ropWrite, admin, fault]
  rfl

/-- A whole value of a member that passes the checks is accepted, with what is staged as before. -/
theorem checkItem_member {sess : Nat} {g : Nat → Nat} {i : RopItem} {st : List Staging} {s : State} {d : ObjDesc}
    (whole : i.offset = false) (object : findDesc i.index i.sub = some d) (member : groupOfKey (objKey i.index i.sub) ≠ 0)
    (std : stdCheck sess i.index i.sub i.type i.length (itemVal (sessBe sess) d i.value) s = 0)
    (own : memberCheck (objKey i.index i.sub) (itemVal (sessBe sess) d i.value) s = 0) :
    checkItem sess g i st s = ⟨0, some (itemVal (sessBe sess) d i.value), st⟩ := by
  simp [checkItem, lookupObj, object, whole, wholeCheck, std, member, own]

/-- A WRITE of one member that passes the checks goes to the shadow of its group. -/
theorem ropWrite_member {r : RopReq} {i : RopItem} {s : State} {d : ObjDesc} (admin : observer r.sess s = false)
    (item : r.items = [i]) (whole : i.offset = false) (object : findDesc i.index i.sub = some d)
    (member : groupOfKey (objKey i.index i.sub) ≠ 0)
    (std : stdCheck r.sess i.index i.sub i.type i.length (itemVal (sessBe r.sess) d i.value) s = 0)
    (own : memberCheck (objKey i.index i.sub) (itemVal (sessBe r.sess) d i.value) s = 0) :
    ropWrite r s = ([plainItem i 0], settle (shadowWrite (groupOfKey (objKey i.index i.sub)) r.sess (objKey i.index i.sub)
      (dropReserved (objKey i.index i.sub) (itemVal (sessBe r.sess) d i.value)) (setSess r.sess (getSess r.sess s) s))) := by
  have checked : checkItems r.sess (afterWrite r s) s r.items (getSess r.sess s).staging =
      [⟨0, some (itemVal (sessBe r.sess) d i.value), (getSess r.sess s).staging⟩] := by
    rw [item, checkItems, checkItem_member whole object member std own]
    rfl
  simp only [ropWrite, admin, checked]
  simp [item, takeItems, writeTakes, member, firstStatus_singleton, plainItem]

/-- Settles O22: an item at fault leaves only what is logged, and a member's value goes to the shadow its first write opens. -/
theorem ropWriting : Obligations.RopWriting := by
  unfold Obligations.RopWriting
  refine fun r s hears admin => ⟨fun fault => ?_,
    fun i d id item whole object width group member clean quiet std own => ?_⟩
  case refine_1 =>
    have answer := exec_write hears
    rw [ropWrite_fault admin fault] at answer
    obtain ⟨objs, groups, dev, comp, line⟩ := (onlyLogged_logRefusals r _ s).trans (onlyLogged_respond r.sess true _ _)
    exact ⟨_, _, answer, rfl, mem_sent_respond _ _ _ _, objs, groups, dev, comp, line⟩
  case refine_2 =>
    subst group
    let key := objKey i.index i.sub
    let u := setSess r.sess (getSess r.sess s) s
    let g := openedGroup (groupOfKey key) r.sess key (dropReserved key (itemVal (sessBe r.sess) d i.value)) u
    have among : key ∈ cgMembers (groupOfKey key) := by
      rw [groupOfKey_objKey object width] at member ⊢
      exact mem_cgMembers object member
    have written : ropWrite r s = ([plainItem i 0], setCg (groupOfKey key) g u) := by
      rw [ropWrite_member admin item whole object member std own, shadowWrite_clean (s := u) clean,
        settle_of_quiet quiet (t := setCg (groupOfKey key) g u) rfl rfl]
    have answer := exec_write hears
    rw [written, firstStatus_singleton] at answer
    refine ⟨_, answer, mem_sent_respond _ _ _ _, ?_⟩
    obtain ⟨objs, groups, -⟩ := respond_frame r.sess true ⟨130, (plainItem i 0).status, r.requestId, [plainItem i 0]⟩
      (setCg (groupOfKey key) g u)
    rw [getCg_congr groups, getCg_setCg_self]
    refine ⟨rfl, rfl, shadowVal_openedGroup_self among, fun k hk => shadowVal_openedGroup_ne hk objs, objs, fun j hj => ?_⟩
    rw [getCg_congr groups, getCg_setCg_ne hj]
    rfl

end Sys2Proof.Machine
end

section
/-! PROOF. A session that closes (R40, R62), and a commit group in none of its three states. -/

namespace Sys2Proof.Machine

/-- The end of its ownership leaves a group that is neither OPEN nor ARMED as it is. -/
theorem cgOwnerGone_of_ne {id : Nat} {s : State} (notOpen : (getCg id s).cgState ≠ 1) (notArmed : (getCg id s).cgState ≠ 2) :
    cgOwnerGone id s = s := by
  simp [cgOwnerGone, notOpen, notArmed]

/-- A session that closes leaves the groups alone when none is OPEN or ARMED. -/
theorem cgSessionGone_of_forall {s : State} (h : ∀ id ∈ cgIds, (getCg id s).cgState ≠ 1 ∧ (getCg id s).cgState ≠ 2) (n : Nat) :
    cgSessionGone n s = s := by
  refine List.foldlRecOn (motive := (· = s)) _ _ rfl fun u hu id hid => ?_
  subst hu
  obtain ⟨notOpen, notArmed⟩ := h id hid
  rw [cgOwnerGone_of_ne notOpen notArmed, ite_self]

/-- An open session that closes leaves the commit groups as the end of its ownership leaves them. -/
theorem closeSession_groups {n : Nat} {s : State} (isOpen : (getSess n s).isOpen = true) :
    (closeSession n s).dict.groups = (cgSessionGone n (setSess n Session.closed s)).dict.groups := by
  simp [closeSession, isOpen]

/-- A group owned by session 0 in a state that is none of CLEAN (0), OPEN (1) and ARMED (2): `cgState` is a number, and the statement
takes every `State`. -/
def strayGroup : CommitGroup := { cgState := 3, owner := 0 }

/-- Session 0 is open and owns the stray group 0x01; all else is as at reset. -/
def strayOwned : State := setSess 0 { isOpen := true } (setCg 0x01 strayGroup State.reset)

/-- The one group of `strayOwned` that is not as at reset. -/
theorem getCg_strayOwned (id : Nat) : getCg id strayOwned = if id = 0x01 then strayGroup else CommitGroup.clean0 :=
  (smGet_put (fun _ => CommitGroup.clean0) id 0x01 strayGroup []).trans rfl

/-- Closing session 0 leaves it the stray group. -/
theorem getCg_closeSession_strayOwned : getCg 0x01 (closeSession 0 strayOwned) = strayGroup := by
  have closed (id : Nat) : getCg id (setSess 0 Session.closed strayOwned) = getCg id strayOwned :=
    getCg_congr (setSess_dict 0 _ _).2.1 id
  have idle (id : Nat) : (getCg id strayOwned).cgState ≠ 1 ∧ (getCg id strayOwned).cgState ≠ 2 := by
    rw [getCg_strayOwned]
    split <;> decide
  have isOpen : (getSess 0 strayOwned).isOpen = true := by rw [strayOwned, getSess_setSess_self]
  rw [getCg_congr (closeSession_groups isOpen), cgSessionGone_of_forall fun id _ => by rw [closed]; exact idle id, closed,
    getCg_strayOwned, if_pos rfl]

/-- Refutes O21: DTLS_CLOSE of a session that owns a group whose state number is 3 leaves the group with its owner and not CLEAN, since
the end of ownership acts on OPEN and ARMED groups alone. The statement asks it of every `State`, with no bound on `cgState`. -/
theorem not_ropSessionsAndReading : ¬ Obligations.RopSessionsAndReading := by
  unfold Obligations.RopSessionsAndReading
  intro ⟨_, close, _⟩
  obtain ⟨t, closed, -, -, -, disowned, -⟩ := close 0 strayOwned (by rw [strayOwned, Fin.val_zero, getSess_setSess_self])
  have result : closeSession 0 strayOwned = t := Host.Outcome.next.inj closed
  have left := disowned 0x01 (by decide)
  rw [← result, getCg_closeSession_strayOwned] at left
  exact absurd left (by decide)

end Sys2Proof.Machine
end
